-- ==== Sys2Proof/Word.lean ====
section
/-! DEFINITION. The word types and the plainest operations on them: widths, byte splitting, signed readings. -/
namespace Sys2Proof

/-- An 8-bit memory byte. -/
abbrev Byte := BitVec 8
/-- A 32-bit register value. -/
abbrev Word := BitVec 32
/-- A 64-bit value: an even-odd pair, an address, a slot address. -/
abbrev DWord := BitVec 64
/-- One bit for each of a warp's 128 lanes: lane `l` is bit `l` (R43). -/
abbrev Mask := BitVec 128
/-- One 32-bit value for each lane. -/
abbrev VReg := Vector Word 128

/-- The mask of every lane. -/
def Mask.full : Mask := BitVec.allOnes 128

/-- The lanes of a mask, ascending. -/
def Mask.lanes (m : Mask) : List Nat := (List.range 128).filter (fun l => m.getLsbD l)

end Sys2Proof
end

