-- ==== Sys2Proof/Syntax.lean ====
section
/-! DEFINITION. The abstract syntax: the code enumerations of R90, R91 and the instruction chapters, operands,
headers, the data of events, and `Instr`, with one constructor for each row of the opcode table. -/
namespace Sys2Proof

/-- The type codes of R90, in code order. -/
inductive Ty where
  | b32 | i32 | b64 | i64 | b16 | i16 | b8 | i8 | f32 | f64 | f16 | bf16 | f16x2 | bf16x2 | e4m3x4 | e5m2x4
  deriving DecidableEq, Repr

/-- The field value of each `Ty`. -/
def Ty.code : Ty → Nat
  | .b32 => 0
  | .i32 => 1
  | .b64 => 2
  | .i64 => 3
  | .b16 => 4
  | .i16 => 5
  | .b8 => 6
  | .i8 => 7
  | .f32 => 8
  | .f64 => 9
  | .f16 => 10
  | .bf16 => 11
  | .f16x2 => 12
  | .bf16x2 => 13
  | .e4m3x4 => 14
  | .e5m2x4 => 15

/-- The `Ty` of a field value; `none` for a reserved code. -/
def Ty.ofCode : Nat → Option Ty
  | 0 => some .b32
  | 1 => some .i32
  | 2 => some .b64
  | 3 => some .i64
  | 4 => some .b16
  | 5 => some .i16
  | 6 => some .b8
  | 7 => some .i8
  | 8 => some .f32
  | 9 => some .f64
  | 10 => some .f16
  | 11 => some .bf16
  | 12 => some .f16x2
  | 13 => some .bf16x2
  | 14 => some .e4m3x4
  | 15 => some .e5m2x4
  | _ => none

/-- Rounding modes (R21). -/
inductive Rm where
  | rn | rz | rd | ru
  deriving DecidableEq, Repr

/-- The field value of each `Rm`. -/
def Rm.code : Rm → Nat
  | .rn => 0
  | .rz => 1
  | .rd => 2
  | .ru => 3

/-- The `Rm` of a field value; `none` for a reserved code. -/
def Rm.ofCode : Nat → Option Rm
  | 0 => some .rn
  | 1 => some .rz
  | 2 => some .rd
  | 3 => some .ru
  | _ => none

/-- Comparison codes of ICMP and UCMP (R111). -/
inductive Cmp where
  | eq | ne | lt | le | gt | ge
  deriving DecidableEq, Repr

/-- The field value of each `Cmp`. -/
def Cmp.code : Cmp → Nat
  | .eq => 0
  | .ne => 1
  | .lt => 2
  | .le => 3
  | .gt => 4
  | .ge => 5

/-- The `Cmp` of a field value; `none` for a reserved code. -/
def Cmp.ofCode : Nat → Option Cmp
  | 0 => some .eq
  | 1 => some .ne
  | 2 => some .lt
  | 3 => some .le
  | 4 => some .gt
  | 5 => some .ge
  | _ => none

/-- Comparison codes of FCMP (R129). -/
inductive FCmp where
  | eq | ne | lt | le | gt | ge | num | nan | equ | neu | ltu | leu | gtu | geu
  deriving DecidableEq, Repr

/-- The field value of each `FCmp`. -/
def FCmp.code : FCmp → Nat
  | .eq => 0
  | .ne => 1
  | .lt => 2
  | .le => 3
  | .gt => 4
  | .ge => 5
  | .num => 6
  | .nan => 7
  | .equ => 8
  | .neu => 9
  | .ltu => 10
  | .leu => 11
  | .gtu => 12
  | .geu => 13

/-- The `FCmp` of a field value; `none` for a reserved code. -/
def FCmp.ofCode : Nat → Option FCmp
  | 0 => some .eq
  | 1 => some .ne
  | 2 => some .lt
  | 3 => some .le
  | 4 => some .gt
  | 5 => some .ge
  | 6 => some .num
  | 7 => some .nan
  | 8 => some .equ
  | 9 => some .neu
  | 10 => some .ltu
  | 11 => some .leu
  | 12 => some .gtu
  | 13 => some .geu
  | _ => none

/-- The space codes SP (R91). -/
inductive Space where
  | gen | priv | spad | gsh | glob | cwin
  deriving DecidableEq, Repr

/-- The field value of each `Space`. -/
def Space.code : Space → Nat
  | .gen => 0
  | .priv => 1
  | .spad => 2
  | .gsh => 3
  | .glob => 4
  | .cwin => 5

/-- The `Space` of a field value; `none` for a reserved code. -/
def Space.ofCode : Nat → Option Space
  | 0 => some .gen
  | 1 => some .priv
  | 2 => some .spad
  | 3 => some .gsh
  | 4 => some .glob
  | 5 => some .cwin
  | _ => none

/-- The scope codes SC (R91, R340). -/
inductive Scope where
  | wg | gang | dev | pod | job | host
  deriving DecidableEq, Repr

/-- The field value of each `Scope`. -/
def Scope.code : Scope → Nat
  | .wg => 0
  | .gang => 1
  | .dev => 2
  | .pod => 3
  | .job => 4
  | .host => 5

/-- The `Scope` of a field value; `none` for a reserved code. -/
def Scope.ofCode : Nat → Option Scope
  | 0 => some .wg
  | 1 => some .gang
  | 2 => some .dev
  | 3 => some .pod
  | 4 => some .job
  | 5 => some .host
  | _ => none

/-- The level codes LV (R91). -/
inductive Level where
  | wgrp | gang | launch | graph | phase | job
  deriving DecidableEq, Repr

/-- The field value of each `Level`. -/
def Level.code : Level → Nat
  | .wgrp => 0
  | .gang => 1
  | .launch => 2
  | .graph => 3
  | .phase => 4
  | .job => 5

/-- The `Level` of a field value; `none` for a reserved code. -/
def Level.ofCode : Nat → Option Level
  | 0 => some .wgrp
  | 1 => some .gang
  | 2 => some .launch
  | 3 => some .graph
  | 4 => some .phase
  | 5 => some .job
  | _ => none

/-- The access sizes SZ (R91). -/
inductive Size where
  | zx8 | sx8 | zx16 | sx16 | w32 | w64
  deriving DecidableEq, Repr

/-- The field value of each `Size`. -/
def Size.code : Size → Nat
  | .zx8 => 0
  | .sx8 => 1
  | .zx16 => 2
  | .sx16 => 3
  | .w32 => 4
  | .w64 => 5

/-- The `Size` of a field value; `none` for a reserved code. -/
def Size.ofCode : Nat → Option Size
  | 0 => some .zx8
  | 1 => some .sx8
  | 2 => some .zx16
  | 3 => some .sx16
  | 4 => some .w32
  | 5 => some .w64
  | _ => none

/-- The split granules SG (R91). -/
inductive Sg where
  | none | k64 | k32 | k16
  deriving DecidableEq, Repr

/-- The field value of each `Sg`. -/
def Sg.code : Sg → Nat
  | .none => 0
  | .k64 => 1
  | .k32 => 2
  | .k16 => 3

/-- The `Sg` of a field value; `none` for a reserved code. -/
def Sg.ofCode : Nat → Option Sg
  | 0 => some .none
  | 1 => some .k64
  | 2 => some .k32
  | 3 => some .k16
  | _ => none

/-- VOTE modes (R116). -/
inductive VoteMode where
  | all | any | uni
  deriving DecidableEq, Repr

/-- The field value of each `VoteMode`. -/
def VoteMode.code : VoteMode → Nat
  | .all => 0
  | .any => 1
  | .uni => 2

/-- The `VoteMode` of a field value; `none` for a reserved code. -/
def VoteMode.ofCode : Nat → Option VoteMode
  | 0 => some .all
  | 1 => some .any
  | 2 => some .uni
  | _ => none

/-- LGET modes (R118). -/
inductive LgetMode where
  | abs | rot | rev | xor
  deriving DecidableEq, Repr

/-- The field value of each `LgetMode`. -/
def LgetMode.code : LgetMode → Nat
  | .abs => 0
  | .rot => 1
  | .rev => 2
  | .xor => 3

/-- The `LgetMode` of a field value; `none` for a reserved code. -/
def LgetMode.ofCode : Nat → Option LgetMode
  | 0 => some .abs
  | 1 => some .rot
  | 2 => some .rev
  | 3 => some .xor
  | _ => none

/-- LRED and SCAN operations (R121). -/
inductive RedOp where
  | add | min | max | and | or | xor
  deriving DecidableEq, Repr

/-- The field value of each `RedOp`. -/
def RedOp.code : RedOp → Nat
  | .add => 0
  | .min => 1
  | .max => 2
  | .and => 3
  | .or => 4
  | .xor => 5

/-- The `RedOp` of a field value; `none` for a reserved code. -/
def RedOp.ofCode : Nat → Option RedOp
  | 0 => some .add
  | 1 => some .min
  | 2 => some .max
  | 3 => some .and
  | 4 => some .or
  | 5 => some .xor
  | _ => none

/-- BAR and BARG modes (R152). -/
inductive BarMode where
  | sync | arrive | wait
  deriving DecidableEq, Repr

/-- The field value of each `BarMode`. -/
def BarMode.code : BarMode → Nat
  | .sync => 0
  | .arrive => 1
  | .wait => 2

/-- The `BarMode` of a field value; `none` for a reserved code. -/
def BarMode.ofCode : Nat → Option BarMode
  | 0 => some .sync
  | 1 => some .arrive
  | 2 => some .wait
  | _ => none

/-- TIME sources (R161). -/
inductive TimeSrc where
  | dev | clk | win
  deriving DecidableEq, Repr

/-- The field value of each `TimeSrc`. -/
def TimeSrc.code : TimeSrc → Nat
  | .dev => 0
  | .clk => 1
  | .win => 2

/-- The `TimeSrc` of a field value; `none` for a reserved code. -/
def TimeSrc.ofCode : Nat → Option TimeSrc
  | 0 => some .dev
  | 1 => some .clk
  | 2 => some .win
  | _ => none

/-- FENCE modes (R178). -/
inductive FenceMode where
  | acqrel | rel | acq
  deriving DecidableEq, Repr

/-- The field value of each `FenceMode`. -/
def FenceMode.code : FenceMode → Nat
  | .acqrel => 0
  | .rel => 1
  | .acq => 2

/-- The `FenceMode` of a field value; `none` for a reserved code. -/
def FenceMode.ofCode : Nat → Option FenceMode
  | 0 => some .acqrel
  | 1 => some .rel
  | 2 => some .acq
  | _ => none

/-- SPFE modes (R184). -/
inductive SpfeMode where
  | empty | full | test
  deriving DecidableEq, Repr

/-- The field value of each `SpfeMode`. -/
def SpfeMode.code : SpfeMode → Nat
  | .empty => 0
  | .full => 1
  | .test => 2

/-- The `SpfeMode` of a field value; `none` for a reserved code. -/
def SpfeMode.ofCode : Nat → Option SpfeMode
  | 0 => some .empty
  | 1 => some .full
  | 2 => some .test
  | _ => none

/-- Atomic operations (R175). -/
inductive Aop where
  | add | smin | smax | umin | umax | and | or | xor | exch | inc | dec | fadd | fmin | fmax
  deriving DecidableEq, Repr

/-- The field value of each `Aop`. -/
def Aop.code : Aop → Nat
  | .add => 0
  | .smin => 1
  | .smax => 2
  | .umin => 3
  | .umax => 4
  | .and => 5
  | .or => 6
  | .xor => 7
  | .exch => 8
  | .inc => 9
  | .dec => 10
  | .fadd => 11
  | .fmin => 12
  | .fmax => 13

/-- The `Aop` of a field value; `none` for a reserved code. -/
def Aop.ofCode : Nat → Option Aop
  | 0 => some .add
  | 1 => some .smin
  | 2 => some .smax
  | 3 => some .umin
  | 4 => some .umax
  | 5 => some .and
  | 6 => some .or
  | 7 => some .xor
  | 8 => some .exch
  | 9 => some .inc
  | 10 => some .dec
  | 11 => some .fadd
  | 12 => some .fmin
  | 13 => some .fmax
  | _ => none

/-- CVTQ targets and DQ kinds (R137, R138). -/
inductive QTarget where
  | q4 | q8 | e2m1b | e4m3b
  deriving DecidableEq, Repr

/-- The field value of each `QTarget`. -/
def QTarget.code : QTarget → Nat
  | .q4 => 0
  | .q8 => 1
  | .e2m1b => 2
  | .e4m3b => 3

/-- The `QTarget` of a field value; `none` for a reserved code. -/
def QTarget.ofCode : Nat → Option QTarget
  | 0 => some .q4
  | 1 => some .q8
  | 2 => some .e2m1b
  | 3 => some .e4m3b
  | _ => none

/-- RANK kinds (R213). -/
inductive RankKind where
  | f32 | f16 | bf16
  deriving DecidableEq, Repr

/-- The field value of each `RankKind`. -/
def RankKind.code : RankKind → Nat
  | .f32 => 0
  | .f16 => 1
  | .bf16 => 2

/-- The `RankKind` of a field value; `none` for a reserved code. -/
def RankKind.ofCode : Nat → Option RankKind
  | 0 => some .f32
  | 1 => some .f16
  | 2 => some .bf16
  | _ => none

/-- An operand code of R48: `v0`–`v239`, `vz`, `vlane`, `q0`–`q7`, `s0`–`s127`. -/
inductive Opd where
  | v (n : Nat) | vz | vlane | q (p : Nat) | s (n : Nat)
  deriving DecidableEq, Repr

/-- The header fields of R79 other than OP. -/
structure Hdr where
  /-- guard predicate -/
  pg : Nat
  /-- negate the guard -/
  pn : Bool
  /-- stall count -/
  st : Nat
  /-- scoreboard entry counted, 0 for none -/
  sb : Nat
  /-- wait mask: bit e − 1 for entry e -/
  wm : BitVec 7
  /-- yield hint -/
  yd : Bool
  deriving DecidableEq, Repr

/-- The kinds of R291 of which one operation each runs at once (log 5): the array (MMA, MMAS), the accumulator store
(ACCZ, ACCLD, ACCST, ACCRED, ACCRD), and reads of a slot by SLOTRD. -/
inductive AnvilKind where | array | accum | slot
  deriving DecidableEq, Repr

/-- What a remote request asks of the target (R385). -/
inductive RemOp where
  /-- read `len` bytes -/
  | read (len : Nat)
  /-- write the bytes whose mask entry is true -/
  | write (bytes : List (Option Byte))
  /-- the atomic operation of R175 on a word of `w` bytes -/
  | atomic (op : Aop) (w : Nat) (b : DWord)
  /-- compare and swap on a word of `w` bytes (R177) -/
  | cas (w : Nat) (cmp new : DWord)
  /-- the state query of R188 -/
  | frzq
  deriving DecidableEq, Repr

/-- The frozen tag of a reply (R261): entry, generation, scope code. -/
structure FrzTag where
  entry : Nat
  gen : Nat
  sc : Nat
  deriving DecidableEq, Repr

/-- A request arriving from another device, or sent to one. -/
structure RemReq where
  /-- rank of the initiator -/
  init : Nat
  /-- transaction tag, unique among the initiator's outstanding requests -/
  tag : Nat
  region : Nat
  off : Nat
  op : RemOp
  deriving DecidableEq, Repr

/-- A response to one of this device's requests. -/
structure RemResp where
  /-- the request's tag, with its generation and the packet's index at job scope (R376, R397) -/
  tag : Nat
  gen : Nat
  idx : Nat
  /-- data read, or the atomic's old value -/
  data : List Byte
  /-- the fault kind f of cause 0x128 + 8s + f, when the request failed -/
  fail : Option Nat
  /-- the frozen tag of the reply (R261) -/
  frz : Option FrzTag
  deriving DecidableEq, Repr

/-- The contents of one transaction slot of a flit (R385, R390). -/
inductive Txn where
  | req (r : RemReq)
  | resp (r : RemResp)
  /-- generation retirement for an entry of the home of that rank (R187, R356) -/
  | retire (home entry gen sc : Nat)
  /-- its acknowledgement -/
  | retired (entry : Nat)
  /-- link summary (R390): the slots to which the sender has a live plane -/
  | summary (slot : Nat) (peers : List Nat)
  /-- a freeze install that the home of that rank makes known (R385) -/
  | install (home entry gen sc : Nat)
  /-- a transaction of one slot to be relayed to another (R392) -/
  | relay (toSlot fromSlot : Nat) (t : Txn)
  deriving DecidableEq, Repr

/-- A flit of R384. -/
structure Flit where
  seq : Nat
  ack : Nat
  /-- byte TYPE: [3:0] 0 data, 1 acknowledgement only, 2 nack, 3 idle; [7:4] zero -/
  typ : Nat
  /-- byte NSLOT: [1:0] slots in use; [7:2] zero -/
  nslot : Nat
  live : BitVec 16
  /-- what the slots carry, whose headers are UALink's (R385) -/
  slots : List Txn
  /-- bytes 8–247 as they stand on the wire, and the CRC of bytes 248–255 -/
  body : List Byte
  crc : DWord
  deriving DecidableEq, Repr

/-- A job packet (R376, R399). -/
structure JobPacket where
  init : Nat
  tag : Nat
  gen : Nat
  idx : Nat
  count : Nat
  /-- window number of the first sending -/
  win : Nat
  /-- log2 W of the sender -/
  logW : Nat
  entropy : Nat
  region : Nat
  off : Nat
  op : RemOp
  deriving DecidableEq, Repr

/-- A unit that can be fenced (R427). -/
inductive FenceUnit where
  /-- core, with the fault index f of cause 0x170 + f -/
  | core (c f : Nat)
  | anvil (c : Nat)
  | bellows (c : Nat)
  /-- memory channel, numbered as in R332 -/
  | channel (i : Nat)
  /-- L2 slice 64h + i -/
  | l2 (i : Nat)
  /-- remote-data cache slice 32h + i -/
  | rdc (i : Nat)
  | plane (p : Nat)
  | port (p : Nat)
  deriving DecidableEq, Repr

/-- An image as the ROM finds it (R371): its signature verifies, its security version, and the fused minimum of that image. -/
structure BootImage where
  signed : Bool
  version : Nat
  least : Nat
  deriving DecidableEq, Repr

/-- A completion of a message at job scope (R377): the tag's generation, and how many of its packets were refused at frozen bytes (R189). -/
structure Completion where
  gen : Nat
  refused : Nat
  deriving DecidableEq, Repr

/-- The readings of the sensors (R430, R432): die temperatures in °C, and the drawn power in W. -/
structure Sensors where
  temps : List Nat
  power : Nat
  deriving DecidableEq, Repr

/-- What the outside decides of a bring-up (R371, R431). -/
structure BootOutcome where
  /-- the images of R371 in order -/
  images : List BootImage
  /-- planes that locked at step 6 -/
  planes : BitVec 16
  /-- functions that failed in steps 5 to 7 -/
  failed : List FenceUnit
  /-- IEEE 1588 locked at step 7 -/
  ptp : Bool
  deriving DecidableEq, Repr

/-- An SPDM request (R372). -/
inductive SpdmReq where
  | getVersion | getCapabilities | negotiate | getDigests | getCertificate (slot : Nat) | challenge (slot : Nat) | getMeasurements (index : Nat)
  /-- any other request code -/
  | other
  deriving DecidableEq, Repr

/-- One constructor for each row of the opcode table. An instruction row carries its header (R79) and its used
fields; an event row (a step of the machine other than an instruction) carries what the outside or the schedule
chooses for it. -/
inductive Instr where
  | nop (h : Hdr)
  | mov (h : Hdr) (ty : Ty) (d : Opd) (a : Opd)
  | movImm (h : Hdr) (ty : Ty) (d : Opd) (imm : BitVec 32)
  | iadd (h : Hdr) (ty : Ty) (sat : Bool) (na : Bool) (nb : Bool) (d : Opd) (a : Opd) (b : Opd)
  | iaddImm (h : Hdr) (ty : Ty) (sat : Bool) (d : Opd) (a : Opd) (imm : BitVec 32)
  | isub (h : Hdr) (ty : Ty) (sat : Bool) (d : Opd) (a : Opd) (b : Opd)
  | isubImm (h : Hdr) (ty : Ty) (sat : Bool) (d : Opd) (a : Opd) (imm : BitVec 32)
  | iaddc (h : Hdr) (ty : Ty) (ci : Nat) (pd : Nat) (d : Opd) (a : Opd) (b : Opd)
  | iaddcImm (h : Hdr) (ty : Ty) (ci : Nat) (pd : Nat) (d : Opd) (a : Opd) (imm : BitVec 32)
  | imul (h : Hdr) (ty : Ty) (sat : Bool) (d : Opd) (a : Opd) (b : Opd)
  | imulImm (h : Hdr) (ty : Ty) (sat : Bool) (d : Opd) (a : Opd) (imm : BitVec 32)
  | imulh (h : Hdr) (ty : Ty) (d : Opd) (a : Opd) (b : Opd)
  | imulhImm (h : Hdr) (ty : Ty) (d : Opd) (a : Opd) (imm : BitVec 32)
  | imad (h : Hdr) (ty : Ty) (sat : Bool) (nc : Bool) (d : Opd) (a : Opd) (b : Opd) (c : Opd)
  | imadImm (h : Hdr) (ty : Ty) (sat : Bool) (d : Opd) (a : Opd) (imm : BitVec 32)
  | imadw (h : Hdr) (ty : Ty) (sat : Bool) (d : Opd) (a : Opd) (b : Opd) (c : Opd)
  | imadwImm (h : Hdr) (ty : Ty) (sat : Bool) (d : Opd) (a : Opd) (imm : BitVec 32)
  | imin (h : Hdr) (ty : Ty) (d : Opd) (a : Opd) (b : Opd)
  | iminImm (h : Hdr) (ty : Ty) (d : Opd) (a : Opd) (imm : BitVec 32)
  | imax (h : Hdr) (ty : Ty) (d : Opd) (a : Opd) (b : Opd)
  | imaxImm (h : Hdr) (ty : Ty) (d : Opd) (a : Opd) (imm : BitVec 32)
  | iabs (h : Hdr) (ty : Ty) (sat : Bool) (d : Opd) (a : Opd)
  | iabsImm (h : Hdr) (ty : Ty) (sat : Bool) (d : Opd) (imm : BitVec 32)
  | shl (h : Hdr) (ty : Ty) (sat : Bool) (d : Opd) (a : Opd) (b : Opd)
  | shlImm (h : Hdr) (ty : Ty) (sat : Bool) (d : Opd) (a : Opd) (imm : BitVec 32)
  | shr (h : Hdr) (ty : Ty) (d : Opd) (a : Opd) (b : Opd)
  | shrImm (h : Hdr) (ty : Ty) (d : Opd) (a : Opd) (imm : BitVec 32)
  | sar (h : Hdr) (ty : Ty) (d : Opd) (a : Opd) (b : Opd)
  | sarImm (h : Hdr) (ty : Ty) (d : Opd) (a : Opd) (imm : BitVec 32)
  | and (h : Hdr) (ty : Ty) (na : Bool) (nb : Bool) (d : Opd) (a : Opd) (b : Opd)
  | andImm (h : Hdr) (ty : Ty) (d : Opd) (a : Opd) (imm : BitVec 32)
  | or (h : Hdr) (ty : Ty) (na : Bool) (nb : Bool) (d : Opd) (a : Opd) (b : Opd)
  | orImm (h : Hdr) (ty : Ty) (d : Opd) (a : Opd) (imm : BitVec 32)
  | xor (h : Hdr) (ty : Ty) (na : Bool) (nb : Bool) (d : Opd) (a : Opd) (b : Opd)
  | xorImm (h : Hdr) (ty : Ty) (d : Opd) (a : Opd) (imm : BitVec 32)
  | lut3 (h : Hdr) (ty : Ty) (lut : BitVec 8) (d : Opd) (a : Opd) (b : Opd) (c : Opd)
  | lut3Imm (h : Hdr) (ty : Ty) (lutLo : BitVec 5) (lutHi : BitVec 3) (d : Opd) (a : Opd) (imm : BitVec 32)
  | popc (h : Hdr) (ty : Ty) (d : Opd) (a : Opd)
  | clz (h : Hdr) (ty : Ty) (d : Opd) (a : Opd)
  | bfe (h : Hdr) (ty : Ty) (d : Opd) (a : Opd) (b : Opd)
  | bfeImm (h : Hdr) (ty : Ty) (d : Opd) (a : Opd) (imm : BitVec 32)
  | bfi (h : Hdr) (ty : Ty) (d : Opd) (a : Opd) (b : Opd) (c : Opd)
  | bfiImm (h : Hdr) (ty : Ty) (d : Opd) (a : Opd) (imm : BitVec 32)
  | bpick (h : Hdr) (d : Opd) (a : Opd) (b : Opd) (c : Opd)
  | bpickImm (h : Hdr) (d : Opd) (a : Opd) (imm : BitVec 32)
  | sel (h : Hdr) (ty : Ty) (pr : Nat) (neg : Bool) (d : Opd) (a : Opd) (b : Opd)
  | selImm (h : Hdr) (ty : Ty) (pr : Nat) (neg : Bool) (d : Opd) (a : Opd) (imm : BitVec 32)
  | icmp (h : Hdr) (ty : Ty) (cmp : Cmp) (pd : Nat) (a : Opd) (b : Opd)
  | icmpImm (h : Hdr) (ty : Ty) (cmp : Cmp) (pd : Nat) (a : Opd) (imm : BitVec 32)
  | lea (h : Hdr) (ty : Ty) (sh : Nat) (d : Opd) (a : Opd) (b : Opd)
  | leaImm (h : Hdr) (ty : Ty) (sh : Nat) (d : Opd) (a : Opd) (imm : BitVec 32)
  | idot4 (h : Hdr) (ty : Ty) (sat : Bool) (sgA : Bool) (sgB : Bool) (d : Opd) (a : Opd) (b : Opd) (c : Opd)
  | umov (h : Hdr) (ty : Ty) (d : Opd) (a : Opd)
  | umovImm (h : Hdr) (ty : Ty) (d : Opd) (imm : BitVec 32)
  | uadd (h : Hdr) (ty : Ty) (sat : Bool) (na : Bool) (nb : Bool) (d : Opd) (a : Opd) (b : Opd)
  | uaddImm (h : Hdr) (ty : Ty) (sat : Bool) (d : Opd) (a : Opd) (imm : BitVec 32)
  | usub (h : Hdr) (ty : Ty) (sat : Bool) (d : Opd) (a : Opd) (b : Opd)
  | usubImm (h : Hdr) (ty : Ty) (sat : Bool) (d : Opd) (a : Opd) (imm : BitVec 32)
  | umul (h : Hdr) (ty : Ty) (sat : Bool) (d : Opd) (a : Opd) (b : Opd)
  | umulImm (h : Hdr) (ty : Ty) (sat : Bool) (d : Opd) (a : Opd) (imm : BitVec 32)
  | umad (h : Hdr) (ty : Ty) (sat : Bool) (nc : Bool) (d : Opd) (a : Opd) (b : Opd) (c : Opd)
  | umadImm (h : Hdr) (ty : Ty) (sat : Bool) (d : Opd) (a : Opd) (imm : BitVec 32)
  | umin (h : Hdr) (ty : Ty) (d : Opd) (a : Opd) (b : Opd)
  | uminImm (h : Hdr) (ty : Ty) (d : Opd) (a : Opd) (imm : BitVec 32)
  | umax (h : Hdr) (ty : Ty) (d : Opd) (a : Opd) (b : Opd)
  | umaxImm (h : Hdr) (ty : Ty) (d : Opd) (a : Opd) (imm : BitVec 32)
  | ushl (h : Hdr) (ty : Ty) (sat : Bool) (d : Opd) (a : Opd) (b : Opd)
  | ushlImm (h : Hdr) (ty : Ty) (sat : Bool) (d : Opd) (a : Opd) (imm : BitVec 32)
  | ushr (h : Hdr) (ty : Ty) (d : Opd) (a : Opd) (b : Opd)
  | ushrImm (h : Hdr) (ty : Ty) (d : Opd) (a : Opd) (imm : BitVec 32)
  | usar (h : Hdr) (ty : Ty) (d : Opd) (a : Opd) (b : Opd)
  | usarImm (h : Hdr) (ty : Ty) (d : Opd) (a : Opd) (imm : BitVec 32)
  | uand (h : Hdr) (ty : Ty) (na : Bool) (nb : Bool) (d : Opd) (a : Opd) (b : Opd)
  | uandImm (h : Hdr) (ty : Ty) (d : Opd) (a : Opd) (imm : BitVec 32)
  | uor (h : Hdr) (ty : Ty) (na : Bool) (nb : Bool) (d : Opd) (a : Opd) (b : Opd)
  | uorImm (h : Hdr) (ty : Ty) (d : Opd) (a : Opd) (imm : BitVec 32)
  | uxor (h : Hdr) (ty : Ty) (na : Bool) (nb : Bool) (d : Opd) (a : Opd) (b : Opd)
  | uxorImm (h : Hdr) (ty : Ty) (d : Opd) (a : Opd) (imm : BitVec 32)
  | ucmp (h : Hdr) (ty : Ty) (cmp : Cmp) (pd : Nat) (a : Opd) (b : Opd)
  | ucmpImm (h : Hdr) (ty : Ty) (cmp : Cmp) (pd : Nat) (a : Opd) (imm : BitVec 32)
  | ulea (h : Hdr) (ty : Ty) (sh : Nat) (d : Opd) (a : Opd) (b : Opd)
  | uleaImm (h : Hdr) (ty : Ty) (sh : Nat) (d : Opd) (a : Opd) (imm : BitVec 32)
  | plut3 (h : Hdr) (lut : BitVec 8) (na : Bool) (nb : Bool) (nc : Bool) (pd : Nat) (pa : Nat) (pb : Nat) (pc : Nat)
  | pmovTov (h : Hdr) (na : Bool) (d : Opd) (pa : Nat)
  | pmovFromv (h : Hdr) (pd : Nat) (a : Opd)
  | pmovSave (h : Hdr) (d : Opd)
  | pmovLoad (h : Hdr) (a : Opd)
  | vote (h : Hdr) (mode : VoteMode) (na : Bool) (pd : Nat) (pa : Nat)
  | ballot (h : Hdr) (na : Bool) (d : Opd) (pa : Nat)
  | lget (h : Hdr) (mode : LgetMode) (g : Nat) (ty : Ty) (pd : Nat) (d : Opd) (a : Opd) (b : Opd)
  | pswap (h : Hdr) (ln : Nat) (neglo : Bool) (ty : Ty) (d : Opd) (a : Opd)
  | matchv (h : Hdr) (ty : Ty) (pd : Nat) (d : Opd) (a : Opd)
  | lred (h : Hdr) (op : RedOp) (rm : Rm) (ty : Ty) (d : Opd) (a : Opd)
  | scan (h : Hdr) (op : RedOp) (excl : Bool) (rm : Rm) (ty : Ty) (d : Opd) (a : Opd)
  | readl (h : Hdr) (ty : Ty) (d : Opd) (a : Opd) (b : Opd)
  | readlFirst (h : Hdr) (ty : Ty) (d : Opd) (a : Opd)
  | fadd (h : Hdr) (ty : Ty) (rm : Rm) (sat : Bool) (na : Bool) (nb : Bool) (d : Opd) (a : Opd) (b : Opd)
  | faddImm (h : Hdr) (ty : Ty) (rm : Rm) (sat : Bool) (d : Opd) (a : Opd) (imm : BitVec 32)
  | fmul (h : Hdr) (ty : Ty) (rm : Rm) (sat : Bool) (na : Bool) (nb : Bool) (d : Opd) (a : Opd) (b : Opd)
  | fmulImm (h : Hdr) (ty : Ty) (rm : Rm) (sat : Bool) (d : Opd) (a : Opd) (imm : BitVec 32)
  | ffma (h : Hdr) (ty : Ty) (rm : Rm) (sat : Bool) (na : Bool) (nb : Bool) (nc : Bool) (d : Opd) (a : Opd) (b : Opd) (c : Opd)
  | ffmaImm (h : Hdr) (ty : Ty) (rm : Rm) (sat : Bool) (d : Opd) (a : Opd) (imm : BitVec 32)
  | fmin (h : Hdr) (ty : Ty) (na : Bool) (nb : Bool) (d : Opd) (a : Opd) (b : Opd)
  | fminImm (h : Hdr) (ty : Ty) (d : Opd) (a : Opd) (imm : BitVec 32)
  | fmax (h : Hdr) (ty : Ty) (na : Bool) (nb : Bool) (d : Opd) (a : Opd) (b : Opd)
  | fmaxImm (h : Hdr) (ty : Ty) (d : Opd) (a : Opd) (imm : BitVec 32)
  | fcmp (h : Hdr) (ty : Ty) (cmp : FCmp) (na : Bool) (nb : Bool) (pd : Nat) (a : Opd) (b : Opd)
  | fcmpImm (h : Hdr) (ty : Ty) (cmp : FCmp) (pd : Nat) (a : Opd) (imm : BitVec 32)
  | fclass (h : Hdr) (ty : Ty) (d : Opd) (a : Opd)
  | fclassTest (h : Hdr) (ty : Ty) (pd : Nat) (a : Opd) (b : Opd)
  | frnd (h : Hdr) (ty : Ty) (rm : Rm) (d : Opd) (a : Opd)
  | ffrac (h : Hdr) (ty : Ty) (d : Opd) (a : Opd)
  | fscale (h : Hdr) (ty : Ty) (rm : Rm) (sat : Bool) (d : Opd) (a : Opd) (b : Opd)
  | cvt (h : Hdr) (ty : Ty) (sel : Nat) (sk : Nat) (rm : Rm) (sat : Bool) (d : Opd) (a : Opd)
  | cvtq (h : Hdr) (tk : QTarget) (sk : Ty) (rm : Rm) (sat : Bool) (d : Opd) (a : Opd) (b : Opd) (c : Opd)
  | dq (h : Hdr) (ty : Ty) (kind : QTarget) (rm : Rm) (sat : Bool) (d : Opd) (a : Opd) (b : Opd) (c : Opd)
  | rcp (h : Hdr) (ty : Ty) (na : Bool) (d : Opd) (a : Opd)
  | rsq (h : Hdr) (ty : Ty) (na : Bool) (d : Opd) (a : Opd)
  | sqrt (h : Hdr) (ty : Ty) (rm : Rm) (na : Bool) (d : Opd) (a : Opd)
  | exp2 (h : Hdr) (ty : Ty) (na : Bool) (d : Opd) (a : Opd)
  | log2 (h : Hdr) (ty : Ty) (na : Bool) (d : Opd) (a : Opd)
  | sinr (h : Hdr) (ty : Ty) (na : Bool) (d : Opd) (a : Opd)
  | cosr (h : Hdr) (ty : Ty) (na : Bool) (d : Opd) (a : Opd)
  | bra (h : Hdr) (u : Bool) (pr : Nat) (pnb : Bool) (disp : BitVec 24) (rcv : BitVec 16)
  | brx (h : Hdr) (u : Bool) (vv : Bool) (pr : Nat) (pnb : Bool) (a : Opd) (rcv : BitVec 16)
  | call (h : Hdr) (disp : BitVec 24)
  | callInd (h : Hdr) (a : Opd)
  | ret (h : Hdr) (pr : Nat) (pnb : Bool)
  | exit (h : Hdr)
  | breakp (h : Hdr) (pr : Nat) (pnb : Bool) (disp : BitVec 24)
  | movemRd (h : Hdr) (d : Opd)
  | movemWr (h : Hdr) (a : Opd)
  | bar (h : Hdr) (mode : BarMode) (sc : Scope) (id : Nat) (n : Nat)
  | barg (h : Hdr) (mode : BarMode) (sc : Scope) (id : Nat)
  | launch (h : Hdr) (pr : Nat) (a : Opd) (b : Opd)
  | cancel (h : Hdr) (lv : Level)
  | cancelId (h : Hdr) (lv : Level) (a : Opd)
  | yieldw (h : Hdr)
  | sleep (h : Hdr) (n : BitVec 24)
  | sleepWatch (h : Hdr) (a : Opd) (n : BitVec 24)
  | syscall (h : Hdr) (d : Opd) (a : Opd) (n : BitVec 16)
  | trap (h : Hdr) (n : Nat)
  | rett (h : Hdr)
  | idend (h : Hdr)
  | time (h : Hdr) (src : TimeSrc) (d : Opd)
  | movsr (h : Hdr) (idx : Nat) (d : Opd)
  | setsr (h : Hdr) (idx : Nat) (a : Opd)
  | ld (h : Hdr) (sp : Space) (sz : Size) (sc : Scope) (hint : Nat) (fe : Bool) (off : BitVec 20) (d : Opd) (a : Opd)
  | st (h : Hdr) (sp : Space) (sz : Size) (hint : Nat) (fe : Bool) (off : BitVec 20) (a : Opd) (b : Opd)
  | ldu (h : Hdr) (sp : Space) (sz : Size) (sc : Scope) (hint : Nat) (off : BitVec 20) (d : Opd) (a : Opd)
  | atom (h : Hdr) (op : Aop) (sp : Space) (sz : Size) (sc : Scope) (off : BitVec 20) (d : Opd) (a : Opd) (b : Opd)
  | cas (h : Hdr) (sp : Space) (sz : Size) (sc : Scope) (off : BitVec 20) (d : Opd) (a : Opd) (b : Opd)
  | red (h : Hdr) (op : Aop) (sp : Space) (sz : Size) (sc : Scope) (off : BitVec 20) (a : Opd) (b : Opd)
  | fence (h : Hdr) (mode : FenceMode) (sc : Scope)
  | pref (h : Hdr) (sp : Space) (hint : Nat) (l1 : Bool) (off : BitVec 20) (a : Opd)
  | cflush (h : Hdr) (sp : Space) (off : BitVec 20) (a : Opd)
  | cinv (h : Hdr) (sp : Space) (sc : Scope) (off : BitVec 20) (a : Opd)
  | space (h : Hdr) (d : Opd) (a : Opd)
  | cvta (h : Hdr) (from_ : Bool) (sp : Space) (d : Opd) (a : Opd)
  | gwin (h : Hdr) (d : Opd) (a : Opd) (b : Opd)
  | gwinSelf (h : Hdr) (d : Opd) (b : Opd)
  | spfe (h : Hdr) (mode : SpfeMode) (n : Nat) (d : Opd) (a : Opd)
  | hflush (h : Hdr) (sp : Space) (off : BitVec 20) (a : Opd)
  | ownreq (h : Hdr) (proc : Bool) (k : Nat) (a : Opd)
  | frz (h : Hdr) (sc : Scope) (k : Nat) (d : Opd) (a : Opd) (b : Opd)
  | thaw (h : Hdr) (k : Nat) (a : Opd)
  | frzq (h : Hdr) (d : Opd) (a : Opd)
  | rbegin (h : Hdr) (d : Opd) (a : Opd)
  | rcommit (h : Hdr)
  | strbIn (h : Hdr) (port : Nat) (packed : Bool) (hint : Nat) (e : Nat) (a : Opd) (b : Opd)
  | strbOut (h : Hdr) (port : Nat) (packed : Bool) (k : Nat) (hint : Nat) (a : Opd) (b : Opd)
  | strbQin (h : Hdr) (port : Nat) (w64 : Bool) (e : Nat) (pw : Nat) (pp : Nat)
  | strbQout (h : Hdr) (port : Nat) (w64 : Bool) (pw : Nat) (pp : Nat)
  | strstat (h : Hdr) (port : Nat) (d : Opd)
  | strflush (h : Hdr) (port : Nat)
  | strclose (h : Hdr) (port : Nat)
  | copy (h : Hdr) (scatter : Bool) (sg : Sg) (hint : Nat) (k : Nat) (d : Opd) (a : Opd) (b : Opd)
  | copyg (h : Hdr) (sg : Sg) (hint : Nat) (k : Nat) (d : Opd) (a : Opd) (b : Opd)
  | copygSlot (h : Hdr) (slot : Nat) (side : Bool) (sg : Sg) (hint : Nat) (k : Nat) (off : Nat) (a : Opd) (b : Opd)
  | copym (h : Hdr) (slot : Nat) (side : Bool) (fol : Bool) (sg : Sg) (hint : Nat) (k : Nat) (off : Nat) (a : Opd) (b : Opd)
  | waitk (h : Hdr) (mask : BitVec 16)
  | kadd (h : Hdr) (k : Nat) (a : Opd)
  | kaddImm (h : Hdr) (k : Nat) (imm : BitVec 20)
  | rowcpy (h : Hdr) (k : Nat) (d : Opd) (a : Opd) (c : Opd)
  | rowzero (h : Hdr) (k : Nat) (d : Opd) (c : Opd)
  | rank (h : Hdr) (kind : RankKind) (n : Nat) (k : Nat) (d : Opd) (a : Opd) (b : Opd)
  | route (h : Hdr) (pd : Nat) (d : Opd) (a : Opd) (b : Opd) (c : Opd)
  | tgen (h : Hdr) (t : Nat) (k : Nat) (d : Opd) (a : Opd) (b : Opd) (c : Opd)
  | claimo (h : Hdr) (o : Nat) (n1 : Nat)
  | relo (h : Hdr) (o : Nat) (n1 : Nat)
  | claima (h : Hdr) (t : Nat) (n1 : Nat)
  | rela (h : Hdr) (t : Nat) (n1 : Nat)
  | mma (h : Hdr) (z : Bool) (hk : Bool) (sg : Sg) (fs : Nat) (t : Nat) (oa : Nat) (ob : Nat) (k : Nat)
  | mmas (h : Hdr) (z : Bool) (hk : Bool) (sg : Sg) (fs : Nat) (t : Nat) (oa : Nat) (ob : Nat) (om : Nat) (k : Nat)
  | accz (h : Hdr) (t : Nat)
  | accld (h : Hdr) (t : Nat) (k : Nat) (d : Opd) (a : Opd)
  | accst (h : Hdr) (t : Nat) (k : Nat) (d : Opd) (a : Opd)
  | accred (h : Hdr) (ord : Bool) (i32 : Bool) (t : Nat) (k : Nat) (d : Opd) (a : Opd)
  | accrd (h : Hdr) (t : Nat) (n1 : Nat) (d : Opd) (a : Opd)
  | slotwr (h : Hdr) (side : Bool) (o : Nat) (d : Opd) (a : Opd)
  | slotrd (h : Hdr) (side : Bool) (o : Nat) (d : Opd) (a : Opd)
  | quadrantIssue (core : Nat) (quad : Nat)
  | fixedLatencyWriteback (core : Nat) (slot : Nat) (n : Nat)
  | variableResultDone (core : Nat) (slot : Nat) (e : Nat)
  | sleepWake (core : Nat) (slot : Nat)
  | yieldExpire (core : Nat) (slot : Nat)
  | warpSlotFree (core : Nat) (slot : Nat)
  | trapEntry (core : Nat) (slot : Nat) (path : Nat) (cause : Nat) (fault : DWord)
  | impreciseFaultTaken (core : Nat) (slot : Nat)
  | pendingFaultTimeout (core : Nat) (slot : Nat) (n : Nat)
  | remoteRollback (core : Nat) (slot : Nat)
  | pageWalk (part : Nat) (va : DWord)
  | engineWriteLands (id : Nat) (blk : Nat)
  | copyBlockFetch (id : Nat) (blk : Nat)
  | copyLateFault (id : Nat) (blk : Nat)
  | followOnHandoff (id : Nat)
  | rowBlockWritten (id : Nat) (blk : Nat)
  | rowSourceWriteback (id : Nat)
  | rankRowWritten (id : Nat) (row : Nat)
  | tgenDone (id : Nat)
  | anvilOpStart (core : Nat) (kind : AnvilKind)
  | anvilOpComplete (id : Nat)
  | accredContributionArrive (id : Nat) (piece : Nat)
  | accredRoomFreed (id : Nat) (piece : Nat)
  | tongsPrefetch (core : Nat) (slot : Nat) (port : Nat) (pos : Nat)
  | streamBeatWrite (id : Nat)
  | queueBeatSend (core : Nat) (slot : Nat) (port : Nat)
  | freezeInstall (e : Nat)
  | generationRetirement (home : Nat) (e : Nat) (gen : Nat) (sc : Scope)
  | retirementAck (e : Nat) (rank : Nat)
  | thawOverdue (e : Nat)
  | launchQueueFront (q : Nat)
  | launchDispatch
  | dispatchReservation (q : Nat)
  | workgroupEnd (wg : Nat)
  | launchComplete (l : Nat)
  | timeLimitExpiry (l : Nat)
  | preemptRequest (part : Nat) (value : DWord)
  | contextSave (wg : Nat)
  | contextRestore (wg : Nat)
  | syscallServiceRun (wg : Nat)
  | serviceDone (seq : Nat) (status : Word)
  | serviceTimeout (seq : Nat)
  | tlbInvalidate (asid : Nat) (va : DWord) (len : DWord)
  | cancelLaunchCmd (lid : DWord)
  | setJobWindow (lw : Nat)
  | hostCopy (toHost : Bool) (addr : Nat) (data : List Byte)
  | unknownCommand (code : Nat)
  | cxlMemAccess (addr : Nat) (data : Option (List Byte)) (len : Nat)
  | hostCwinAccess (off : Nat) (data : Option (List Byte)) (len : Nat) (keep : Bool)
  | ownershipTransfer (region : Nat) (merge : List (Nat × Option (List Byte)))
  | tenureExpiry (region : Nat)
  | backinvTimeout (region : Nat)
  | hostLinkDown (down : Bool)
  | podFlitReceive (peer : Nat) (flit : Flit)
  | podAckTimer (peer : Nat)
  | podNackTimer (peer : Nat)
  | podResendTimer (peer : Nat) (seq : Nat)
  | planeDark (planes : List Nat) (pair : Option Nat) (laser : Bool)
  | linkSummarySend
  | jobPacketReceive (pkt : JobPacket)
  | jobCompletionReceive (tag : Nat) (done : Completion)
  | jobRetransmitTimer (tag : Nat) (i : Nat) (dropped : Bool)
  | landingCounterDeadline (rank : Nat) (tag : Nat) (gen : Nat)
  | ethernetPortDown (port : Nat)
  | windowBoundary
  | ptpSync (offset : Int)
  | preciseTimeLoss
  | channelCounterSnapshot
  | unitFence (unit : FenceUnit)
  | thermalThrottle (sensed : Sensors)
  | thermalTrip (hearth : Nat)
  | supplyFault (cores : List Nat)
  | watchdogExpiry (part : Nat)
  | coldReset (boot : BootOutcome)
  | spdmRequest (req : SpdmReq)
  | warmReset
  | partitionReset (part : Nat)
  | partitionEnable (part : Nat) (value : DWord)
  | devstatErrClear
  | rtinvWrite (value : DWord)
  | planeenWrite (value : DWord) (clean : BitVec 16)
  | quiesceWrite (on : Bool)
  | qdoorPush (q : Nat) (addr : DWord)
  | queueClose (q : Nat)
  | intmaskWrite (part : Nat) (value : DWord)
  | intstatClear (part : Nat) (value : DWord)
  | logringEnable (part : Nat) (value : DWord)
  | registerWrite (off : Nat) (value : DWord)
  | jobResponseReceive (resp : RemResp)
  | podFlitSend (peer : Nat)
  | warmResetRetirementTimeout
  deriving DecidableEq, Repr

end Sys2Proof
end

