-- ==== Sys2Proof/Decode.lean ====
section
/-! DEFINITION. The encodings of R79 and R86 to R98: decoding a 96-bit word to an instruction or to the cause of the first
failing check of R98 (0x000, 0x001, 0x002, 0x006, 0x020, in that order), and the encoder. -/
namespace Sys2Proof

/-- The values of consecutive fields of the given lengths, from bit 0 up. -/
def splitBits : List Nat → Nat → List Nat
  | [], _ => []
  | l :: ls, w => w % 2 ^ l :: splitBits ls (w / 2 ^ l)

/-- The number whose consecutive fields, from bit 0 up, hold these values in these lengths. -/
def joinBits : List (Nat × Nat) → Nat
  | [] => 0
  | (v, l) :: fs => v + 2 ^ l * joinBits fs

/-- The operand code of R48. -/
def Opd.code : Opd → Nat
  | .v n => n
  | .vz => 240
  | .vlane => 241
  | .q p => 248 + p
  | .s n => 256 + n

/-- The operand of a code of R48; `none` for a reserved code (cause 0x020). -/
def Opd.ofCode (c : Nat) : Option Opd :=
  if c < 240 then some (.v c)
  else if c = 240 then some .vz
  else if c = 241 then some .vlane
  else if c < 248 then none
  else if c < 256 then some (.q (c - 248))
  else if c < 384 then some (.s (c - 256))
  else none

/-- The operand's number lies in its file. -/
def Opd.wf : Opd → Bool
  | .v n => decide (n < 240)
  | .q p => decide (p < 8)
  | .s n => decide (n < 128)
  | _ => true

/-- The operand is not a port code. -/
def Opd.notQ : Opd → Bool
  | .q _ => false
  | _ => true

/-- A v or s code. -/
def Opd.isReg : Opd → Bool
  | .v _ | .s _ => true
  | _ => false

/-- A v code or vz: the per-lane target pairs of R147. -/
def Opd.isTarget : Opd → Bool
  | .v _ | .vz => true
  | _ => false

/-- Round to nearest even, the code 0. -/
def Rm.isZero (r : Rm) : Bool := decide (r.code = 0)

/-- The sum, whose floating nodes RM rounds (R121). -/
def RedOp.isSum : RedOp → Bool
  | .add => true
  | _ => false

/-- The operand's code is 0. -/
def Opd.isZeroCode (o : Opd) : Bool := decide (o.code = 0)

/-- TY 0–7 (R104). -/
def Ty.isInt (t : Ty) : Bool := decide (t.code < 8)
/-- TY 0–3. -/
def Ty.isWord (t : Ty) : Bool := decide (t.code < 4)
/-- TY 0 or 2. -/
def Ty.isB : Ty → Bool
  | .b32 | .b64 => true
  | _ => false
/-- TY 0 or 1. -/
def Ty.is32 (t : Ty) : Bool := decide (t.code < 2)
/-- TY 1, 3, 5 or 7. -/
def Ty.isSignedInt (t : Ty) : Bool := decide (t.code < 8 ∧ t.code % 2 = 1)
/-- TY 8–13. -/
def Ty.isFloat (t : Ty) : Bool := decide (8 ≤ t.code ∧ t.code < 14)
/-- TY 8–11. -/
def Ty.isScalarFloat (t : Ty) : Bool := decide (8 ≤ t.code ∧ t.code < 12)
/-- TY 0–3 or 8–13 (R119). -/
def Ty.isSwap (t : Ty) : Bool := t.isWord || t.isFloat
/-- TY 0–3, 8 or 9 (R121). -/
def Ty.isRed (t : Ty) : Bool := t.isWord || decide (t.code = 8 ∨ t.code = 9)

/-- R88: for a 16- or 8-bit type, the bits of IMM above the type's width are the sign extension (i types) or zero. -/
def immFits (t : Ty) (imm : BitVec 32) : Bool :=
  match t with
  | .b16 | .f16 | .bf16 => decide (imm = (imm.setWidth 16).setWidth 32)
  | .i16 => decide (imm = (imm.setWidth 16).signExtend 32)
  | .b8 => decide (imm = (imm.setWidth 8).setWidth 32)
  | .i8 => decide (imm = (imm.setWidth 8).signExtend 32)
  | _ => true

/-- A bitwise operation of R121. -/
def RedOp.isBitwise : RedOp → Bool
  | .and | .or | .xor => true
  | _ => false

/-- A grouped target or kind (R137, R138). -/
def QTarget.grouped : QTarget → Bool
  | .q4 | .q8 => true
  | _ => false

/-- SC 0–2. -/
def Scope.upToDev (s : Scope) : Bool := decide (s.code ≤ 2)
/-- SC 1 or 2. -/
def Scope.gangOrDev (s : Scope) : Bool := decide (s.code = 1 ∨ s.code = 2)
/-- SC 0 or 2. -/
def Scope.wgOrDev (s : Scope) : Bool := decide (s.code = 0 ∨ s.code = 2)
/-- SC 2–4 (R186). -/
def Scope.frzOk (s : Scope) : Bool := decide (2 ≤ s.code ∧ s.code ≤ 4)
/-- LV 2–5, the levels a named cancel takes (R152). -/
def Level.hasId (l : Level) : Bool := decide (2 ≤ l.code)
/-- FEO = 1 is accepted with SP 0 or SP 2 (R91). -/
def Space.feOk : Space → Bool
  | .gen | .spad => true
  | _ => false
/-- SP 0 or 2–5 (R172, R177). -/
def Space.atomOk : Space → Bool
  | .priv => false
  | _ => true
/-- SP 0 or 4. -/
def Space.genOrGlob : Space → Bool
  | .gen | .glob => true
  | _ => false
/-- SP 0, 4 or 5 (R172). -/
def Space.hflushOk : Space → Bool
  | .gen | .glob | .cwin => true
  | _ => false
/-- Space codes 1–5 (R181). -/
def Space.isNamed : Space → Bool
  | .gen => false
  | _ => true
/-- SZ 4 or 5. -/
def Size.isWord : Size → Bool
  | .w32 | .w64 => true
  | _ => false
/-- Every operation but .exch (R175). -/
def Aop.redOk : Aop → Bool
  | .exch => false
  | _ => true
/-- The .test mode of SPFE. -/
def SpfeMode.isTest : SpfeMode → Bool
  | .test => true
  | _ => false

/-- The destination kind of CVT: the kind in TY for selector 0, else 16–20 (R134). -/
def cvtKind (ty : Ty) (sel : Nat) : Nat := if sel = 0 then ty.code else 15 + sel

/-- Elements of a packed kind of R133 that a pack or unpack moves; 0 for a scalar kind. -/
def kindElems (k : Nat) : Nat :=
  if k = 12 ∨ k = 13 then 2 else if k = 14 ∨ k = 15 then 4 else if k = 20 then 8 else 0

/-- A scalar kind of R135. -/
def kindScalar (k : Nat) : Bool := decide (k ≤ 11 ∨ (16 ≤ k ∧ k ≤ 19))

/-- R134, R135: the selector, TY, source kind and pair of a CVT are accepted, and a multi-register operand is a v code. -/
def cvtOk (ty : Ty) (sel sk : Nat) (d a : Opd) : Bool :=
  let dk := cvtKind ty sel
  let isV : Opd → Bool := fun o => match o with
    | .v _ => true
    | _ => false
  decide (sel ≤ 5) && (decide (sel = 0) || decide (ty.code = 0)) && decide (sk ≤ 20) &&
  ((kindScalar dk && kindScalar sk) ||
   (decide (sk = 8) && decide (kindElems dk ≠ 0) && isV a) ||
   (decide (dk = 8) && decide (kindElems sk ≠ 0) && isV d) ||
   (decide (dk = 12 ∨ dk = 13) && decide (sk = 12 ∨ sk = 13)) ||
   (decide (dk = 14 ∨ dk = 15) && decide (sk = 14 ∨ sk = 15)))

/-- The header fields of an instruction word (R79). -/
def decodeHdr (w : Nat) : Hdr :=
  match splitBits [10, 4, 5, 1, 1, 3, 7] w with
  | [_, st, pg, pn, yd, sb, wm] =>
    { pg := pg, pn := pn == 1, st := st, sb := sb, wm := BitVec.ofNat 7 wm, yd := yd == 1 }
  | _ => { pg := 0, pn := false, st := 0, sb := 0, wm := 0, yd := false }

/-- The fields of the header below bit 31, for an opcode. -/
def hdrFields (op : Nat) (h : Hdr) : List (Nat × Nat) :=
  [(op, 10), (h.st, 4), (h.pg, 5), (h.pn.toNat, 1), (h.yd.toNat, 1), (h.sb, 3), (h.wm.toNat, 7)]

/-- The header's fields fit their widths. -/
def Hdr.wf (h : Hdr) : Bool := decide (h.st < 16 ∧ h.pg < 32 ∧ h.sb < 8)

/-- Field lengths of NOP (format R) from bit 31 up. -/
def layNop : List Nat := [65]

/-- NOP: the checks of R98 and the instruction. -/
def decNop (h : Hdr) (w : Nat) : Except Nat Instr :=
  match splitBits layNop w with
  | [z0] =>
    if z0 ≠ 0 then .error 0x001 else
    if h.sb ≠ 0 then .error 0x006 else
    .ok (.nop h)
  | _ => .error 0x000

/-- The word of NOP. -/
def encNop (h : Hdr) : Nat :=
  joinBits (hdrFields 0x000 h ++
    [(0, 65)])

/-- Field lengths of MOV (format R) from bit 31 up. -/
def layMov : List Nat := [1, 9, 9, 18, 4, 2, 1, 1, 1, 1, 18]

/-- MOV: the checks of R98 and the instruction. -/
def decMov (h : Hdr) (w : Nat) : Except Nat Instr :=
  match splitBits layMov w with
  | [z0, xd, xa, z3, xty, z5, z6, z7, z8, z9, z10] =>
    if z0 + z3 + z5 + z10 ≠ 0 then .error 0x001 else
    if z6 ≠ 0 ∨ z7 ≠ 0 ∨ z8 ≠ 0 ∨ z9 ≠ 0 then .error 0x002 else
    match Ty.ofCode xty with
    | some ty =>
      if !(ty.isInt) then .error 0x002 else
      if h.sb ≠ 0 then .error 0x006 else
      match Opd.ofCode xd, Opd.ofCode xa with
      | some d, some a => .ok (.mov h ty d a)
      | _, _ => .error 0x020
    | _ => .error 0x002
  | _ => .error 0x000

/-- The word of MOV. -/
def encMov (h : Hdr) (ty : Ty) (d : Opd) (a : Opd) : Nat :=
  joinBits (hdrFields 0x001 h ++
    [(0, 1), (d.code, 9), (a.code, 9), (0, 18), (ty.code, 4), (0, 2), (0, 1), (0, 1), (0, 1), (0, 1), (0, 18)])

/-- Field lengths of MOV_IMM (format I) from bit 31 up. -/
def layMovImm : List Nat := [1, 9, 9, 4, 10, 32]

/-- MOV_IMM: the checks of R98 and the instruction. -/
def decMovImm (h : Hdr) (w : Nat) : Except Nat Instr :=
  match splitBits layMovImm w with
  | [z0, xd, z2, xty, z4, ximm] =>
    if z0 + z2 + z4 ≠ 0 then .error 0x001 else
    let imm := BitVec.ofNat 32 ximm
    match Ty.ofCode xty with
    | some ty =>
      if !(ty.isInt && immFits ty imm) then .error 0x002 else
      if h.sb ≠ 0 then .error 0x006 else
      match Opd.ofCode xd with
      | some d => .ok (.movImm h ty d imm)
      | _ => .error 0x020
    | _ => .error 0x002
  | _ => .error 0x000

/-- The word of MOV_IMM. -/
def encMovImm (h : Hdr) (ty : Ty) (d : Opd) (imm : BitVec 32) : Nat :=
  joinBits (hdrFields 0x041 h ++
    [(0, 1), (d.code, 9), (0, 9), (ty.code, 4), (0, 10), (imm.toNat, 32)])

/-- Field lengths of IADD (format R) from bit 31 up. -/
def layIadd : List Nat := [1, 9, 9, 9, 9, 4, 2, 1, 1, 1, 1, 18]

/-- IADD: the checks of R98 and the instruction. -/
def decIadd (h : Hdr) (w : Nat) : Except Nat Instr :=
  match splitBits layIadd w with
  | [z0, xd, xa, xb, z4, xty, z6, xsat, xna, xnb, z10, z11] =>
    if z0 + z4 + z6 + z11 ≠ 0 then .error 0x001 else
    let sat := xsat == 1
    let na := xna == 1
    let nb := xnb == 1
    if z10 ≠ 0 then .error 0x002 else
    match Ty.ofCode xty with
    | some ty =>
      if !(ty.isInt) then .error 0x002 else
      if h.sb ≠ 0 then .error 0x006 else
      match Opd.ofCode xd, Opd.ofCode xa, Opd.ofCode xb with
      | some d, some a, some b => .ok (.iadd h ty sat na nb d a b)
      | _, _, _ => .error 0x020
    | _ => .error 0x002
  | _ => .error 0x000

/-- The word of IADD. -/
def encIadd (h : Hdr) (ty : Ty) (sat : Bool) (na : Bool) (nb : Bool) (d : Opd) (a : Opd) (b : Opd) : Nat :=
  joinBits (hdrFields 0x002 h ++
    [(0, 1), (d.code, 9), (a.code, 9), (b.code, 9), (0, 9), (ty.code, 4), (0, 2), (sat.toNat, 1), (na.toNat, 1), (nb.toNat, 1), (0, 1), (0, 18)])

/-- Field lengths of IADD_IMM (format I) from bit 31 up. -/
def layIaddImm : List Nat := [1, 9, 9, 4, 7, 1, 2, 32]

/-- IADD_IMM: the checks of R98 and the instruction. -/
def decIaddImm (h : Hdr) (w : Nat) : Except Nat Instr :=
  match splitBits layIaddImm w with
  | [z0, xd, xa, xty, z4, xsat, z6, ximm] =>
    if z0 + z4 + z6 ≠ 0 then .error 0x001 else
    let sat := xsat == 1
    let imm := BitVec.ofNat 32 ximm
    match Ty.ofCode xty with
    | some ty =>
      if !(ty.isInt && immFits ty imm) then .error 0x002 else
      if h.sb ≠ 0 then .error 0x006 else
      match Opd.ofCode xd, Opd.ofCode xa with
      | some d, some a => .ok (.iaddImm h ty sat d a imm)
      | _, _ => .error 0x020
    | _ => .error 0x002
  | _ => .error 0x000

/-- The word of IADD_IMM. -/
def encIaddImm (h : Hdr) (ty : Ty) (sat : Bool) (d : Opd) (a : Opd) (imm : BitVec 32) : Nat :=
  joinBits (hdrFields 0x042 h ++
    [(0, 1), (d.code, 9), (a.code, 9), (ty.code, 4), (0, 7), (sat.toNat, 1), (0, 2), (imm.toNat, 32)])

/-- Field lengths of ISUB (format R) from bit 31 up. -/
def layIsub : List Nat := [1, 9, 9, 9, 9, 4, 2, 1, 1, 1, 1, 18]

/-- ISUB: the checks of R98 and the instruction. -/
def decIsub (h : Hdr) (w : Nat) : Except Nat Instr :=
  match splitBits layIsub w with
  | [z0, xd, xa, xb, z4, xty, z6, xsat, z8, z9, z10, z11] =>
    if z0 + z4 + z6 + z11 ≠ 0 then .error 0x001 else
    let sat := xsat == 1
    if z8 ≠ 0 ∨ z9 ≠ 0 ∨ z10 ≠ 0 then .error 0x002 else
    match Ty.ofCode xty with
    | some ty =>
      if !(ty.isInt) then .error 0x002 else
      if h.sb ≠ 0 then .error 0x006 else
      match Opd.ofCode xd, Opd.ofCode xa, Opd.ofCode xb with
      | some d, some a, some b => .ok (.isub h ty sat d a b)
      | _, _, _ => .error 0x020
    | _ => .error 0x002
  | _ => .error 0x000

/-- The word of ISUB. -/
def encIsub (h : Hdr) (ty : Ty) (sat : Bool) (d : Opd) (a : Opd) (b : Opd) : Nat :=
  joinBits (hdrFields 0x003 h ++
    [(0, 1), (d.code, 9), (a.code, 9), (b.code, 9), (0, 9), (ty.code, 4), (0, 2), (sat.toNat, 1), (0, 1), (0, 1), (0, 1), (0, 18)])

/-- Field lengths of ISUB_IMM (format I) from bit 31 up. -/
def layIsubImm : List Nat := [1, 9, 9, 4, 7, 1, 2, 32]

/-- ISUB_IMM: the checks of R98 and the instruction. -/
def decIsubImm (h : Hdr) (w : Nat) : Except Nat Instr :=
  match splitBits layIsubImm w with
  | [z0, xd, xa, xty, z4, xsat, z6, ximm] =>
    if z0 + z4 + z6 ≠ 0 then .error 0x001 else
    let sat := xsat == 1
    let imm := BitVec.ofNat 32 ximm
    match Ty.ofCode xty with
    | some ty =>
      if !(ty.isInt && immFits ty imm) then .error 0x002 else
      if h.sb ≠ 0 then .error 0x006 else
      match Opd.ofCode xd, Opd.ofCode xa with
      | some d, some a => .ok (.isubImm h ty sat d a imm)
      | _, _ => .error 0x020
    | _ => .error 0x002
  | _ => .error 0x000

/-- The word of ISUB_IMM. -/
def encIsubImm (h : Hdr) (ty : Ty) (sat : Bool) (d : Opd) (a : Opd) (imm : BitVec 32) : Nat :=
  joinBits (hdrFields 0x043 h ++
    [(0, 1), (d.code, 9), (a.code, 9), (ty.code, 4), (0, 7), (sat.toNat, 1), (0, 2), (imm.toNat, 32)])

/-- Field lengths of IADDC (format R) from bit 31 up. -/
def layIaddc : List Nat := [1, 9, 9, 9, 9, 4, 2, 1, 1, 1, 1, 5, 3, 5, 5]

/-- IADDC: the checks of R98 and the instruction. -/
def decIaddc (h : Hdr) (w : Nat) : Except Nat Instr :=
  match splitBits layIaddc w with
  | [z0, xd, xa, xb, z4, xty, z6, z7, z8, z9, z10, xci, z12, xpd, z14] =>
    if z0 + z4 + z6 + z12 + z14 ≠ 0 then .error 0x001 else
    let ci := xci
    let pd := xpd
    if z7 ≠ 0 ∨ z8 ≠ 0 ∨ z9 ≠ 0 ∨ z10 ≠ 0 then .error 0x002 else
    match Ty.ofCode xty with
    | some ty =>
      if !(ty.isB) then .error 0x002 else
      if h.sb ≠ 0 then .error 0x006 else
      match Opd.ofCode xd, Opd.ofCode xa, Opd.ofCode xb with
      | some d, some a, some b => .ok (.iaddc h ty ci pd d a b)
      | _, _, _ => .error 0x020
    | _ => .error 0x002
  | _ => .error 0x000

/-- The word of IADDC. -/
def encIaddc (h : Hdr) (ty : Ty) (ci : Nat) (pd : Nat) (d : Opd) (a : Opd) (b : Opd) : Nat :=
  joinBits (hdrFields 0x004 h ++
    [(0, 1), (d.code, 9), (a.code, 9), (b.code, 9), (0, 9), (ty.code, 4), (0, 2), (0, 1), (0, 1), (0, 1), (0, 1), (ci, 5), (0, 3), (pd, 5), (0, 5)])

/-- Field lengths of IADDC_IMM (format I) from bit 31 up. -/
def layIaddcImm : List Nat := [1, 9, 9, 4, 5, 5, 32]

/-- IADDC_IMM: the checks of R98 and the instruction. -/
def decIaddcImm (h : Hdr) (w : Nat) : Except Nat Instr :=
  match splitBits layIaddcImm w with
  | [z0, xd, xa, xty, xpd, xci, ximm] =>
    if z0 ≠ 0 then .error 0x001 else
    let ci := xci
    let pd := xpd
    let imm := BitVec.ofNat 32 ximm
    match Ty.ofCode xty with
    | some ty =>
      if !(ty.isB) then .error 0x002 else
      if h.sb ≠ 0 then .error 0x006 else
      match Opd.ofCode xd, Opd.ofCode xa with
      | some d, some a => .ok (.iaddcImm h ty ci pd d a imm)
      | _, _ => .error 0x020
    | _ => .error 0x002
  | _ => .error 0x000

/-- The word of IADDC_IMM. -/
def encIaddcImm (h : Hdr) (ty : Ty) (ci : Nat) (pd : Nat) (d : Opd) (a : Opd) (imm : BitVec 32) : Nat :=
  joinBits (hdrFields 0x044 h ++
    [(0, 1), (d.code, 9), (a.code, 9), (ty.code, 4), (pd, 5), (ci, 5), (imm.toNat, 32)])

/-- Field lengths of IMUL (format R) from bit 31 up. -/
def layImul : List Nat := [1, 9, 9, 9, 9, 4, 2, 1, 1, 1, 1, 18]

/-- IMUL: the checks of R98 and the instruction. -/
def decImul (h : Hdr) (w : Nat) : Except Nat Instr :=
  match splitBits layImul w with
  | [z0, xd, xa, xb, z4, xty, z6, xsat, z8, z9, z10, z11] =>
    if z0 + z4 + z6 + z11 ≠ 0 then .error 0x001 else
    let sat := xsat == 1
    if z8 ≠ 0 ∨ z9 ≠ 0 ∨ z10 ≠ 0 then .error 0x002 else
    match Ty.ofCode xty with
    | some ty =>
      if !(ty.isInt) then .error 0x002 else
      if h.sb ≠ 0 then .error 0x006 else
      match Opd.ofCode xd, Opd.ofCode xa, Opd.ofCode xb with
      | some d, some a, some b => .ok (.imul h ty sat d a b)
      | _, _, _ => .error 0x020
    | _ => .error 0x002
  | _ => .error 0x000

/-- The word of IMUL. -/
def encImul (h : Hdr) (ty : Ty) (sat : Bool) (d : Opd) (a : Opd) (b : Opd) : Nat :=
  joinBits (hdrFields 0x005 h ++
    [(0, 1), (d.code, 9), (a.code, 9), (b.code, 9), (0, 9), (ty.code, 4), (0, 2), (sat.toNat, 1), (0, 1), (0, 1), (0, 1), (0, 18)])

/-- Field lengths of IMUL_IMM (format I) from bit 31 up. -/
def layImulImm : List Nat := [1, 9, 9, 4, 7, 1, 2, 32]

/-- IMUL_IMM: the checks of R98 and the instruction. -/
def decImulImm (h : Hdr) (w : Nat) : Except Nat Instr :=
  match splitBits layImulImm w with
  | [z0, xd, xa, xty, z4, xsat, z6, ximm] =>
    if z0 + z4 + z6 ≠ 0 then .error 0x001 else
    let sat := xsat == 1
    let imm := BitVec.ofNat 32 ximm
    match Ty.ofCode xty with
    | some ty =>
      if !(ty.isInt && immFits ty imm) then .error 0x002 else
      if h.sb ≠ 0 then .error 0x006 else
      match Opd.ofCode xd, Opd.ofCode xa with
      | some d, some a => .ok (.imulImm h ty sat d a imm)
      | _, _ => .error 0x020
    | _ => .error 0x002
  | _ => .error 0x000

/-- The word of IMUL_IMM. -/
def encImulImm (h : Hdr) (ty : Ty) (sat : Bool) (d : Opd) (a : Opd) (imm : BitVec 32) : Nat :=
  joinBits (hdrFields 0x045 h ++
    [(0, 1), (d.code, 9), (a.code, 9), (ty.code, 4), (0, 7), (sat.toNat, 1), (0, 2), (imm.toNat, 32)])

/-- Field lengths of IMULH (format R) from bit 31 up. -/
def layImulh : List Nat := [1, 9, 9, 9, 9, 4, 2, 1, 1, 1, 1, 18]

/-- IMULH: the checks of R98 and the instruction. -/
def decImulh (h : Hdr) (w : Nat) : Except Nat Instr :=
  match splitBits layImulh w with
  | [z0, xd, xa, xb, z4, xty, z6, z7, z8, z9, z10, z11] =>
    if z0 + z4 + z6 + z11 ≠ 0 then .error 0x001 else
    if z7 ≠ 0 ∨ z8 ≠ 0 ∨ z9 ≠ 0 ∨ z10 ≠ 0 then .error 0x002 else
    match Ty.ofCode xty with
    | some ty =>
      if !(ty.isWord) then .error 0x002 else
      if h.sb ≠ 0 then .error 0x006 else
      match Opd.ofCode xd, Opd.ofCode xa, Opd.ofCode xb with
      | some d, some a, some b => .ok (.imulh h ty d a b)
      | _, _, _ => .error 0x020
    | _ => .error 0x002
  | _ => .error 0x000

/-- The word of IMULH. -/
def encImulh (h : Hdr) (ty : Ty) (d : Opd) (a : Opd) (b : Opd) : Nat :=
  joinBits (hdrFields 0x006 h ++
    [(0, 1), (d.code, 9), (a.code, 9), (b.code, 9), (0, 9), (ty.code, 4), (0, 2), (0, 1), (0, 1), (0, 1), (0, 1), (0, 18)])

/-- Field lengths of IMULH_IMM (format I) from bit 31 up. -/
def layImulhImm : List Nat := [1, 9, 9, 4, 10, 32]

/-- IMULH_IMM: the checks of R98 and the instruction. -/
def decImulhImm (h : Hdr) (w : Nat) : Except Nat Instr :=
  match splitBits layImulhImm w with
  | [z0, xd, xa, xty, z4, ximm] =>
    if z0 + z4 ≠ 0 then .error 0x001 else
    let imm := BitVec.ofNat 32 ximm
    match Ty.ofCode xty with
    | some ty =>
      if !(ty.isWord) then .error 0x002 else
      if h.sb ≠ 0 then .error 0x006 else
      match Opd.ofCode xd, Opd.ofCode xa with
      | some d, some a => .ok (.imulhImm h ty d a imm)
      | _, _ => .error 0x020
    | _ => .error 0x002
  | _ => .error 0x000

/-- The word of IMULH_IMM. -/
def encImulhImm (h : Hdr) (ty : Ty) (d : Opd) (a : Opd) (imm : BitVec 32) : Nat :=
  joinBits (hdrFields 0x046 h ++
    [(0, 1), (d.code, 9), (a.code, 9), (ty.code, 4), (0, 10), (imm.toNat, 32)])

/-- Field lengths of IMAD (format R) from bit 31 up. -/
def layImad : List Nat := [1, 9, 9, 9, 9, 4, 2, 1, 1, 1, 1, 18]

/-- IMAD: the checks of R98 and the instruction. -/
def decImad (h : Hdr) (w : Nat) : Except Nat Instr :=
  match splitBits layImad w with
  | [z0, xd, xa, xb, xc, xty, z6, xsat, z8, z9, xnc, z11] =>
    if z0 + z6 + z11 ≠ 0 then .error 0x001 else
    let sat := xsat == 1
    let nc := xnc == 1
    if z8 ≠ 0 ∨ z9 ≠ 0 then .error 0x002 else
    match Ty.ofCode xty with
    | some ty =>
      if !(ty.isInt) then .error 0x002 else
      if h.sb ≠ 0 then .error 0x006 else
      match Opd.ofCode xd, Opd.ofCode xa, Opd.ofCode xb, Opd.ofCode xc with
      | some d, some a, some b, some c => .ok (.imad h ty sat nc d a b c)
      | _, _, _, _ => .error 0x020
    | _ => .error 0x002
  | _ => .error 0x000

/-- The word of IMAD. -/
def encImad (h : Hdr) (ty : Ty) (sat : Bool) (nc : Bool) (d : Opd) (a : Opd) (b : Opd) (c : Opd) : Nat :=
  joinBits (hdrFields 0x007 h ++
    [(0, 1), (d.code, 9), (a.code, 9), (b.code, 9), (c.code, 9), (ty.code, 4), (0, 2), (sat.toNat, 1), (0, 1), (0, 1), (nc.toNat, 1), (0, 18)])

/-- Field lengths of IMAD_IMM (format I) from bit 31 up. -/
def layImadImm : List Nat := [1, 9, 9, 4, 7, 1, 2, 32]

/-- IMAD_IMM: the checks of R98 and the instruction. -/
def decImadImm (h : Hdr) (w : Nat) : Except Nat Instr :=
  match splitBits layImadImm w with
  | [z0, xd, xa, xty, z4, xsat, z6, ximm] =>
    if z0 + z4 + z6 ≠ 0 then .error 0x001 else
    let sat := xsat == 1
    let imm := BitVec.ofNat 32 ximm
    match Ty.ofCode xty with
    | some ty =>
      if !(ty.isInt && immFits ty imm) then .error 0x002 else
      if h.sb ≠ 0 then .error 0x006 else
      match Opd.ofCode xd, Opd.ofCode xa with
      | some d, some a => .ok (.imadImm h ty sat d a imm)
      | _, _ => .error 0x020
    | _ => .error 0x002
  | _ => .error 0x000

/-- The word of IMAD_IMM. -/
def encImadImm (h : Hdr) (ty : Ty) (sat : Bool) (d : Opd) (a : Opd) (imm : BitVec 32) : Nat :=
  joinBits (hdrFields 0x047 h ++
    [(0, 1), (d.code, 9), (a.code, 9), (ty.code, 4), (0, 7), (sat.toNat, 1), (0, 2), (imm.toNat, 32)])

/-- Field lengths of IMADW (format R) from bit 31 up. -/
def layImadw : List Nat := [1, 9, 9, 9, 9, 4, 2, 1, 1, 1, 1, 18]

/-- IMADW: the checks of R98 and the instruction. -/
def decImadw (h : Hdr) (w : Nat) : Except Nat Instr :=
  match splitBits layImadw w with
  | [z0, xd, xa, xb, xc, xty, z6, xsat, z8, z9, z10, z11] =>
    if z0 + z6 + z11 ≠ 0 then .error 0x001 else
    let sat := xsat == 1
    if z8 ≠ 0 ∨ z9 ≠ 0 ∨ z10 ≠ 0 then .error 0x002 else
    match Ty.ofCode xty with
    | some ty =>
      if !(ty.is32) then .error 0x002 else
      if h.sb ≠ 0 then .error 0x006 else
      match Opd.ofCode xd, Opd.ofCode xa, Opd.ofCode xb, Opd.ofCode xc with
      | some d, some a, some b, some c => .ok (.imadw h ty sat d a b c)
      | _, _, _, _ => .error 0x020
    | _ => .error 0x002
  | _ => .error 0x000

/-- The word of IMADW. -/
def encImadw (h : Hdr) (ty : Ty) (sat : Bool) (d : Opd) (a : Opd) (b : Opd) (c : Opd) : Nat :=
  joinBits (hdrFields 0x008 h ++
    [(0, 1), (d.code, 9), (a.code, 9), (b.code, 9), (c.code, 9), (ty.code, 4), (0, 2), (sat.toNat, 1), (0, 1), (0, 1), (0, 1), (0, 18)])

/-- Field lengths of IMADW_IMM (format I) from bit 31 up. -/
def layImadwImm : List Nat := [1, 9, 9, 4, 7, 1, 2, 32]

/-- IMADW_IMM: the checks of R98 and the instruction. -/
def decImadwImm (h : Hdr) (w : Nat) : Except Nat Instr :=
  match splitBits layImadwImm w with
  | [z0, xd, xa, xty, z4, xsat, z6, ximm] =>
    if z0 + z4 + z6 ≠ 0 then .error 0x001 else
    let sat := xsat == 1
    let imm := BitVec.ofNat 32 ximm
    match Ty.ofCode xty with
    | some ty =>
      if !(ty.is32) then .error 0x002 else
      if h.sb ≠ 0 then .error 0x006 else
      match Opd.ofCode xd, Opd.ofCode xa with
      | some d, some a => .ok (.imadwImm h ty sat d a imm)
      | _, _ => .error 0x020
    | _ => .error 0x002
  | _ => .error 0x000

/-- The word of IMADW_IMM. -/
def encImadwImm (h : Hdr) (ty : Ty) (sat : Bool) (d : Opd) (a : Opd) (imm : BitVec 32) : Nat :=
  joinBits (hdrFields 0x048 h ++
    [(0, 1), (d.code, 9), (a.code, 9), (ty.code, 4), (0, 7), (sat.toNat, 1), (0, 2), (imm.toNat, 32)])

/-- Field lengths of IMIN (format R) from bit 31 up. -/
def layImin : List Nat := [1, 9, 9, 9, 9, 4, 2, 1, 1, 1, 1, 18]

/-- IMIN: the checks of R98 and the instruction. -/
def decImin (h : Hdr) (w : Nat) : Except Nat Instr :=
  match splitBits layImin w with
  | [z0, xd, xa, xb, z4, xty, z6, z7, z8, z9, z10, z11] =>
    if z0 + z4 + z6 + z11 ≠ 0 then .error 0x001 else
    if z7 ≠ 0 ∨ z8 ≠ 0 ∨ z9 ≠ 0 ∨ z10 ≠ 0 then .error 0x002 else
    match Ty.ofCode xty with
    | some ty =>
      if !(ty.isInt) then .error 0x002 else
      if h.sb ≠ 0 then .error 0x006 else
      match Opd.ofCode xd, Opd.ofCode xa, Opd.ofCode xb with
      | some d, some a, some b => .ok (.imin h ty d a b)
      | _, _, _ => .error 0x020
    | _ => .error 0x002
  | _ => .error 0x000

/-- The word of IMIN. -/
def encImin (h : Hdr) (ty : Ty) (d : Opd) (a : Opd) (b : Opd) : Nat :=
  joinBits (hdrFields 0x009 h ++
    [(0, 1), (d.code, 9), (a.code, 9), (b.code, 9), (0, 9), (ty.code, 4), (0, 2), (0, 1), (0, 1), (0, 1), (0, 1), (0, 18)])

/-- Field lengths of IMIN_IMM (format I) from bit 31 up. -/
def layIminImm : List Nat := [1, 9, 9, 4, 10, 32]

/-- IMIN_IMM: the checks of R98 and the instruction. -/
def decIminImm (h : Hdr) (w : Nat) : Except Nat Instr :=
  match splitBits layIminImm w with
  | [z0, xd, xa, xty, z4, ximm] =>
    if z0 + z4 ≠ 0 then .error 0x001 else
    let imm := BitVec.ofNat 32 ximm
    match Ty.ofCode xty with
    | some ty =>
      if !(ty.isInt && immFits ty imm) then .error 0x002 else
      if h.sb ≠ 0 then .error 0x006 else
      match Opd.ofCode xd, Opd.ofCode xa with
      | some d, some a => .ok (.iminImm h ty d a imm)
      | _, _ => .error 0x020
    | _ => .error 0x002
  | _ => .error 0x000

/-- The word of IMIN_IMM. -/
def encIminImm (h : Hdr) (ty : Ty) (d : Opd) (a : Opd) (imm : BitVec 32) : Nat :=
  joinBits (hdrFields 0x049 h ++
    [(0, 1), (d.code, 9), (a.code, 9), (ty.code, 4), (0, 10), (imm.toNat, 32)])

/-- Field lengths of IMAX (format R) from bit 31 up. -/
def layImax : List Nat := [1, 9, 9, 9, 9, 4, 2, 1, 1, 1, 1, 18]

/-- IMAX: the checks of R98 and the instruction. -/
def decImax (h : Hdr) (w : Nat) : Except Nat Instr :=
  match splitBits layImax w with
  | [z0, xd, xa, xb, z4, xty, z6, z7, z8, z9, z10, z11] =>
    if z0 + z4 + z6 + z11 ≠ 0 then .error 0x001 else
    if z7 ≠ 0 ∨ z8 ≠ 0 ∨ z9 ≠ 0 ∨ z10 ≠ 0 then .error 0x002 else
    match Ty.ofCode xty with
    | some ty =>
      if !(ty.isInt) then .error 0x002 else
      if h.sb ≠ 0 then .error 0x006 else
      match Opd.ofCode xd, Opd.ofCode xa, Opd.ofCode xb with
      | some d, some a, some b => .ok (.imax h ty d a b)
      | _, _, _ => .error 0x020
    | _ => .error 0x002
  | _ => .error 0x000

/-- The word of IMAX. -/
def encImax (h : Hdr) (ty : Ty) (d : Opd) (a : Opd) (b : Opd) : Nat :=
  joinBits (hdrFields 0x00A h ++
    [(0, 1), (d.code, 9), (a.code, 9), (b.code, 9), (0, 9), (ty.code, 4), (0, 2), (0, 1), (0, 1), (0, 1), (0, 1), (0, 18)])

/-- Field lengths of IMAX_IMM (format I) from bit 31 up. -/
def layImaxImm : List Nat := [1, 9, 9, 4, 10, 32]

/-- IMAX_IMM: the checks of R98 and the instruction. -/
def decImaxImm (h : Hdr) (w : Nat) : Except Nat Instr :=
  match splitBits layImaxImm w with
  | [z0, xd, xa, xty, z4, ximm] =>
    if z0 + z4 ≠ 0 then .error 0x001 else
    let imm := BitVec.ofNat 32 ximm
    match Ty.ofCode xty with
    | some ty =>
      if !(ty.isInt && immFits ty imm) then .error 0x002 else
      if h.sb ≠ 0 then .error 0x006 else
      match Opd.ofCode xd, Opd.ofCode xa with
      | some d, some a => .ok (.imaxImm h ty d a imm)
      | _, _ => .error 0x020
    | _ => .error 0x002
  | _ => .error 0x000

/-- The word of IMAX_IMM. -/
def encImaxImm (h : Hdr) (ty : Ty) (d : Opd) (a : Opd) (imm : BitVec 32) : Nat :=
  joinBits (hdrFields 0x04A h ++
    [(0, 1), (d.code, 9), (a.code, 9), (ty.code, 4), (0, 10), (imm.toNat, 32)])

/-- Field lengths of IABS (format R) from bit 31 up. -/
def layIabs : List Nat := [1, 9, 9, 18, 4, 2, 1, 1, 1, 1, 18]

/-- IABS: the checks of R98 and the instruction. -/
def decIabs (h : Hdr) (w : Nat) : Except Nat Instr :=
  match splitBits layIabs w with
  | [z0, xd, xa, z3, xty, z5, xsat, z7, z8, z9, z10] =>
    if z0 + z3 + z5 + z10 ≠ 0 then .error 0x001 else
    let sat := xsat == 1
    if z7 ≠ 0 ∨ z8 ≠ 0 ∨ z9 ≠ 0 then .error 0x002 else
    match Ty.ofCode xty with
    | some ty =>
      if !(ty.isSignedInt) then .error 0x002 else
      if h.sb ≠ 0 then .error 0x006 else
      match Opd.ofCode xd, Opd.ofCode xa with
      | some d, some a => .ok (.iabs h ty sat d a)
      | _, _ => .error 0x020
    | _ => .error 0x002
  | _ => .error 0x000

/-- The word of IABS. -/
def encIabs (h : Hdr) (ty : Ty) (sat : Bool) (d : Opd) (a : Opd) : Nat :=
  joinBits (hdrFields 0x00B h ++
    [(0, 1), (d.code, 9), (a.code, 9), (0, 18), (ty.code, 4), (0, 2), (sat.toNat, 1), (0, 1), (0, 1), (0, 1), (0, 18)])

/-- Field lengths of IABS_IMM (format I) from bit 31 up. -/
def layIabsImm : List Nat := [1, 9, 9, 4, 7, 1, 2, 32]

/-- IABS_IMM: the checks of R98 and the instruction. -/
def decIabsImm (h : Hdr) (w : Nat) : Except Nat Instr :=
  match splitBits layIabsImm w with
  | [z0, xd, z2, xty, z4, xsat, z6, ximm] =>
    if z0 + z2 + z4 + z6 ≠ 0 then .error 0x001 else
    let sat := xsat == 1
    let imm := BitVec.ofNat 32 ximm
    match Ty.ofCode xty with
    | some ty =>
      if !(ty.isSignedInt && immFits ty imm) then .error 0x002 else
      if h.sb ≠ 0 then .error 0x006 else
      match Opd.ofCode xd with
      | some d => .ok (.iabsImm h ty sat d imm)
      | _ => .error 0x020
    | _ => .error 0x002
  | _ => .error 0x000

/-- The word of IABS_IMM. -/
def encIabsImm (h : Hdr) (ty : Ty) (sat : Bool) (d : Opd) (imm : BitVec 32) : Nat :=
  joinBits (hdrFields 0x04B h ++
    [(0, 1), (d.code, 9), (0, 9), (ty.code, 4), (0, 7), (sat.toNat, 1), (0, 2), (imm.toNat, 32)])

/-- Field lengths of SHL (format R) from bit 31 up. -/
def layShl : List Nat := [1, 9, 9, 9, 9, 4, 2, 1, 1, 1, 1, 18]

/-- SHL: the checks of R98 and the instruction. -/
def decShl (h : Hdr) (w : Nat) : Except Nat Instr :=
  match splitBits layShl w with
  | [z0, xd, xa, xb, z4, xty, z6, xsat, z8, z9, z10, z11] =>
    if z0 + z4 + z6 + z11 ≠ 0 then .error 0x001 else
    let sat := xsat == 1
    if z8 ≠ 0 ∨ z9 ≠ 0 ∨ z10 ≠ 0 then .error 0x002 else
    match Ty.ofCode xty with
    | some ty =>
      if !(ty.isInt) then .error 0x002 else
      if h.sb ≠ 0 then .error 0x006 else
      match Opd.ofCode xd, Opd.ofCode xa, Opd.ofCode xb with
      | some d, some a, some b => .ok (.shl h ty sat d a b)
      | _, _, _ => .error 0x020
    | _ => .error 0x002
  | _ => .error 0x000

/-- The word of SHL. -/
def encShl (h : Hdr) (ty : Ty) (sat : Bool) (d : Opd) (a : Opd) (b : Opd) : Nat :=
  joinBits (hdrFields 0x00C h ++
    [(0, 1), (d.code, 9), (a.code, 9), (b.code, 9), (0, 9), (ty.code, 4), (0, 2), (sat.toNat, 1), (0, 1), (0, 1), (0, 1), (0, 18)])

/-- Field lengths of SHL_IMM (format I) from bit 31 up. -/
def layShlImm : List Nat := [1, 9, 9, 4, 7, 1, 2, 32]

/-- SHL_IMM: the checks of R98 and the instruction. -/
def decShlImm (h : Hdr) (w : Nat) : Except Nat Instr :=
  match splitBits layShlImm w with
  | [z0, xd, xa, xty, z4, xsat, z6, ximm] =>
    if z0 + z4 + z6 ≠ 0 then .error 0x001 else
    let sat := xsat == 1
    let imm := BitVec.ofNat 32 ximm
    match Ty.ofCode xty with
    | some ty =>
      if !(ty.isInt && immFits ty imm) then .error 0x002 else
      if h.sb ≠ 0 then .error 0x006 else
      match Opd.ofCode xd, Opd.ofCode xa with
      | some d, some a => .ok (.shlImm h ty sat d a imm)
      | _, _ => .error 0x020
    | _ => .error 0x002
  | _ => .error 0x000

/-- The word of SHL_IMM. -/
def encShlImm (h : Hdr) (ty : Ty) (sat : Bool) (d : Opd) (a : Opd) (imm : BitVec 32) : Nat :=
  joinBits (hdrFields 0x04C h ++
    [(0, 1), (d.code, 9), (a.code, 9), (ty.code, 4), (0, 7), (sat.toNat, 1), (0, 2), (imm.toNat, 32)])

/-- Field lengths of SHR (format R) from bit 31 up. -/
def layShr : List Nat := [1, 9, 9, 9, 9, 4, 2, 1, 1, 1, 1, 18]

/-- SHR: the checks of R98 and the instruction. -/
def decShr (h : Hdr) (w : Nat) : Except Nat Instr :=
  match splitBits layShr w with
  | [z0, xd, xa, xb, z4, xty, z6, z7, z8, z9, z10, z11] =>
    if z0 + z4 + z6 + z11 ≠ 0 then .error 0x001 else
    if z7 ≠ 0 ∨ z8 ≠ 0 ∨ z9 ≠ 0 ∨ z10 ≠ 0 then .error 0x002 else
    match Ty.ofCode xty with
    | some ty =>
      if !(ty.isInt) then .error 0x002 else
      if h.sb ≠ 0 then .error 0x006 else
      match Opd.ofCode xd, Opd.ofCode xa, Opd.ofCode xb with
      | some d, some a, some b => .ok (.shr h ty d a b)
      | _, _, _ => .error 0x020
    | _ => .error 0x002
  | _ => .error 0x000

/-- The word of SHR. -/
def encShr (h : Hdr) (ty : Ty) (d : Opd) (a : Opd) (b : Opd) : Nat :=
  joinBits (hdrFields 0x00D h ++
    [(0, 1), (d.code, 9), (a.code, 9), (b.code, 9), (0, 9), (ty.code, 4), (0, 2), (0, 1), (0, 1), (0, 1), (0, 1), (0, 18)])

/-- Field lengths of SHR_IMM (format I) from bit 31 up. -/
def layShrImm : List Nat := [1, 9, 9, 4, 10, 32]

/-- SHR_IMM: the checks of R98 and the instruction. -/
def decShrImm (h : Hdr) (w : Nat) : Except Nat Instr :=
  match splitBits layShrImm w with
  | [z0, xd, xa, xty, z4, ximm] =>
    if z0 + z4 ≠ 0 then .error 0x001 else
    let imm := BitVec.ofNat 32 ximm
    match Ty.ofCode xty with
    | some ty =>
      if !(ty.isInt && immFits ty imm) then .error 0x002 else
      if h.sb ≠ 0 then .error 0x006 else
      match Opd.ofCode xd, Opd.ofCode xa with
      | some d, some a => .ok (.shrImm h ty d a imm)
      | _, _ => .error 0x020
    | _ => .error 0x002
  | _ => .error 0x000

/-- The word of SHR_IMM. -/
def encShrImm (h : Hdr) (ty : Ty) (d : Opd) (a : Opd) (imm : BitVec 32) : Nat :=
  joinBits (hdrFields 0x04D h ++
    [(0, 1), (d.code, 9), (a.code, 9), (ty.code, 4), (0, 10), (imm.toNat, 32)])

/-- Field lengths of SAR (format R) from bit 31 up. -/
def laySar : List Nat := [1, 9, 9, 9, 9, 4, 2, 1, 1, 1, 1, 18]

/-- SAR: the checks of R98 and the instruction. -/
def decSar (h : Hdr) (w : Nat) : Except Nat Instr :=
  match splitBits laySar w with
  | [z0, xd, xa, xb, z4, xty, z6, z7, z8, z9, z10, z11] =>
    if z0 + z4 + z6 + z11 ≠ 0 then .error 0x001 else
    if z7 ≠ 0 ∨ z8 ≠ 0 ∨ z9 ≠ 0 ∨ z10 ≠ 0 then .error 0x002 else
    match Ty.ofCode xty with
    | some ty =>
      if !(ty.isInt) then .error 0x002 else
      if h.sb ≠ 0 then .error 0x006 else
      match Opd.ofCode xd, Opd.ofCode xa, Opd.ofCode xb with
      | some d, some a, some b => .ok (.sar h ty d a b)
      | _, _, _ => .error 0x020
    | _ => .error 0x002
  | _ => .error 0x000

/-- The word of SAR. -/
def encSar (h : Hdr) (ty : Ty) (d : Opd) (a : Opd) (b : Opd) : Nat :=
  joinBits (hdrFields 0x00E h ++
    [(0, 1), (d.code, 9), (a.code, 9), (b.code, 9), (0, 9), (ty.code, 4), (0, 2), (0, 1), (0, 1), (0, 1), (0, 1), (0, 18)])

/-- Field lengths of SAR_IMM (format I) from bit 31 up. -/
def laySarImm : List Nat := [1, 9, 9, 4, 10, 32]

/-- SAR_IMM: the checks of R98 and the instruction. -/
def decSarImm (h : Hdr) (w : Nat) : Except Nat Instr :=
  match splitBits laySarImm w with
  | [z0, xd, xa, xty, z4, ximm] =>
    if z0 + z4 ≠ 0 then .error 0x001 else
    let imm := BitVec.ofNat 32 ximm
    match Ty.ofCode xty with
    | some ty =>
      if !(ty.isInt && immFits ty imm) then .error 0x002 else
      if h.sb ≠ 0 then .error 0x006 else
      match Opd.ofCode xd, Opd.ofCode xa with
      | some d, some a => .ok (.sarImm h ty d a imm)
      | _, _ => .error 0x020
    | _ => .error 0x002
  | _ => .error 0x000

/-- The word of SAR_IMM. -/
def encSarImm (h : Hdr) (ty : Ty) (d : Opd) (a : Opd) (imm : BitVec 32) : Nat :=
  joinBits (hdrFields 0x04E h ++
    [(0, 1), (d.code, 9), (a.code, 9), (ty.code, 4), (0, 10), (imm.toNat, 32)])

/-- Field lengths of AND (format R) from bit 31 up. -/
def layAnd : List Nat := [1, 9, 9, 9, 9, 4, 2, 1, 1, 1, 1, 18]

/-- AND: the checks of R98 and the instruction. -/
def decAnd (h : Hdr) (w : Nat) : Except Nat Instr :=
  match splitBits layAnd w with
  | [z0, xd, xa, xb, z4, xty, z6, z7, xna, xnb, z10, z11] =>
    if z0 + z4 + z6 + z11 ≠ 0 then .error 0x001 else
    let na := xna == 1
    let nb := xnb == 1
    if z7 ≠ 0 ∨ z10 ≠ 0 then .error 0x002 else
    match Ty.ofCode xty with
    | some ty =>
      if !(ty.isInt) then .error 0x002 else
      if h.sb ≠ 0 then .error 0x006 else
      match Opd.ofCode xd, Opd.ofCode xa, Opd.ofCode xb with
      | some d, some a, some b => .ok (.and h ty na nb d a b)
      | _, _, _ => .error 0x020
    | _ => .error 0x002
  | _ => .error 0x000

/-- The word of AND. -/
def encAnd (h : Hdr) (ty : Ty) (na : Bool) (nb : Bool) (d : Opd) (a : Opd) (b : Opd) : Nat :=
  joinBits (hdrFields 0x00F h ++
    [(0, 1), (d.code, 9), (a.code, 9), (b.code, 9), (0, 9), (ty.code, 4), (0, 2), (0, 1), (na.toNat, 1), (nb.toNat, 1), (0, 1), (0, 18)])

/-- Field lengths of AND_IMM (format I) from bit 31 up. -/
def layAndImm : List Nat := [1, 9, 9, 4, 10, 32]

/-- AND_IMM: the checks of R98 and the instruction. -/
def decAndImm (h : Hdr) (w : Nat) : Except Nat Instr :=
  match splitBits layAndImm w with
  | [z0, xd, xa, xty, z4, ximm] =>
    if z0 + z4 ≠ 0 then .error 0x001 else
    let imm := BitVec.ofNat 32 ximm
    match Ty.ofCode xty with
    | some ty =>
      if !(ty.isInt && immFits ty imm) then .error 0x002 else
      if h.sb ≠ 0 then .error 0x006 else
      match Opd.ofCode xd, Opd.ofCode xa with
      | some d, some a => .ok (.andImm h ty d a imm)
      | _, _ => .error 0x020
    | _ => .error 0x002
  | _ => .error 0x000

/-- The word of AND_IMM. -/
def encAndImm (h : Hdr) (ty : Ty) (d : Opd) (a : Opd) (imm : BitVec 32) : Nat :=
  joinBits (hdrFields 0x04F h ++
    [(0, 1), (d.code, 9), (a.code, 9), (ty.code, 4), (0, 10), (imm.toNat, 32)])

/-- Field lengths of OR (format R) from bit 31 up. -/
def layOr : List Nat := [1, 9, 9, 9, 9, 4, 2, 1, 1, 1, 1, 18]

/-- OR: the checks of R98 and the instruction. -/
def decOr (h : Hdr) (w : Nat) : Except Nat Instr :=
  match splitBits layOr w with
  | [z0, xd, xa, xb, z4, xty, z6, z7, xna, xnb, z10, z11] =>
    if z0 + z4 + z6 + z11 ≠ 0 then .error 0x001 else
    let na := xna == 1
    let nb := xnb == 1
    if z7 ≠ 0 ∨ z10 ≠ 0 then .error 0x002 else
    match Ty.ofCode xty with
    | some ty =>
      if !(ty.isInt) then .error 0x002 else
      if h.sb ≠ 0 then .error 0x006 else
      match Opd.ofCode xd, Opd.ofCode xa, Opd.ofCode xb with
      | some d, some a, some b => .ok (.or h ty na nb d a b)
      | _, _, _ => .error 0x020
    | _ => .error 0x002
  | _ => .error 0x000

/-- The word of OR. -/
def encOr (h : Hdr) (ty : Ty) (na : Bool) (nb : Bool) (d : Opd) (a : Opd) (b : Opd) : Nat :=
  joinBits (hdrFields 0x010 h ++
    [(0, 1), (d.code, 9), (a.code, 9), (b.code, 9), (0, 9), (ty.code, 4), (0, 2), (0, 1), (na.toNat, 1), (nb.toNat, 1), (0, 1), (0, 18)])

/-- Field lengths of OR_IMM (format I) from bit 31 up. -/
def layOrImm : List Nat := [1, 9, 9, 4, 10, 32]

/-- OR_IMM: the checks of R98 and the instruction. -/
def decOrImm (h : Hdr) (w : Nat) : Except Nat Instr :=
  match splitBits layOrImm w with
  | [z0, xd, xa, xty, z4, ximm] =>
    if z0 + z4 ≠ 0 then .error 0x001 else
    let imm := BitVec.ofNat 32 ximm
    match Ty.ofCode xty with
    | some ty =>
      if !(ty.isInt && immFits ty imm) then .error 0x002 else
      if h.sb ≠ 0 then .error 0x006 else
      match Opd.ofCode xd, Opd.ofCode xa with
      | some d, some a => .ok (.orImm h ty d a imm)
      | _, _ => .error 0x020
    | _ => .error 0x002
  | _ => .error 0x000

/-- The word of OR_IMM. -/
def encOrImm (h : Hdr) (ty : Ty) (d : Opd) (a : Opd) (imm : BitVec 32) : Nat :=
  joinBits (hdrFields 0x050 h ++
    [(0, 1), (d.code, 9), (a.code, 9), (ty.code, 4), (0, 10), (imm.toNat, 32)])

/-- Field lengths of XOR (format R) from bit 31 up. -/
def layXor : List Nat := [1, 9, 9, 9, 9, 4, 2, 1, 1, 1, 1, 18]

/-- XOR: the checks of R98 and the instruction. -/
def decXor (h : Hdr) (w : Nat) : Except Nat Instr :=
  match splitBits layXor w with
  | [z0, xd, xa, xb, z4, xty, z6, z7, xna, xnb, z10, z11] =>
    if z0 + z4 + z6 + z11 ≠ 0 then .error 0x001 else
    let na := xna == 1
    let nb := xnb == 1
    if z7 ≠ 0 ∨ z10 ≠ 0 then .error 0x002 else
    match Ty.ofCode xty with
    | some ty =>
      if !(ty.isInt) then .error 0x002 else
      if h.sb ≠ 0 then .error 0x006 else
      match Opd.ofCode xd, Opd.ofCode xa, Opd.ofCode xb with
      | some d, some a, some b => .ok (.xor h ty na nb d a b)
      | _, _, _ => .error 0x020
    | _ => .error 0x002
  | _ => .error 0x000

/-- The word of XOR. -/
def encXor (h : Hdr) (ty : Ty) (na : Bool) (nb : Bool) (d : Opd) (a : Opd) (b : Opd) : Nat :=
  joinBits (hdrFields 0x011 h ++
    [(0, 1), (d.code, 9), (a.code, 9), (b.code, 9), (0, 9), (ty.code, 4), (0, 2), (0, 1), (na.toNat, 1), (nb.toNat, 1), (0, 1), (0, 18)])

/-- Field lengths of XOR_IMM (format I) from bit 31 up. -/
def layXorImm : List Nat := [1, 9, 9, 4, 10, 32]

/-- XOR_IMM: the checks of R98 and the instruction. -/
def decXorImm (h : Hdr) (w : Nat) : Except Nat Instr :=
  match splitBits layXorImm w with
  | [z0, xd, xa, xty, z4, ximm] =>
    if z0 + z4 ≠ 0 then .error 0x001 else
    let imm := BitVec.ofNat 32 ximm
    match Ty.ofCode xty with
    | some ty =>
      if !(ty.isInt && immFits ty imm) then .error 0x002 else
      if h.sb ≠ 0 then .error 0x006 else
      match Opd.ofCode xd, Opd.ofCode xa with
      | some d, some a => .ok (.xorImm h ty d a imm)
      | _, _ => .error 0x020
    | _ => .error 0x002
  | _ => .error 0x000

/-- The word of XOR_IMM. -/
def encXorImm (h : Hdr) (ty : Ty) (d : Opd) (a : Opd) (imm : BitVec 32) : Nat :=
  joinBits (hdrFields 0x051 h ++
    [(0, 1), (d.code, 9), (a.code, 9), (ty.code, 4), (0, 10), (imm.toNat, 32)])

/-- Field lengths of LUT3 (format R) from bit 31 up. -/
def layLut3 : List Nat := [1, 9, 9, 9, 9, 4, 2, 1, 1, 1, 1, 8, 10]

/-- LUT3: the checks of R98 and the instruction. -/
def decLut3 (h : Hdr) (w : Nat) : Except Nat Instr :=
  match splitBits layLut3 w with
  | [z0, xd, xa, xb, xc, xty, z6, z7, z8, z9, z10, xlut, z12] =>
    if z0 + z6 + z12 ≠ 0 then .error 0x001 else
    let lut := BitVec.ofNat 8 xlut
    if z7 ≠ 0 ∨ z8 ≠ 0 ∨ z9 ≠ 0 ∨ z10 ≠ 0 then .error 0x002 else
    match Ty.ofCode xty with
    | some ty =>
      if !(ty.isInt) then .error 0x002 else
      if h.sb ≠ 0 then .error 0x006 else
      match Opd.ofCode xd, Opd.ofCode xa, Opd.ofCode xb, Opd.ofCode xc with
      | some d, some a, some b, some c => .ok (.lut3 h ty lut d a b c)
      | _, _, _, _ => .error 0x020
    | _ => .error 0x002
  | _ => .error 0x000

/-- The word of LUT3. -/
def encLut3 (h : Hdr) (ty : Ty) (lut : BitVec 8) (d : Opd) (a : Opd) (b : Opd) (c : Opd) : Nat :=
  joinBits (hdrFields 0x012 h ++
    [(0, 1), (d.code, 9), (a.code, 9), (b.code, 9), (c.code, 9), (ty.code, 4), (0, 2), (0, 1), (0, 1), (0, 1), (0, 1), (lut.toNat, 8), (0, 10)])

/-- Field lengths of LUT3_IMM (format I) from bit 31 up. -/
def layLut3Imm : List Nat := [1, 9, 9, 4, 3, 2, 5, 32]

/-- LUT3_IMM: the checks of R98 and the instruction. -/
def decLut3Imm (h : Hdr) (w : Nat) : Except Nat Instr :=
  match splitBits layLut3Imm w with
  | [z0, xd, xa, xty, xlutHi, z5, xlutLo, ximm] =>
    if z0 + z5 ≠ 0 then .error 0x001 else
    let lutLo := BitVec.ofNat 5 xlutLo
    let lutHi := BitVec.ofNat 3 xlutHi
    let imm := BitVec.ofNat 32 ximm
    match Ty.ofCode xty with
    | some ty =>
      if !(ty.isInt && immFits ty imm) then .error 0x002 else
      if h.sb ≠ 0 then .error 0x006 else
      match Opd.ofCode xd, Opd.ofCode xa with
      | some d, some a => .ok (.lut3Imm h ty lutLo lutHi d a imm)
      | _, _ => .error 0x020
    | _ => .error 0x002
  | _ => .error 0x000

/-- The word of LUT3_IMM. -/
def encLut3Imm (h : Hdr) (ty : Ty) (lutLo : BitVec 5) (lutHi : BitVec 3) (d : Opd) (a : Opd) (imm : BitVec 32) : Nat :=
  joinBits (hdrFields 0x052 h ++
    [(0, 1), (d.code, 9), (a.code, 9), (ty.code, 4), (lutHi.toNat, 3), (0, 2), (lutLo.toNat, 5), (imm.toNat, 32)])

/-- Field lengths of POPC (format R) from bit 31 up. -/
def layPopc : List Nat := [1, 9, 9, 18, 4, 2, 1, 1, 1, 1, 18]

/-- POPC: the checks of R98 and the instruction. -/
def decPopc (h : Hdr) (w : Nat) : Except Nat Instr :=
  match splitBits layPopc w with
  | [z0, xd, xa, z3, xty, z5, z6, z7, z8, z9, z10] =>
    if z0 + z3 + z5 + z10 ≠ 0 then .error 0x001 else
    if z6 ≠ 0 ∨ z7 ≠ 0 ∨ z8 ≠ 0 ∨ z9 ≠ 0 then .error 0x002 else
    match Ty.ofCode xty with
    | some ty =>
      if !(ty.isInt) then .error 0x002 else
      if h.sb ≠ 0 then .error 0x006 else
      match Opd.ofCode xd, Opd.ofCode xa with
      | some d, some a => .ok (.popc h ty d a)
      | _, _ => .error 0x020
    | _ => .error 0x002
  | _ => .error 0x000

/-- The word of POPC. -/
def encPopc (h : Hdr) (ty : Ty) (d : Opd) (a : Opd) : Nat :=
  joinBits (hdrFields 0x013 h ++
    [(0, 1), (d.code, 9), (a.code, 9), (0, 18), (ty.code, 4), (0, 2), (0, 1), (0, 1), (0, 1), (0, 1), (0, 18)])

/-- Field lengths of CLZ (format R) from bit 31 up. -/
def layClz : List Nat := [1, 9, 9, 18, 4, 2, 1, 1, 1, 1, 18]

/-- CLZ: the checks of R98 and the instruction. -/
def decClz (h : Hdr) (w : Nat) : Except Nat Instr :=
  match splitBits layClz w with
  | [z0, xd, xa, z3, xty, z5, z6, z7, z8, z9, z10] =>
    if z0 + z3 + z5 + z10 ≠ 0 then .error 0x001 else
    if z6 ≠ 0 ∨ z7 ≠ 0 ∨ z8 ≠ 0 ∨ z9 ≠ 0 then .error 0x002 else
    match Ty.ofCode xty with
    | some ty =>
      if !(ty.isInt) then .error 0x002 else
      if h.sb ≠ 0 then .error 0x006 else
      match Opd.ofCode xd, Opd.ofCode xa with
      | some d, some a => .ok (.clz h ty d a)
      | _, _ => .error 0x020
    | _ => .error 0x002
  | _ => .error 0x000

/-- The word of CLZ. -/
def encClz (h : Hdr) (ty : Ty) (d : Opd) (a : Opd) : Nat :=
  joinBits (hdrFields 0x014 h ++
    [(0, 1), (d.code, 9), (a.code, 9), (0, 18), (ty.code, 4), (0, 2), (0, 1), (0, 1), (0, 1), (0, 1), (0, 18)])

/-- Field lengths of BFE (format R) from bit 31 up. -/
def layBfe : List Nat := [1, 9, 9, 9, 9, 4, 2, 1, 1, 1, 1, 18]

/-- BFE: the checks of R98 and the instruction. -/
def decBfe (h : Hdr) (w : Nat) : Except Nat Instr :=
  match splitBits layBfe w with
  | [z0, xd, xa, xb, z4, xty, z6, z7, z8, z9, z10, z11] =>
    if z0 + z4 + z6 + z11 ≠ 0 then .error 0x001 else
    if z7 ≠ 0 ∨ z8 ≠ 0 ∨ z9 ≠ 0 ∨ z10 ≠ 0 then .error 0x002 else
    match Ty.ofCode xty with
    | some ty =>
      if !(ty.isInt) then .error 0x002 else
      if h.sb ≠ 0 then .error 0x006 else
      match Opd.ofCode xd, Opd.ofCode xa, Opd.ofCode xb with
      | some d, some a, some b => .ok (.bfe h ty d a b)
      | _, _, _ => .error 0x020
    | _ => .error 0x002
  | _ => .error 0x000

/-- The word of BFE. -/
def encBfe (h : Hdr) (ty : Ty) (d : Opd) (a : Opd) (b : Opd) : Nat :=
  joinBits (hdrFields 0x015 h ++
    [(0, 1), (d.code, 9), (a.code, 9), (b.code, 9), (0, 9), (ty.code, 4), (0, 2), (0, 1), (0, 1), (0, 1), (0, 1), (0, 18)])

/-- Field lengths of BFE_IMM (format I) from bit 31 up. -/
def layBfeImm : List Nat := [1, 9, 9, 4, 10, 32]

/-- BFE_IMM: the checks of R98 and the instruction. -/
def decBfeImm (h : Hdr) (w : Nat) : Except Nat Instr :=
  match splitBits layBfeImm w with
  | [z0, xd, xa, xty, z4, ximm] =>
    if z0 + z4 ≠ 0 then .error 0x001 else
    let imm := BitVec.ofNat 32 ximm
    match Ty.ofCode xty with
    | some ty =>
      if !(ty.isInt && immFits ty imm) then .error 0x002 else
      if h.sb ≠ 0 then .error 0x006 else
      match Opd.ofCode xd, Opd.ofCode xa with
      | some d, some a => .ok (.bfeImm h ty d a imm)
      | _, _ => .error 0x020
    | _ => .error 0x002
  | _ => .error 0x000

/-- The word of BFE_IMM. -/
def encBfeImm (h : Hdr) (ty : Ty) (d : Opd) (a : Opd) (imm : BitVec 32) : Nat :=
  joinBits (hdrFields 0x055 h ++
    [(0, 1), (d.code, 9), (a.code, 9), (ty.code, 4), (0, 10), (imm.toNat, 32)])

/-- Field lengths of BFI (format R) from bit 31 up. -/
def layBfi : List Nat := [1, 9, 9, 9, 9, 4, 2, 1, 1, 1, 1, 18]

/-- BFI: the checks of R98 and the instruction. -/
def decBfi (h : Hdr) (w : Nat) : Except Nat Instr :=
  match splitBits layBfi w with
  | [z0, xd, xa, xb, xc, xty, z6, z7, z8, z9, z10, z11] =>
    if z0 + z6 + z11 ≠ 0 then .error 0x001 else
    if z7 ≠ 0 ∨ z8 ≠ 0 ∨ z9 ≠ 0 ∨ z10 ≠ 0 then .error 0x002 else
    match Ty.ofCode xty with
    | some ty =>
      if !(ty.isInt) then .error 0x002 else
      if h.sb ≠ 0 then .error 0x006 else
      match Opd.ofCode xd, Opd.ofCode xa, Opd.ofCode xb, Opd.ofCode xc with
      | some d, some a, some b, some c => .ok (.bfi h ty d a b c)
      | _, _, _, _ => .error 0x020
    | _ => .error 0x002
  | _ => .error 0x000

/-- The word of BFI. -/
def encBfi (h : Hdr) (ty : Ty) (d : Opd) (a : Opd) (b : Opd) (c : Opd) : Nat :=
  joinBits (hdrFields 0x016 h ++
    [(0, 1), (d.code, 9), (a.code, 9), (b.code, 9), (c.code, 9), (ty.code, 4), (0, 2), (0, 1), (0, 1), (0, 1), (0, 1), (0, 18)])

/-- Field lengths of BFI_IMM (format I) from bit 31 up. -/
def layBfiImm : List Nat := [1, 9, 9, 4, 10, 32]

/-- BFI_IMM: the checks of R98 and the instruction. -/
def decBfiImm (h : Hdr) (w : Nat) : Except Nat Instr :=
  match splitBits layBfiImm w with
  | [z0, xd, xa, xty, z4, ximm] =>
    if z0 + z4 ≠ 0 then .error 0x001 else
    let imm := BitVec.ofNat 32 ximm
    match Ty.ofCode xty with
    | some ty =>
      if !(ty.isInt && immFits ty imm) then .error 0x002 else
      if h.sb ≠ 0 then .error 0x006 else
      match Opd.ofCode xd, Opd.ofCode xa with
      | some d, some a => .ok (.bfiImm h ty d a imm)
      | _, _ => .error 0x020
    | _ => .error 0x002
  | _ => .error 0x000

/-- The word of BFI_IMM. -/
def encBfiImm (h : Hdr) (ty : Ty) (d : Opd) (a : Opd) (imm : BitVec 32) : Nat :=
  joinBits (hdrFields 0x056 h ++
    [(0, 1), (d.code, 9), (a.code, 9), (ty.code, 4), (0, 10), (imm.toNat, 32)])

/-- Field lengths of BPICK (format R) from bit 31 up. -/
def layBpick : List Nat := [1, 9, 9, 9, 9, 4, 2, 1, 1, 1, 1, 18]

/-- BPICK: the checks of R98 and the instruction. -/
def decBpick (h : Hdr) (w : Nat) : Except Nat Instr :=
  match splitBits layBpick w with
  | [z0, xd, xa, xb, xc, z5, z6, z7, z8, z9, z10, z11] =>
    if z0 + z6 + z11 ≠ 0 then .error 0x001 else
    if z5 ≠ 0 ∨ z7 ≠ 0 ∨ z8 ≠ 0 ∨ z9 ≠ 0 ∨ z10 ≠ 0 then .error 0x002 else
    if h.sb ≠ 0 then .error 0x006 else
    match Opd.ofCode xd, Opd.ofCode xa, Opd.ofCode xb, Opd.ofCode xc with
    | some d, some a, some b, some c => .ok (.bpick h d a b c)
    | _, _, _, _ => .error 0x020
  | _ => .error 0x000

/-- The word of BPICK. -/
def encBpick (h : Hdr) (d : Opd) (a : Opd) (b : Opd) (c : Opd) : Nat :=
  joinBits (hdrFields 0x017 h ++
    [(0, 1), (d.code, 9), (a.code, 9), (b.code, 9), (c.code, 9), (0, 4), (0, 2), (0, 1), (0, 1), (0, 1), (0, 1), (0, 18)])

/-- Field lengths of BPICK_IMM (format I) from bit 31 up. -/
def layBpickImm : List Nat := [1, 9, 9, 4, 10, 32]

/-- BPICK_IMM: the checks of R98 and the instruction. -/
def decBpickImm (h : Hdr) (w : Nat) : Except Nat Instr :=
  match splitBits layBpickImm w with
  | [z0, xd, xa, z3, z4, ximm] =>
    if z0 + z4 ≠ 0 then .error 0x001 else
    let imm := BitVec.ofNat 32 ximm
    if z3 ≠ 0 then .error 0x002 else
    if h.sb ≠ 0 then .error 0x006 else
    match Opd.ofCode xd, Opd.ofCode xa with
    | some d, some a => .ok (.bpickImm h d a imm)
    | _, _ => .error 0x020
  | _ => .error 0x000

/-- The word of BPICK_IMM. -/
def encBpickImm (h : Hdr) (d : Opd) (a : Opd) (imm : BitVec 32) : Nat :=
  joinBits (hdrFields 0x057 h ++
    [(0, 1), (d.code, 9), (a.code, 9), (0, 4), (0, 10), (imm.toNat, 32)])

/-- Field lengths of SEL (format R) from bit 31 up. -/
def laySel : List Nat := [1, 9, 9, 9, 9, 4, 2, 1, 1, 1, 1, 5, 1, 12]

/-- SEL: the checks of R98 and the instruction. -/
def decSel (h : Hdr) (w : Nat) : Except Nat Instr :=
  match splitBits laySel w with
  | [z0, xd, xa, xb, z4, xty, z6, z7, z8, z9, z10, xpr, xneg, z13] =>
    if z0 + z4 + z6 + z13 ≠ 0 then .error 0x001 else
    let pr := xpr
    let neg := xneg == 1
    if z7 ≠ 0 ∨ z8 ≠ 0 ∨ z9 ≠ 0 ∨ z10 ≠ 0 then .error 0x002 else
    match Ty.ofCode xty with
    | some ty =>
      if !(ty.isWord) then .error 0x002 else
      if h.sb ≠ 0 then .error 0x006 else
      match Opd.ofCode xd, Opd.ofCode xa, Opd.ofCode xb with
      | some d, some a, some b => .ok (.sel h ty pr neg d a b)
      | _, _, _ => .error 0x020
    | _ => .error 0x002
  | _ => .error 0x000

/-- The word of SEL. -/
def encSel (h : Hdr) (ty : Ty) (pr : Nat) (neg : Bool) (d : Opd) (a : Opd) (b : Opd) : Nat :=
  joinBits (hdrFields 0x018 h ++
    [(0, 1), (d.code, 9), (a.code, 9), (b.code, 9), (0, 9), (ty.code, 4), (0, 2), (0, 1), (0, 1), (0, 1), (0, 1), (pr, 5), (neg.toNat, 1), (0, 12)])

/-- Field lengths of SEL_IMM (format I) from bit 31 up. -/
def laySelImm : List Nat := [1, 9, 9, 4, 1, 4, 5, 32]

/-- SEL_IMM: the checks of R98 and the instruction. -/
def decSelImm (h : Hdr) (w : Nat) : Except Nat Instr :=
  match splitBits laySelImm w with
  | [z0, xd, xa, xty, xneg, z5, xpr, ximm] =>
    if z0 + z5 ≠ 0 then .error 0x001 else
    let pr := xpr
    let neg := xneg == 1
    let imm := BitVec.ofNat 32 ximm
    match Ty.ofCode xty with
    | some ty =>
      if !(ty.isWord) then .error 0x002 else
      if h.sb ≠ 0 then .error 0x006 else
      match Opd.ofCode xd, Opd.ofCode xa with
      | some d, some a => .ok (.selImm h ty pr neg d a imm)
      | _, _ => .error 0x020
    | _ => .error 0x002
  | _ => .error 0x000

/-- The word of SEL_IMM. -/
def encSelImm (h : Hdr) (ty : Ty) (pr : Nat) (neg : Bool) (d : Opd) (a : Opd) (imm : BitVec 32) : Nat :=
  joinBits (hdrFields 0x058 h ++
    [(0, 1), (d.code, 9), (a.code, 9), (ty.code, 4), (neg.toNat, 1), (0, 4), (pr, 5), (imm.toNat, 32)])

/-- Field lengths of ICMP (format R) from bit 31 up. -/
def layIcmp : List Nat := [10, 9, 9, 9, 4, 2, 1, 1, 1, 1, 3, 5, 5, 5]

/-- ICMP: the checks of R98 and the instruction. -/
def decIcmp (h : Hdr) (w : Nat) : Except Nat Instr :=
  match splitBits layIcmp w with
  | [z0, xa, xb, z3, xty, z5, z6, z7, z8, z9, xcmp, z11, xpd, z13] =>
    if z0 + z3 + z5 + z11 + z13 ≠ 0 then .error 0x001 else
    let pd := xpd
    if z6 ≠ 0 ∨ z7 ≠ 0 ∨ z8 ≠ 0 ∨ z9 ≠ 0 then .error 0x002 else
    match Ty.ofCode xty, Cmp.ofCode xcmp with
    | some ty, some cmp =>
      if !(ty.isInt) then .error 0x002 else
      if h.sb ≠ 0 then .error 0x006 else
      match Opd.ofCode xa, Opd.ofCode xb with
      | some a, some b => .ok (.icmp h ty cmp pd a b)
      | _, _ => .error 0x020
    | _, _ => .error 0x002
  | _ => .error 0x000

/-- The word of ICMP. -/
def encIcmp (h : Hdr) (ty : Ty) (cmp : Cmp) (pd : Nat) (a : Opd) (b : Opd) : Nat :=
  joinBits (hdrFields 0x019 h ++
    [(0, 10), (a.code, 9), (b.code, 9), (0, 9), (ty.code, 4), (0, 2), (0, 1), (0, 1), (0, 1), (0, 1), (cmp.code, 3), (0, 5), (pd, 5), (0, 5)])

/-- Field lengths of ICMP_IMM (format I) from bit 31 up. -/
def layIcmpImm : List Nat := [10, 9, 4, 5, 3, 2, 32]

/-- ICMP_IMM: the checks of R98 and the instruction. -/
def decIcmpImm (h : Hdr) (w : Nat) : Except Nat Instr :=
  match splitBits layIcmpImm w with
  | [z0, xa, xty, xpd, xcmp, z5, ximm] =>
    if z0 + z5 ≠ 0 then .error 0x001 else
    let pd := xpd
    let imm := BitVec.ofNat 32 ximm
    match Ty.ofCode xty, Cmp.ofCode xcmp with
    | some ty, some cmp =>
      if !(ty.isInt && immFits ty imm) then .error 0x002 else
      if h.sb ≠ 0 then .error 0x006 else
      match Opd.ofCode xa with
      | some a => .ok (.icmpImm h ty cmp pd a imm)
      | _ => .error 0x020
    | _, _ => .error 0x002
  | _ => .error 0x000

/-- The word of ICMP_IMM. -/
def encIcmpImm (h : Hdr) (ty : Ty) (cmp : Cmp) (pd : Nat) (a : Opd) (imm : BitVec 32) : Nat :=
  joinBits (hdrFields 0x059 h ++
    [(0, 10), (a.code, 9), (ty.code, 4), (pd, 5), (cmp.code, 3), (0, 2), (imm.toNat, 32)])

/-- Field lengths of LEA (format R) from bit 31 up. -/
def layLea : List Nat := [1, 9, 9, 9, 9, 4, 2, 1, 1, 1, 1, 3, 15]

/-- LEA: the checks of R98 and the instruction. -/
def decLea (h : Hdr) (w : Nat) : Except Nat Instr :=
  match splitBits layLea w with
  | [z0, xd, xa, xb, z4, xty, z6, z7, z8, z9, z10, xsh, z12] =>
    if z0 + z4 + z6 + z12 ≠ 0 then .error 0x001 else
    let sh := xsh
    if z7 ≠ 0 ∨ z8 ≠ 0 ∨ z9 ≠ 0 ∨ z10 ≠ 0 then .error 0x002 else
    match Ty.ofCode xty with
    | some ty =>
      if !(ty.isWord) then .error 0x002 else
      if h.sb ≠ 0 then .error 0x006 else
      match Opd.ofCode xd, Opd.ofCode xa, Opd.ofCode xb with
      | some d, some a, some b => .ok (.lea h ty sh d a b)
      | _, _, _ => .error 0x020
    | _ => .error 0x002
  | _ => .error 0x000

/-- The word of LEA. -/
def encLea (h : Hdr) (ty : Ty) (sh : Nat) (d : Opd) (a : Opd) (b : Opd) : Nat :=
  joinBits (hdrFields 0x01A h ++
    [(0, 1), (d.code, 9), (a.code, 9), (b.code, 9), (0, 9), (ty.code, 4), (0, 2), (0, 1), (0, 1), (0, 1), (0, 1), (sh, 3), (0, 15)])

/-- Field lengths of LEA_IMM (format I) from bit 31 up. -/
def layLeaImm : List Nat := [1, 9, 9, 4, 5, 3, 2, 32]

/-- LEA_IMM: the checks of R98 and the instruction. -/
def decLeaImm (h : Hdr) (w : Nat) : Except Nat Instr :=
  match splitBits layLeaImm w with
  | [z0, xd, xa, xty, z4, xsh, z6, ximm] =>
    if z0 + z4 + z6 ≠ 0 then .error 0x001 else
    let sh := xsh
    let imm := BitVec.ofNat 32 ximm
    match Ty.ofCode xty with
    | some ty =>
      if !(ty.isWord) then .error 0x002 else
      if h.sb ≠ 0 then .error 0x006 else
      match Opd.ofCode xd, Opd.ofCode xa with
      | some d, some a => .ok (.leaImm h ty sh d a imm)
      | _, _ => .error 0x020
    | _ => .error 0x002
  | _ => .error 0x000

/-- The word of LEA_IMM. -/
def encLeaImm (h : Hdr) (ty : Ty) (sh : Nat) (d : Opd) (a : Opd) (imm : BitVec 32) : Nat :=
  joinBits (hdrFields 0x05A h ++
    [(0, 1), (d.code, 9), (a.code, 9), (ty.code, 4), (0, 5), (sh, 3), (0, 2), (imm.toNat, 32)])

/-- Field lengths of IDOT4 (format R) from bit 31 up. -/
def layIdot4 : List Nat := [1, 9, 9, 9, 9, 4, 2, 1, 1, 1, 1, 1, 1, 16]

/-- IDOT4: the checks of R98 and the instruction. -/
def decIdot4 (h : Hdr) (w : Nat) : Except Nat Instr :=
  match splitBits layIdot4 w with
  | [z0, xd, xa, xb, xc, xty, z6, xsat, z8, z9, z10, xsgA, xsgB, z13] =>
    if z0 + z6 + z13 ≠ 0 then .error 0x001 else
    let sat := xsat == 1
    let sgA := xsgA == 1
    let sgB := xsgB == 1
    if z8 ≠ 0 ∨ z9 ≠ 0 ∨ z10 ≠ 0 then .error 0x002 else
    match Ty.ofCode xty with
    | some ty =>
      if !(ty.is32) then .error 0x002 else
      if h.sb ≠ 0 then .error 0x006 else
      match Opd.ofCode xd, Opd.ofCode xa, Opd.ofCode xb, Opd.ofCode xc with
      | some d, some a, some b, some c => .ok (.idot4 h ty sat sgA sgB d a b c)
      | _, _, _, _ => .error 0x020
    | _ => .error 0x002
  | _ => .error 0x000

/-- The word of IDOT4. -/
def encIdot4 (h : Hdr) (ty : Ty) (sat : Bool) (sgA : Bool) (sgB : Bool) (d : Opd) (a : Opd) (b : Opd) (c : Opd) : Nat :=
  joinBits (hdrFields 0x01B h ++
    [(0, 1), (d.code, 9), (a.code, 9), (b.code, 9), (c.code, 9), (ty.code, 4), (0, 2), (sat.toNat, 1), (0, 1), (0, 1), (0, 1), (sgA.toNat, 1), (sgB.toNat, 1), (0, 16)])

/-- Field lengths of UMOV (format R) from bit 31 up. -/
def layUmov : List Nat := [1, 9, 9, 18, 4, 2, 1, 1, 1, 1, 18]

/-- UMOV: the checks of R98 and the instruction. -/
def decUmov (h : Hdr) (w : Nat) : Except Nat Instr :=
  match splitBits layUmov w with
  | [z0, xd, xa, z3, xty, z5, z6, z7, z8, z9, z10] =>
    if z0 + z3 + z5 + z10 ≠ 0 then .error 0x001 else
    if z6 ≠ 0 ∨ z7 ≠ 0 ∨ z8 ≠ 0 ∨ z9 ≠ 0 then .error 0x002 else
    match Ty.ofCode xty with
    | some ty =>
      if !(ty.isWord) then .error 0x002 else
      if h.sb ≠ 0 then .error 0x006 else
      match Opd.ofCode xd, Opd.ofCode xa with
      | some d, some a => .ok (.umov h ty d a)
      | _, _ => .error 0x020
    | _ => .error 0x002
  | _ => .error 0x000

/-- The word of UMOV. -/
def encUmov (h : Hdr) (ty : Ty) (d : Opd) (a : Opd) : Nat :=
  joinBits (hdrFields 0x080 h ++
    [(0, 1), (d.code, 9), (a.code, 9), (0, 18), (ty.code, 4), (0, 2), (0, 1), (0, 1), (0, 1), (0, 1), (0, 18)])

/-- Field lengths of UMOV_IMM (format I) from bit 31 up. -/
def layUmovImm : List Nat := [1, 9, 9, 4, 10, 32]

/-- UMOV_IMM: the checks of R98 and the instruction. -/
def decUmovImm (h : Hdr) (w : Nat) : Except Nat Instr :=
  match splitBits layUmovImm w with
  | [z0, xd, z2, xty, z4, ximm] =>
    if z0 + z2 + z4 ≠ 0 then .error 0x001 else
    let imm := BitVec.ofNat 32 ximm
    match Ty.ofCode xty with
    | some ty =>
      if !(ty.isWord) then .error 0x002 else
      if h.sb ≠ 0 then .error 0x006 else
      match Opd.ofCode xd with
      | some d => .ok (.umovImm h ty d imm)
      | _ => .error 0x020
    | _ => .error 0x002
  | _ => .error 0x000

/-- The word of UMOV_IMM. -/
def encUmovImm (h : Hdr) (ty : Ty) (d : Opd) (imm : BitVec 32) : Nat :=
  joinBits (hdrFields 0x0A0 h ++
    [(0, 1), (d.code, 9), (0, 9), (ty.code, 4), (0, 10), (imm.toNat, 32)])

/-- Field lengths of UADD (format R) from bit 31 up. -/
def layUadd : List Nat := [1, 9, 9, 9, 9, 4, 2, 1, 1, 1, 1, 18]

/-- UADD: the checks of R98 and the instruction. -/
def decUadd (h : Hdr) (w : Nat) : Except Nat Instr :=
  match splitBits layUadd w with
  | [z0, xd, xa, xb, z4, xty, z6, xsat, xna, xnb, z10, z11] =>
    if z0 + z4 + z6 + z11 ≠ 0 then .error 0x001 else
    let sat := xsat == 1
    let na := xna == 1
    let nb := xnb == 1
    if z10 ≠ 0 then .error 0x002 else
    match Ty.ofCode xty with
    | some ty =>
      if !(ty.isWord) then .error 0x002 else
      if h.sb ≠ 0 then .error 0x006 else
      match Opd.ofCode xd, Opd.ofCode xa, Opd.ofCode xb with
      | some d, some a, some b => .ok (.uadd h ty sat na nb d a b)
      | _, _, _ => .error 0x020
    | _ => .error 0x002
  | _ => .error 0x000

/-- The word of UADD. -/
def encUadd (h : Hdr) (ty : Ty) (sat : Bool) (na : Bool) (nb : Bool) (d : Opd) (a : Opd) (b : Opd) : Nat :=
  joinBits (hdrFields 0x081 h ++
    [(0, 1), (d.code, 9), (a.code, 9), (b.code, 9), (0, 9), (ty.code, 4), (0, 2), (sat.toNat, 1), (na.toNat, 1), (nb.toNat, 1), (0, 1), (0, 18)])

/-- Field lengths of UADD_IMM (format I) from bit 31 up. -/
def layUaddImm : List Nat := [1, 9, 9, 4, 7, 1, 2, 32]

/-- UADD_IMM: the checks of R98 and the instruction. -/
def decUaddImm (h : Hdr) (w : Nat) : Except Nat Instr :=
  match splitBits layUaddImm w with
  | [z0, xd, xa, xty, z4, xsat, z6, ximm] =>
    if z0 + z4 + z6 ≠ 0 then .error 0x001 else
    let sat := xsat == 1
    let imm := BitVec.ofNat 32 ximm
    match Ty.ofCode xty with
    | some ty =>
      if !(ty.isWord) then .error 0x002 else
      if h.sb ≠ 0 then .error 0x006 else
      match Opd.ofCode xd, Opd.ofCode xa with
      | some d, some a => .ok (.uaddImm h ty sat d a imm)
      | _, _ => .error 0x020
    | _ => .error 0x002
  | _ => .error 0x000

/-- The word of UADD_IMM. -/
def encUaddImm (h : Hdr) (ty : Ty) (sat : Bool) (d : Opd) (a : Opd) (imm : BitVec 32) : Nat :=
  joinBits (hdrFields 0x0A1 h ++
    [(0, 1), (d.code, 9), (a.code, 9), (ty.code, 4), (0, 7), (sat.toNat, 1), (0, 2), (imm.toNat, 32)])

/-- Field lengths of USUB (format R) from bit 31 up. -/
def layUsub : List Nat := [1, 9, 9, 9, 9, 4, 2, 1, 1, 1, 1, 18]

/-- USUB: the checks of R98 and the instruction. -/
def decUsub (h : Hdr) (w : Nat) : Except Nat Instr :=
  match splitBits layUsub w with
  | [z0, xd, xa, xb, z4, xty, z6, xsat, z8, z9, z10, z11] =>
    if z0 + z4 + z6 + z11 ≠ 0 then .error 0x001 else
    let sat := xsat == 1
    if z8 ≠ 0 ∨ z9 ≠ 0 ∨ z10 ≠ 0 then .error 0x002 else
    match Ty.ofCode xty with
    | some ty =>
      if !(ty.isWord) then .error 0x002 else
      if h.sb ≠ 0 then .error 0x006 else
      match Opd.ofCode xd, Opd.ofCode xa, Opd.ofCode xb with
      | some d, some a, some b => .ok (.usub h ty sat d a b)
      | _, _, _ => .error 0x020
    | _ => .error 0x002
  | _ => .error 0x000

/-- The word of USUB. -/
def encUsub (h : Hdr) (ty : Ty) (sat : Bool) (d : Opd) (a : Opd) (b : Opd) : Nat :=
  joinBits (hdrFields 0x082 h ++
    [(0, 1), (d.code, 9), (a.code, 9), (b.code, 9), (0, 9), (ty.code, 4), (0, 2), (sat.toNat, 1), (0, 1), (0, 1), (0, 1), (0, 18)])

/-- Field lengths of USUB_IMM (format I) from bit 31 up. -/
def layUsubImm : List Nat := [1, 9, 9, 4, 7, 1, 2, 32]

/-- USUB_IMM: the checks of R98 and the instruction. -/
def decUsubImm (h : Hdr) (w : Nat) : Except Nat Instr :=
  match splitBits layUsubImm w with
  | [z0, xd, xa, xty, z4, xsat, z6, ximm] =>
    if z0 + z4 + z6 ≠ 0 then .error 0x001 else
    let sat := xsat == 1
    let imm := BitVec.ofNat 32 ximm
    match Ty.ofCode xty with
    | some ty =>
      if !(ty.isWord) then .error 0x002 else
      if h.sb ≠ 0 then .error 0x006 else
      match Opd.ofCode xd, Opd.ofCode xa with
      | some d, some a => .ok (.usubImm h ty sat d a imm)
      | _, _ => .error 0x020
    | _ => .error 0x002
  | _ => .error 0x000

/-- The word of USUB_IMM. -/
def encUsubImm (h : Hdr) (ty : Ty) (sat : Bool) (d : Opd) (a : Opd) (imm : BitVec 32) : Nat :=
  joinBits (hdrFields 0x0A2 h ++
    [(0, 1), (d.code, 9), (a.code, 9), (ty.code, 4), (0, 7), (sat.toNat, 1), (0, 2), (imm.toNat, 32)])

/-- Field lengths of UMUL (format R) from bit 31 up. -/
def layUmul : List Nat := [1, 9, 9, 9, 9, 4, 2, 1, 1, 1, 1, 18]

/-- UMUL: the checks of R98 and the instruction. -/
def decUmul (h : Hdr) (w : Nat) : Except Nat Instr :=
  match splitBits layUmul w with
  | [z0, xd, xa, xb, z4, xty, z6, xsat, z8, z9, z10, z11] =>
    if z0 + z4 + z6 + z11 ≠ 0 then .error 0x001 else
    let sat := xsat == 1
    if z8 ≠ 0 ∨ z9 ≠ 0 ∨ z10 ≠ 0 then .error 0x002 else
    match Ty.ofCode xty with
    | some ty =>
      if !(ty.isWord) then .error 0x002 else
      if h.sb ≠ 0 then .error 0x006 else
      match Opd.ofCode xd, Opd.ofCode xa, Opd.ofCode xb with
      | some d, some a, some b => .ok (.umul h ty sat d a b)
      | _, _, _ => .error 0x020
    | _ => .error 0x002
  | _ => .error 0x000

/-- The word of UMUL. -/
def encUmul (h : Hdr) (ty : Ty) (sat : Bool) (d : Opd) (a : Opd) (b : Opd) : Nat :=
  joinBits (hdrFields 0x083 h ++
    [(0, 1), (d.code, 9), (a.code, 9), (b.code, 9), (0, 9), (ty.code, 4), (0, 2), (sat.toNat, 1), (0, 1), (0, 1), (0, 1), (0, 18)])

/-- Field lengths of UMUL_IMM (format I) from bit 31 up. -/
def layUmulImm : List Nat := [1, 9, 9, 4, 7, 1, 2, 32]

/-- UMUL_IMM: the checks of R98 and the instruction. -/
def decUmulImm (h : Hdr) (w : Nat) : Except Nat Instr :=
  match splitBits layUmulImm w with
  | [z0, xd, xa, xty, z4, xsat, z6, ximm] =>
    if z0 + z4 + z6 ≠ 0 then .error 0x001 else
    let sat := xsat == 1
    let imm := BitVec.ofNat 32 ximm
    match Ty.ofCode xty with
    | some ty =>
      if !(ty.isWord) then .error 0x002 else
      if h.sb ≠ 0 then .error 0x006 else
      match Opd.ofCode xd, Opd.ofCode xa with
      | some d, some a => .ok (.umulImm h ty sat d a imm)
      | _, _ => .error 0x020
    | _ => .error 0x002
  | _ => .error 0x000

/-- The word of UMUL_IMM. -/
def encUmulImm (h : Hdr) (ty : Ty) (sat : Bool) (d : Opd) (a : Opd) (imm : BitVec 32) : Nat :=
  joinBits (hdrFields 0x0A3 h ++
    [(0, 1), (d.code, 9), (a.code, 9), (ty.code, 4), (0, 7), (sat.toNat, 1), (0, 2), (imm.toNat, 32)])

/-- Field lengths of UMAD (format R) from bit 31 up. -/
def layUmad : List Nat := [1, 9, 9, 9, 9, 4, 2, 1, 1, 1, 1, 18]

/-- UMAD: the checks of R98 and the instruction. -/
def decUmad (h : Hdr) (w : Nat) : Except Nat Instr :=
  match splitBits layUmad w with
  | [z0, xd, xa, xb, xc, xty, z6, xsat, z8, z9, xnc, z11] =>
    if z0 + z6 + z11 ≠ 0 then .error 0x001 else
    let sat := xsat == 1
    let nc := xnc == 1
    if z8 ≠ 0 ∨ z9 ≠ 0 then .error 0x002 else
    match Ty.ofCode xty with
    | some ty =>
      if !(ty.isWord) then .error 0x002 else
      if h.sb ≠ 0 then .error 0x006 else
      match Opd.ofCode xd, Opd.ofCode xa, Opd.ofCode xb, Opd.ofCode xc with
      | some d, some a, some b, some c => .ok (.umad h ty sat nc d a b c)
      | _, _, _, _ => .error 0x020
    | _ => .error 0x002
  | _ => .error 0x000

/-- The word of UMAD. -/
def encUmad (h : Hdr) (ty : Ty) (sat : Bool) (nc : Bool) (d : Opd) (a : Opd) (b : Opd) (c : Opd) : Nat :=
  joinBits (hdrFields 0x084 h ++
    [(0, 1), (d.code, 9), (a.code, 9), (b.code, 9), (c.code, 9), (ty.code, 4), (0, 2), (sat.toNat, 1), (0, 1), (0, 1), (nc.toNat, 1), (0, 18)])

/-- Field lengths of UMAD_IMM (format I) from bit 31 up. -/
def layUmadImm : List Nat := [1, 9, 9, 4, 7, 1, 2, 32]

/-- UMAD_IMM: the checks of R98 and the instruction. -/
def decUmadImm (h : Hdr) (w : Nat) : Except Nat Instr :=
  match splitBits layUmadImm w with
  | [z0, xd, xa, xty, z4, xsat, z6, ximm] =>
    if z0 + z4 + z6 ≠ 0 then .error 0x001 else
    let sat := xsat == 1
    let imm := BitVec.ofNat 32 ximm
    match Ty.ofCode xty with
    | some ty =>
      if !(ty.isWord) then .error 0x002 else
      if h.sb ≠ 0 then .error 0x006 else
      match Opd.ofCode xd, Opd.ofCode xa with
      | some d, some a => .ok (.umadImm h ty sat d a imm)
      | _, _ => .error 0x020
    | _ => .error 0x002
  | _ => .error 0x000

/-- The word of UMAD_IMM. -/
def encUmadImm (h : Hdr) (ty : Ty) (sat : Bool) (d : Opd) (a : Opd) (imm : BitVec 32) : Nat :=
  joinBits (hdrFields 0x0A4 h ++
    [(0, 1), (d.code, 9), (a.code, 9), (ty.code, 4), (0, 7), (sat.toNat, 1), (0, 2), (imm.toNat, 32)])

/-- Field lengths of UMIN (format R) from bit 31 up. -/
def layUmin : List Nat := [1, 9, 9, 9, 9, 4, 2, 1, 1, 1, 1, 18]

/-- UMIN: the checks of R98 and the instruction. -/
def decUmin (h : Hdr) (w : Nat) : Except Nat Instr :=
  match splitBits layUmin w with
  | [z0, xd, xa, xb, z4, xty, z6, z7, z8, z9, z10, z11] =>
    if z0 + z4 + z6 + z11 ≠ 0 then .error 0x001 else
    if z7 ≠ 0 ∨ z8 ≠ 0 ∨ z9 ≠ 0 ∨ z10 ≠ 0 then .error 0x002 else
    match Ty.ofCode xty with
    | some ty =>
      if !(ty.isWord) then .error 0x002 else
      if h.sb ≠ 0 then .error 0x006 else
      match Opd.ofCode xd, Opd.ofCode xa, Opd.ofCode xb with
      | some d, some a, some b => .ok (.umin h ty d a b)
      | _, _, _ => .error 0x020
    | _ => .error 0x002
  | _ => .error 0x000

/-- The word of UMIN. -/
def encUmin (h : Hdr) (ty : Ty) (d : Opd) (a : Opd) (b : Opd) : Nat :=
  joinBits (hdrFields 0x085 h ++
    [(0, 1), (d.code, 9), (a.code, 9), (b.code, 9), (0, 9), (ty.code, 4), (0, 2), (0, 1), (0, 1), (0, 1), (0, 1), (0, 18)])

/-- Field lengths of UMIN_IMM (format I) from bit 31 up. -/
def layUminImm : List Nat := [1, 9, 9, 4, 10, 32]

/-- UMIN_IMM: the checks of R98 and the instruction. -/
def decUminImm (h : Hdr) (w : Nat) : Except Nat Instr :=
  match splitBits layUminImm w with
  | [z0, xd, xa, xty, z4, ximm] =>
    if z0 + z4 ≠ 0 then .error 0x001 else
    let imm := BitVec.ofNat 32 ximm
    match Ty.ofCode xty with
    | some ty =>
      if !(ty.isWord) then .error 0x002 else
      if h.sb ≠ 0 then .error 0x006 else
      match Opd.ofCode xd, Opd.ofCode xa with
      | some d, some a => .ok (.uminImm h ty d a imm)
      | _, _ => .error 0x020
    | _ => .error 0x002
  | _ => .error 0x000

/-- The word of UMIN_IMM. -/
def encUminImm (h : Hdr) (ty : Ty) (d : Opd) (a : Opd) (imm : BitVec 32) : Nat :=
  joinBits (hdrFields 0x0A5 h ++
    [(0, 1), (d.code, 9), (a.code, 9), (ty.code, 4), (0, 10), (imm.toNat, 32)])

/-- Field lengths of UMAX (format R) from bit 31 up. -/
def layUmax : List Nat := [1, 9, 9, 9, 9, 4, 2, 1, 1, 1, 1, 18]

/-- UMAX: the checks of R98 and the instruction. -/
def decUmax (h : Hdr) (w : Nat) : Except Nat Instr :=
  match splitBits layUmax w with
  | [z0, xd, xa, xb, z4, xty, z6, z7, z8, z9, z10, z11] =>
    if z0 + z4 + z6 + z11 ≠ 0 then .error 0x001 else
    if z7 ≠ 0 ∨ z8 ≠ 0 ∨ z9 ≠ 0 ∨ z10 ≠ 0 then .error 0x002 else
    match Ty.ofCode xty with
    | some ty =>
      if !(ty.isWord) then .error 0x002 else
      if h.sb ≠ 0 then .error 0x006 else
      match Opd.ofCode xd, Opd.ofCode xa, Opd.ofCode xb with
      | some d, some a, some b => .ok (.umax h ty d a b)
      | _, _, _ => .error 0x020
    | _ => .error 0x002
  | _ => .error 0x000

/-- The word of UMAX. -/
def encUmax (h : Hdr) (ty : Ty) (d : Opd) (a : Opd) (b : Opd) : Nat :=
  joinBits (hdrFields 0x086 h ++
    [(0, 1), (d.code, 9), (a.code, 9), (b.code, 9), (0, 9), (ty.code, 4), (0, 2), (0, 1), (0, 1), (0, 1), (0, 1), (0, 18)])

/-- Field lengths of UMAX_IMM (format I) from bit 31 up. -/
def layUmaxImm : List Nat := [1, 9, 9, 4, 10, 32]

/-- UMAX_IMM: the checks of R98 and the instruction. -/
def decUmaxImm (h : Hdr) (w : Nat) : Except Nat Instr :=
  match splitBits layUmaxImm w with
  | [z0, xd, xa, xty, z4, ximm] =>
    if z0 + z4 ≠ 0 then .error 0x001 else
    let imm := BitVec.ofNat 32 ximm
    match Ty.ofCode xty with
    | some ty =>
      if !(ty.isWord) then .error 0x002 else
      if h.sb ≠ 0 then .error 0x006 else
      match Opd.ofCode xd, Opd.ofCode xa with
      | some d, some a => .ok (.umaxImm h ty d a imm)
      | _, _ => .error 0x020
    | _ => .error 0x002
  | _ => .error 0x000

/-- The word of UMAX_IMM. -/
def encUmaxImm (h : Hdr) (ty : Ty) (d : Opd) (a : Opd) (imm : BitVec 32) : Nat :=
  joinBits (hdrFields 0x0A6 h ++
    [(0, 1), (d.code, 9), (a.code, 9), (ty.code, 4), (0, 10), (imm.toNat, 32)])

/-- Field lengths of USHL (format R) from bit 31 up. -/
def layUshl : List Nat := [1, 9, 9, 9, 9, 4, 2, 1, 1, 1, 1, 18]

/-- USHL: the checks of R98 and the instruction. -/
def decUshl (h : Hdr) (w : Nat) : Except Nat Instr :=
  match splitBits layUshl w with
  | [z0, xd, xa, xb, z4, xty, z6, xsat, z8, z9, z10, z11] =>
    if z0 + z4 + z6 + z11 ≠ 0 then .error 0x001 else
    let sat := xsat == 1
    if z8 ≠ 0 ∨ z9 ≠ 0 ∨ z10 ≠ 0 then .error 0x002 else
    match Ty.ofCode xty with
    | some ty =>
      if !(ty.isWord) then .error 0x002 else
      if h.sb ≠ 0 then .error 0x006 else
      match Opd.ofCode xd, Opd.ofCode xa, Opd.ofCode xb with
      | some d, some a, some b => .ok (.ushl h ty sat d a b)
      | _, _, _ => .error 0x020
    | _ => .error 0x002
  | _ => .error 0x000

/-- The word of USHL. -/
def encUshl (h : Hdr) (ty : Ty) (sat : Bool) (d : Opd) (a : Opd) (b : Opd) : Nat :=
  joinBits (hdrFields 0x087 h ++
    [(0, 1), (d.code, 9), (a.code, 9), (b.code, 9), (0, 9), (ty.code, 4), (0, 2), (sat.toNat, 1), (0, 1), (0, 1), (0, 1), (0, 18)])

/-- Field lengths of USHL_IMM (format I) from bit 31 up. -/
def layUshlImm : List Nat := [1, 9, 9, 4, 7, 1, 2, 32]

/-- USHL_IMM: the checks of R98 and the instruction. -/
def decUshlImm (h : Hdr) (w : Nat) : Except Nat Instr :=
  match splitBits layUshlImm w with
  | [z0, xd, xa, xty, z4, xsat, z6, ximm] =>
    if z0 + z4 + z6 ≠ 0 then .error 0x001 else
    let sat := xsat == 1
    let imm := BitVec.ofNat 32 ximm
    match Ty.ofCode xty with
    | some ty =>
      if !(ty.isWord) then .error 0x002 else
      if h.sb ≠ 0 then .error 0x006 else
      match Opd.ofCode xd, Opd.ofCode xa with
      | some d, some a => .ok (.ushlImm h ty sat d a imm)
      | _, _ => .error 0x020
    | _ => .error 0x002
  | _ => .error 0x000

/-- The word of USHL_IMM. -/
def encUshlImm (h : Hdr) (ty : Ty) (sat : Bool) (d : Opd) (a : Opd) (imm : BitVec 32) : Nat :=
  joinBits (hdrFields 0x0A7 h ++
    [(0, 1), (d.code, 9), (a.code, 9), (ty.code, 4), (0, 7), (sat.toNat, 1), (0, 2), (imm.toNat, 32)])

/-- Field lengths of USHR (format R) from bit 31 up. -/
def layUshr : List Nat := [1, 9, 9, 9, 9, 4, 2, 1, 1, 1, 1, 18]

/-- USHR: the checks of R98 and the instruction. -/
def decUshr (h : Hdr) (w : Nat) : Except Nat Instr :=
  match splitBits layUshr w with
  | [z0, xd, xa, xb, z4, xty, z6, z7, z8, z9, z10, z11] =>
    if z0 + z4 + z6 + z11 ≠ 0 then .error 0x001 else
    if z7 ≠ 0 ∨ z8 ≠ 0 ∨ z9 ≠ 0 ∨ z10 ≠ 0 then .error 0x002 else
    match Ty.ofCode xty with
    | some ty =>
      if !(ty.isWord) then .error 0x002 else
      if h.sb ≠ 0 then .error 0x006 else
      match Opd.ofCode xd, Opd.ofCode xa, Opd.ofCode xb with
      | some d, some a, some b => .ok (.ushr h ty d a b)
      | _, _, _ => .error 0x020
    | _ => .error 0x002
  | _ => .error 0x000

/-- The word of USHR. -/
def encUshr (h : Hdr) (ty : Ty) (d : Opd) (a : Opd) (b : Opd) : Nat :=
  joinBits (hdrFields 0x088 h ++
    [(0, 1), (d.code, 9), (a.code, 9), (b.code, 9), (0, 9), (ty.code, 4), (0, 2), (0, 1), (0, 1), (0, 1), (0, 1), (0, 18)])

/-- Field lengths of USHR_IMM (format I) from bit 31 up. -/
def layUshrImm : List Nat := [1, 9, 9, 4, 10, 32]

/-- USHR_IMM: the checks of R98 and the instruction. -/
def decUshrImm (h : Hdr) (w : Nat) : Except Nat Instr :=
  match splitBits layUshrImm w with
  | [z0, xd, xa, xty, z4, ximm] =>
    if z0 + z4 ≠ 0 then .error 0x001 else
    let imm := BitVec.ofNat 32 ximm
    match Ty.ofCode xty with
    | some ty =>
      if !(ty.isWord) then .error 0x002 else
      if h.sb ≠ 0 then .error 0x006 else
      match Opd.ofCode xd, Opd.ofCode xa with
      | some d, some a => .ok (.ushrImm h ty d a imm)
      | _, _ => .error 0x020
    | _ => .error 0x002
  | _ => .error 0x000

/-- The word of USHR_IMM. -/
def encUshrImm (h : Hdr) (ty : Ty) (d : Opd) (a : Opd) (imm : BitVec 32) : Nat :=
  joinBits (hdrFields 0x0A8 h ++
    [(0, 1), (d.code, 9), (a.code, 9), (ty.code, 4), (0, 10), (imm.toNat, 32)])

/-- Field lengths of USAR (format R) from bit 31 up. -/
def layUsar : List Nat := [1, 9, 9, 9, 9, 4, 2, 1, 1, 1, 1, 18]

/-- USAR: the checks of R98 and the instruction. -/
def decUsar (h : Hdr) (w : Nat) : Except Nat Instr :=
  match splitBits layUsar w with
  | [z0, xd, xa, xb, z4, xty, z6, z7, z8, z9, z10, z11] =>
    if z0 + z4 + z6 + z11 ≠ 0 then .error 0x001 else
    if z7 ≠ 0 ∨ z8 ≠ 0 ∨ z9 ≠ 0 ∨ z10 ≠ 0 then .error 0x002 else
    match Ty.ofCode xty with
    | some ty =>
      if !(ty.isWord) then .error 0x002 else
      if h.sb ≠ 0 then .error 0x006 else
      match Opd.ofCode xd, Opd.ofCode xa, Opd.ofCode xb with
      | some d, some a, some b => .ok (.usar h ty d a b)
      | _, _, _ => .error 0x020
    | _ => .error 0x002
  | _ => .error 0x000

/-- The word of USAR. -/
def encUsar (h : Hdr) (ty : Ty) (d : Opd) (a : Opd) (b : Opd) : Nat :=
  joinBits (hdrFields 0x089 h ++
    [(0, 1), (d.code, 9), (a.code, 9), (b.code, 9), (0, 9), (ty.code, 4), (0, 2), (0, 1), (0, 1), (0, 1), (0, 1), (0, 18)])

/-- Field lengths of USAR_IMM (format I) from bit 31 up. -/
def layUsarImm : List Nat := [1, 9, 9, 4, 10, 32]

/-- USAR_IMM: the checks of R98 and the instruction. -/
def decUsarImm (h : Hdr) (w : Nat) : Except Nat Instr :=
  match splitBits layUsarImm w with
  | [z0, xd, xa, xty, z4, ximm] =>
    if z0 + z4 ≠ 0 then .error 0x001 else
    let imm := BitVec.ofNat 32 ximm
    match Ty.ofCode xty with
    | some ty =>
      if !(ty.isWord) then .error 0x002 else
      if h.sb ≠ 0 then .error 0x006 else
      match Opd.ofCode xd, Opd.ofCode xa with
      | some d, some a => .ok (.usarImm h ty d a imm)
      | _, _ => .error 0x020
    | _ => .error 0x002
  | _ => .error 0x000

/-- The word of USAR_IMM. -/
def encUsarImm (h : Hdr) (ty : Ty) (d : Opd) (a : Opd) (imm : BitVec 32) : Nat :=
  joinBits (hdrFields 0x0A9 h ++
    [(0, 1), (d.code, 9), (a.code, 9), (ty.code, 4), (0, 10), (imm.toNat, 32)])

/-- Field lengths of UAND (format R) from bit 31 up. -/
def layUand : List Nat := [1, 9, 9, 9, 9, 4, 2, 1, 1, 1, 1, 18]

/-- UAND: the checks of R98 and the instruction. -/
def decUand (h : Hdr) (w : Nat) : Except Nat Instr :=
  match splitBits layUand w with
  | [z0, xd, xa, xb, z4, xty, z6, z7, xna, xnb, z10, z11] =>
    if z0 + z4 + z6 + z11 ≠ 0 then .error 0x001 else
    let na := xna == 1
    let nb := xnb == 1
    if z7 ≠ 0 ∨ z10 ≠ 0 then .error 0x002 else
    match Ty.ofCode xty with
    | some ty =>
      if !(ty.isWord) then .error 0x002 else
      if h.sb ≠ 0 then .error 0x006 else
      match Opd.ofCode xd, Opd.ofCode xa, Opd.ofCode xb with
      | some d, some a, some b => .ok (.uand h ty na nb d a b)
      | _, _, _ => .error 0x020
    | _ => .error 0x002
  | _ => .error 0x000

/-- The word of UAND. -/
def encUand (h : Hdr) (ty : Ty) (na : Bool) (nb : Bool) (d : Opd) (a : Opd) (b : Opd) : Nat :=
  joinBits (hdrFields 0x08A h ++
    [(0, 1), (d.code, 9), (a.code, 9), (b.code, 9), (0, 9), (ty.code, 4), (0, 2), (0, 1), (na.toNat, 1), (nb.toNat, 1), (0, 1), (0, 18)])

/-- Field lengths of UAND_IMM (format I) from bit 31 up. -/
def layUandImm : List Nat := [1, 9, 9, 4, 10, 32]

/-- UAND_IMM: the checks of R98 and the instruction. -/
def decUandImm (h : Hdr) (w : Nat) : Except Nat Instr :=
  match splitBits layUandImm w with
  | [z0, xd, xa, xty, z4, ximm] =>
    if z0 + z4 ≠ 0 then .error 0x001 else
    let imm := BitVec.ofNat 32 ximm
    match Ty.ofCode xty with
    | some ty =>
      if !(ty.isWord) then .error 0x002 else
      if h.sb ≠ 0 then .error 0x006 else
      match Opd.ofCode xd, Opd.ofCode xa with
      | some d, some a => .ok (.uandImm h ty d a imm)
      | _, _ => .error 0x020
    | _ => .error 0x002
  | _ => .error 0x000

/-- The word of UAND_IMM. -/
def encUandImm (h : Hdr) (ty : Ty) (d : Opd) (a : Opd) (imm : BitVec 32) : Nat :=
  joinBits (hdrFields 0x0AA h ++
    [(0, 1), (d.code, 9), (a.code, 9), (ty.code, 4), (0, 10), (imm.toNat, 32)])

/-- Field lengths of UOR (format R) from bit 31 up. -/
def layUor : List Nat := [1, 9, 9, 9, 9, 4, 2, 1, 1, 1, 1, 18]

/-- UOR: the checks of R98 and the instruction. -/
def decUor (h : Hdr) (w : Nat) : Except Nat Instr :=
  match splitBits layUor w with
  | [z0, xd, xa, xb, z4, xty, z6, z7, xna, xnb, z10, z11] =>
    if z0 + z4 + z6 + z11 ≠ 0 then .error 0x001 else
    let na := xna == 1
    let nb := xnb == 1
    if z7 ≠ 0 ∨ z10 ≠ 0 then .error 0x002 else
    match Ty.ofCode xty with
    | some ty =>
      if !(ty.isWord) then .error 0x002 else
      if h.sb ≠ 0 then .error 0x006 else
      match Opd.ofCode xd, Opd.ofCode xa, Opd.ofCode xb with
      | some d, some a, some b => .ok (.uor h ty na nb d a b)
      | _, _, _ => .error 0x020
    | _ => .error 0x002
  | _ => .error 0x000

/-- The word of UOR. -/
def encUor (h : Hdr) (ty : Ty) (na : Bool) (nb : Bool) (d : Opd) (a : Opd) (b : Opd) : Nat :=
  joinBits (hdrFields 0x08B h ++
    [(0, 1), (d.code, 9), (a.code, 9), (b.code, 9), (0, 9), (ty.code, 4), (0, 2), (0, 1), (na.toNat, 1), (nb.toNat, 1), (0, 1), (0, 18)])

/-- Field lengths of UOR_IMM (format I) from bit 31 up. -/
def layUorImm : List Nat := [1, 9, 9, 4, 10, 32]

/-- UOR_IMM: the checks of R98 and the instruction. -/
def decUorImm (h : Hdr) (w : Nat) : Except Nat Instr :=
  match splitBits layUorImm w with
  | [z0, xd, xa, xty, z4, ximm] =>
    if z0 + z4 ≠ 0 then .error 0x001 else
    let imm := BitVec.ofNat 32 ximm
    match Ty.ofCode xty with
    | some ty =>
      if !(ty.isWord) then .error 0x002 else
      if h.sb ≠ 0 then .error 0x006 else
      match Opd.ofCode xd, Opd.ofCode xa with
      | some d, some a => .ok (.uorImm h ty d a imm)
      | _, _ => .error 0x020
    | _ => .error 0x002
  | _ => .error 0x000

/-- The word of UOR_IMM. -/
def encUorImm (h : Hdr) (ty : Ty) (d : Opd) (a : Opd) (imm : BitVec 32) : Nat :=
  joinBits (hdrFields 0x0AB h ++
    [(0, 1), (d.code, 9), (a.code, 9), (ty.code, 4), (0, 10), (imm.toNat, 32)])

/-- Field lengths of UXOR (format R) from bit 31 up. -/
def layUxor : List Nat := [1, 9, 9, 9, 9, 4, 2, 1, 1, 1, 1, 18]

/-- UXOR: the checks of R98 and the instruction. -/
def decUxor (h : Hdr) (w : Nat) : Except Nat Instr :=
  match splitBits layUxor w with
  | [z0, xd, xa, xb, z4, xty, z6, z7, xna, xnb, z10, z11] =>
    if z0 + z4 + z6 + z11 ≠ 0 then .error 0x001 else
    let na := xna == 1
    let nb := xnb == 1
    if z7 ≠ 0 ∨ z10 ≠ 0 then .error 0x002 else
    match Ty.ofCode xty with
    | some ty =>
      if !(ty.isWord) then .error 0x002 else
      if h.sb ≠ 0 then .error 0x006 else
      match Opd.ofCode xd, Opd.ofCode xa, Opd.ofCode xb with
      | some d, some a, some b => .ok (.uxor h ty na nb d a b)
      | _, _, _ => .error 0x020
    | _ => .error 0x002
  | _ => .error 0x000

/-- The word of UXOR. -/
def encUxor (h : Hdr) (ty : Ty) (na : Bool) (nb : Bool) (d : Opd) (a : Opd) (b : Opd) : Nat :=
  joinBits (hdrFields 0x08C h ++
    [(0, 1), (d.code, 9), (a.code, 9), (b.code, 9), (0, 9), (ty.code, 4), (0, 2), (0, 1), (na.toNat, 1), (nb.toNat, 1), (0, 1), (0, 18)])

/-- Field lengths of UXOR_IMM (format I) from bit 31 up. -/
def layUxorImm : List Nat := [1, 9, 9, 4, 10, 32]

/-- UXOR_IMM: the checks of R98 and the instruction. -/
def decUxorImm (h : Hdr) (w : Nat) : Except Nat Instr :=
  match splitBits layUxorImm w with
  | [z0, xd, xa, xty, z4, ximm] =>
    if z0 + z4 ≠ 0 then .error 0x001 else
    let imm := BitVec.ofNat 32 ximm
    match Ty.ofCode xty with
    | some ty =>
      if !(ty.isWord) then .error 0x002 else
      if h.sb ≠ 0 then .error 0x006 else
      match Opd.ofCode xd, Opd.ofCode xa with
      | some d, some a => .ok (.uxorImm h ty d a imm)
      | _, _ => .error 0x020
    | _ => .error 0x002
  | _ => .error 0x000

/-- The word of UXOR_IMM. -/
def encUxorImm (h : Hdr) (ty : Ty) (d : Opd) (a : Opd) (imm : BitVec 32) : Nat :=
  joinBits (hdrFields 0x0AC h ++
    [(0, 1), (d.code, 9), (a.code, 9), (ty.code, 4), (0, 10), (imm.toNat, 32)])

/-- Field lengths of UCMP (format R) from bit 31 up. -/
def layUcmp : List Nat := [10, 9, 9, 9, 4, 2, 1, 1, 1, 1, 3, 5, 5, 5]

/-- UCMP: the checks of R98 and the instruction. -/
def decUcmp (h : Hdr) (w : Nat) : Except Nat Instr :=
  match splitBits layUcmp w with
  | [z0, xa, xb, z3, xty, z5, z6, z7, z8, z9, xcmp, z11, xpd, z13] =>
    if z0 + z3 + z5 + z11 + z13 ≠ 0 then .error 0x001 else
    let pd := xpd
    if z6 ≠ 0 ∨ z7 ≠ 0 ∨ z8 ≠ 0 ∨ z9 ≠ 0 then .error 0x002 else
    match Ty.ofCode xty, Cmp.ofCode xcmp with
    | some ty, some cmp =>
      if !(ty.isWord) then .error 0x002 else
      if h.sb ≠ 0 then .error 0x006 else
      match Opd.ofCode xa, Opd.ofCode xb with
      | some a, some b => .ok (.ucmp h ty cmp pd a b)
      | _, _ => .error 0x020
    | _, _ => .error 0x002
  | _ => .error 0x000

/-- The word of UCMP. -/
def encUcmp (h : Hdr) (ty : Ty) (cmp : Cmp) (pd : Nat) (a : Opd) (b : Opd) : Nat :=
  joinBits (hdrFields 0x08D h ++
    [(0, 10), (a.code, 9), (b.code, 9), (0, 9), (ty.code, 4), (0, 2), (0, 1), (0, 1), (0, 1), (0, 1), (cmp.code, 3), (0, 5), (pd, 5), (0, 5)])

/-- Field lengths of UCMP_IMM (format I) from bit 31 up. -/
def layUcmpImm : List Nat := [10, 9, 4, 5, 3, 2, 32]

/-- UCMP_IMM: the checks of R98 and the instruction. -/
def decUcmpImm (h : Hdr) (w : Nat) : Except Nat Instr :=
  match splitBits layUcmpImm w with
  | [z0, xa, xty, xpd, xcmp, z5, ximm] =>
    if z0 + z5 ≠ 0 then .error 0x001 else
    let pd := xpd
    let imm := BitVec.ofNat 32 ximm
    match Ty.ofCode xty, Cmp.ofCode xcmp with
    | some ty, some cmp =>
      if !(ty.isWord) then .error 0x002 else
      if h.sb ≠ 0 then .error 0x006 else
      match Opd.ofCode xa with
      | some a => .ok (.ucmpImm h ty cmp pd a imm)
      | _ => .error 0x020
    | _, _ => .error 0x002
  | _ => .error 0x000

/-- The word of UCMP_IMM. -/
def encUcmpImm (h : Hdr) (ty : Ty) (cmp : Cmp) (pd : Nat) (a : Opd) (imm : BitVec 32) : Nat :=
  joinBits (hdrFields 0x0AD h ++
    [(0, 10), (a.code, 9), (ty.code, 4), (pd, 5), (cmp.code, 3), (0, 2), (imm.toNat, 32)])

/-- Field lengths of ULEA (format R) from bit 31 up. -/
def layUlea : List Nat := [1, 9, 9, 9, 9, 4, 2, 1, 1, 1, 1, 3, 15]

/-- ULEA: the checks of R98 and the instruction. -/
def decUlea (h : Hdr) (w : Nat) : Except Nat Instr :=
  match splitBits layUlea w with
  | [z0, xd, xa, xb, z4, xty, z6, z7, z8, z9, z10, xsh, z12] =>
    if z0 + z4 + z6 + z12 ≠ 0 then .error 0x001 else
    let sh := xsh
    if z7 ≠ 0 ∨ z8 ≠ 0 ∨ z9 ≠ 0 ∨ z10 ≠ 0 then .error 0x002 else
    match Ty.ofCode xty with
    | some ty =>
      if !(ty.isWord) then .error 0x002 else
      if h.sb ≠ 0 then .error 0x006 else
      match Opd.ofCode xd, Opd.ofCode xa, Opd.ofCode xb with
      | some d, some a, some b => .ok (.ulea h ty sh d a b)
      | _, _, _ => .error 0x020
    | _ => .error 0x002
  | _ => .error 0x000

/-- The word of ULEA. -/
def encUlea (h : Hdr) (ty : Ty) (sh : Nat) (d : Opd) (a : Opd) (b : Opd) : Nat :=
  joinBits (hdrFields 0x08E h ++
    [(0, 1), (d.code, 9), (a.code, 9), (b.code, 9), (0, 9), (ty.code, 4), (0, 2), (0, 1), (0, 1), (0, 1), (0, 1), (sh, 3), (0, 15)])

/-- Field lengths of ULEA_IMM (format I) from bit 31 up. -/
def layUleaImm : List Nat := [1, 9, 9, 4, 5, 3, 2, 32]

/-- ULEA_IMM: the checks of R98 and the instruction. -/
def decUleaImm (h : Hdr) (w : Nat) : Except Nat Instr :=
  match splitBits layUleaImm w with
  | [z0, xd, xa, xty, z4, xsh, z6, ximm] =>
    if z0 + z4 + z6 ≠ 0 then .error 0x001 else
    let sh := xsh
    let imm := BitVec.ofNat 32 ximm
    match Ty.ofCode xty with
    | some ty =>
      if !(ty.isWord) then .error 0x002 else
      if h.sb ≠ 0 then .error 0x006 else
      match Opd.ofCode xd, Opd.ofCode xa with
      | some d, some a => .ok (.uleaImm h ty sh d a imm)
      | _, _ => .error 0x020
    | _ => .error 0x002
  | _ => .error 0x000

/-- The word of ULEA_IMM. -/
def encUleaImm (h : Hdr) (ty : Ty) (sh : Nat) (d : Opd) (a : Opd) (imm : BitVec 32) : Nat :=
  joinBits (hdrFields 0x0AE h ++
    [(0, 1), (d.code, 9), (a.code, 9), (ty.code, 4), (0, 5), (sh, 3), (0, 2), (imm.toNat, 32)])

/-- Field lengths of PLUT3 (format R) from bit 31 up. -/
def layPlut3 : List Nat := [10, 5, 4, 5, 4, 5, 4, 4, 2, 1, 1, 1, 1, 8, 5, 5]

/-- PLUT3: the checks of R98 and the instruction. -/
def decPlut3 (h : Hdr) (w : Nat) : Except Nat Instr :=
  match splitBits layPlut3 w with
  | [z0, xpa, z2, xpb, z4, xpc, z6, z7, z8, z9, xna, xnb, xnc, xlut, xpd, z15] =>
    if z0 + z2 + z4 + z6 + z8 + z15 ≠ 0 then .error 0x001 else
    let lut := BitVec.ofNat 8 xlut
    let na := xna == 1
    let nb := xnb == 1
    let nc := xnc == 1
    let pd := xpd
    let pa := xpa
    let pb := xpb
    let pc := xpc
    if z7 ≠ 0 ∨ z9 ≠ 0 then .error 0x002 else
    if h.sb ≠ 0 then .error 0x006 else
    .ok (.plut3 h lut na nb nc pd pa pb pc)
  | _ => .error 0x000

/-- The word of PLUT3. -/
def encPlut3 (h : Hdr) (lut : BitVec 8) (na : Bool) (nb : Bool) (nc : Bool) (pd : Nat) (pa : Nat) (pb : Nat) (pc : Nat) : Nat :=
  joinBits (hdrFields 0x0C0 h ++
    [(0, 10), (pa, 5), (0, 4), (pb, 5), (0, 4), (pc, 5), (0, 4), (0, 4), (0, 2), (0, 1), (na.toNat, 1), (nb.toNat, 1), (nc.toNat, 1), (lut.toNat, 8), (pd, 5), (0, 5)])

/-- Field lengths of PMOV_TOV (format R) from bit 31 up. -/
def layPmovTov : List Nat := [1, 9, 5, 22, 4, 2, 1, 1, 1, 1, 2, 16]

/-- PMOV_TOV: the checks of R98 and the instruction. -/
def decPmovTov (h : Hdr) (w : Nat) : Except Nat Instr :=
  match splitBits layPmovTov w with
  | [z0, xd, xpa, z3, z4, z5, z6, xna, z8, z9, _, z11] =>
    if z0 + z3 + z5 + z11 ≠ 0 then .error 0x001 else
    let na := xna == 1
    let pa := xpa
    if z4 ≠ 0 ∨ z6 ≠ 0 ∨ z8 ≠ 0 ∨ z9 ≠ 0 then .error 0x002 else
    if h.sb ≠ 0 then .error 0x006 else
    match Opd.ofCode xd with
    | some d => .ok (.pmovTov h na d pa)
    | _ => .error 0x020
  | _ => .error 0x000

/-- The word of PMOV_TOV. -/
def encPmovTov (h : Hdr) (na : Bool) (d : Opd) (pa : Nat) : Nat :=
  joinBits (hdrFields 0x0C1 h ++
    [(0, 1), (d.code, 9), (pa, 5), (0, 22), (0, 4), (0, 2), (0, 1), (na.toNat, 1), (0, 1), (0, 1), (0, 2), (0, 16)])

/-- Field lengths of PMOV_FROMV (format R) from bit 31 up. -/
def layPmovFromv : List Nat := [10, 9, 18, 4, 2, 1, 1, 1, 1, 2, 6, 5, 5]

/-- PMOV_FROMV: the checks of R98 and the instruction. -/
def decPmovFromv (h : Hdr) (w : Nat) : Except Nat Instr :=
  match splitBits layPmovFromv w with
  | [z0, xa, z2, z3, z4, z5, z6, z7, z8, _, z10, xpd, z12] =>
    if z0 + z2 + z4 + z10 + z12 ≠ 0 then .error 0x001 else
    let pd := xpd
    if z3 ≠ 0 ∨ z5 ≠ 0 ∨ z6 ≠ 0 ∨ z7 ≠ 0 ∨ z8 ≠ 0 then .error 0x002 else
    if !(((Opd.ofCode xa).getD (.v 0)).notQ) then .error 0x002 else
    if h.sb ≠ 0 then .error 0x006 else
    match Opd.ofCode xa with
    | some a => .ok (.pmovFromv h pd a)
    | _ => .error 0x020
  | _ => .error 0x000

/-- The word of PMOV_FROMV. -/
def encPmovFromv (h : Hdr) (pd : Nat) (a : Opd) : Nat :=
  joinBits (hdrFields 0x0C1 h ++
    [(0, 10), (a.code, 9), (0, 18), (0, 4), (0, 2), (0, 1), (0, 1), (0, 1), (0, 1), (1, 2), (0, 6), (pd, 5), (0, 5)])

/-- Field lengths of PMOV_SAVE (format R) from bit 31 up. -/
def layPmovSave : List Nat := [1, 9, 27, 4, 2, 1, 1, 1, 1, 2, 16]

/-- PMOV_SAVE: the checks of R98 and the instruction. -/
def decPmovSave (h : Hdr) (w : Nat) : Except Nat Instr :=
  match splitBits layPmovSave w with
  | [z0, xd, z2, z3, z4, z5, z6, z7, z8, _, z10] =>
    if z0 + z2 + z4 + z10 ≠ 0 then .error 0x001 else
    if z3 ≠ 0 ∨ z5 ≠ 0 ∨ z6 ≠ 0 ∨ z7 ≠ 0 ∨ z8 ≠ 0 then .error 0x002 else
    if h.sb ≠ 0 then .error 0x006 else
    match Opd.ofCode xd with
    | some d => .ok (.pmovSave h d)
    | _ => .error 0x020
  | _ => .error 0x000

/-- The word of PMOV_SAVE. -/
def encPmovSave (h : Hdr) (d : Opd) : Nat :=
  joinBits (hdrFields 0x0C1 h ++
    [(0, 1), (d.code, 9), (0, 27), (0, 4), (0, 2), (0, 1), (0, 1), (0, 1), (0, 1), (2, 2), (0, 16)])

/-- Field lengths of PMOV_LOAD (format R) from bit 31 up. -/
def layPmovLoad : List Nat := [10, 9, 18, 4, 2, 1, 1, 1, 1, 2, 16]

/-- PMOV_LOAD: the checks of R98 and the instruction. -/
def decPmovLoad (h : Hdr) (w : Nat) : Except Nat Instr :=
  match splitBits layPmovLoad w with
  | [z0, xa, z2, z3, z4, z5, z6, z7, z8, _, z10] =>
    if z0 + z2 + z4 + z10 ≠ 0 then .error 0x001 else
    if z3 ≠ 0 ∨ z5 ≠ 0 ∨ z6 ≠ 0 ∨ z7 ≠ 0 ∨ z8 ≠ 0 then .error 0x002 else
    if !(((Opd.ofCode xa).getD (.v 0)).notQ) then .error 0x002 else
    if h.sb ≠ 0 then .error 0x006 else
    match Opd.ofCode xa with
    | some a => .ok (.pmovLoad h a)
    | _ => .error 0x020
  | _ => .error 0x000

/-- The word of PMOV_LOAD. -/
def encPmovLoad (h : Hdr) (a : Opd) : Nat :=
  joinBits (hdrFields 0x0C1 h ++
    [(0, 10), (a.code, 9), (0, 18), (0, 4), (0, 2), (0, 1), (0, 1), (0, 1), (0, 1), (3, 2), (0, 16)])

/-- Field lengths of VOTE (format R) from bit 31 up. -/
def layVote : List Nat := [10, 5, 22, 4, 2, 1, 1, 1, 1, 2, 6, 5, 5]

/-- VOTE: the checks of R98 and the instruction. -/
def decVote (h : Hdr) (w : Nat) : Except Nat Instr :=
  match splitBits layVote w with
  | [z0, xpa, z2, z3, z4, z5, xna, z7, z8, xmode, z10, xpd, z12] =>
    if z0 + z2 + z4 + z10 + z12 ≠ 0 then .error 0x001 else
    let na := xna == 1
    let pd := xpd
    let pa := xpa
    if z3 ≠ 0 ∨ z5 ≠ 0 ∨ z7 ≠ 0 ∨ z8 ≠ 0 then .error 0x002 else
    match VoteMode.ofCode xmode with
    | some mode =>
      if h.sb ≠ 0 then .error 0x006 else
      .ok (.vote h mode na pd pa)
    | _ => .error 0x002
  | _ => .error 0x000

/-- The word of VOTE. -/
def encVote (h : Hdr) (mode : VoteMode) (na : Bool) (pd : Nat) (pa : Nat) : Nat :=
  joinBits (hdrFields 0x0C2 h ++
    [(0, 10), (pa, 5), (0, 22), (0, 4), (0, 2), (0, 1), (na.toNat, 1), (0, 1), (0, 1), (mode.code, 2), (0, 6), (pd, 5), (0, 5)])

/-- Field lengths of BALLOT (format R) from bit 31 up. -/
def layBallot : List Nat := [1, 9, 5, 22, 4, 2, 1, 1, 1, 1, 18]

/-- BALLOT: the checks of R98 and the instruction. -/
def decBallot (h : Hdr) (w : Nat) : Except Nat Instr :=
  match splitBits layBallot w with
  | [z0, xd, xpa, z3, z4, z5, z6, xna, z8, z9, z10] =>
    if z0 + z3 + z5 + z10 ≠ 0 then .error 0x001 else
    let na := xna == 1
    let pa := xpa
    if z4 ≠ 0 ∨ z6 ≠ 0 ∨ z8 ≠ 0 ∨ z9 ≠ 0 then .error 0x002 else
    if h.sb ≠ 0 then .error 0x006 else
    match Opd.ofCode xd with
    | some d => .ok (.ballot h na d pa)
    | _ => .error 0x020
  | _ => .error 0x000

/-- The word of BALLOT. -/
def encBallot (h : Hdr) (na : Bool) (d : Opd) (pa : Nat) : Nat :=
  joinBits (hdrFields 0x0C3 h ++
    [(0, 1), (d.code, 9), (pa, 5), (0, 22), (0, 4), (0, 2), (0, 1), (na.toNat, 1), (0, 1), (0, 1), (0, 18)])

/-- Field lengths of LGET (format R) from bit 31 up. -/
def layLget : List Nat := [1, 9, 9, 9, 9, 4, 2, 1, 1, 1, 1, 2, 3, 3, 5, 5]

/-- LGET: the checks of R98 and the instruction. -/
def decLget (h : Hdr) (w : Nat) : Except Nat Instr :=
  match splitBits layLget w with
  | [z0, xd, xa, xb, z4, xty, z6, z7, z8, z9, z10, xmode, xg, z13, xpd, z15] =>
    if z0 + z4 + z6 + z13 + z15 ≠ 0 then .error 0x001 else
    let g := xg
    let pd := xpd
    if z7 ≠ 0 ∨ z8 ≠ 0 ∨ z9 ≠ 0 ∨ z10 ≠ 0 then .error 0x002 else
    match LgetMode.ofCode xmode, Ty.ofCode xty with
    | some mode, some ty =>
      if !(decide (g < 7) && ty.isB && ((Opd.ofCode xa).getD (.v 0)).notQ && ((Opd.ofCode xb).getD (.v 0)).notQ) then .error 0x002 else
      if h.sb ≠ 0 then .error 0x006 else
      match Opd.ofCode xd, Opd.ofCode xa, Opd.ofCode xb with
      | some d, some a, some b => .ok (.lget h mode g ty pd d a b)
      | _, _, _ => .error 0x020
    | _, _ => .error 0x002
  | _ => .error 0x000

/-- The word of LGET. -/
def encLget (h : Hdr) (mode : LgetMode) (g : Nat) (ty : Ty) (pd : Nat) (d : Opd) (a : Opd) (b : Opd) : Nat :=
  joinBits (hdrFields 0x0C4 h ++
    [(0, 1), (d.code, 9), (a.code, 9), (b.code, 9), (0, 9), (ty.code, 4), (0, 2), (0, 1), (0, 1), (0, 1), (0, 1), (mode.code, 2), (g, 3), (0, 3), (pd, 5), (0, 5)])

/-- Field lengths of PSWAP (format R) from bit 31 up. -/
def layPswap : List Nat := [1, 9, 9, 18, 4, 2, 1, 1, 1, 1, 3, 1, 14]

/-- PSWAP: the checks of R98 and the instruction. -/
def decPswap (h : Hdr) (w : Nat) : Except Nat Instr :=
  match splitBits layPswap w with
  | [z0, xd, xa, z3, xty, z5, z6, z7, z8, z9, xln, xneglo, z12] =>
    if z0 + z3 + z5 + z12 ≠ 0 then .error 0x001 else
    let ln := xln
    let neglo := xneglo == 1
    if z6 ≠ 0 ∨ z7 ≠ 0 ∨ z8 ≠ 0 ∨ z9 ≠ 0 then .error 0x002 else
    match Ty.ofCode xty with
    | some ty =>
      if !(decide (ln < 7) && ty.isSwap && (!neglo || !ty.isB) && ((Opd.ofCode xa).getD (.v 0)).notQ) then .error 0x002 else
      if h.sb ≠ 0 then .error 0x006 else
      match Opd.ofCode xd, Opd.ofCode xa with
      | some d, some a => .ok (.pswap h ln neglo ty d a)
      | _, _ => .error 0x020
    | _ => .error 0x002
  | _ => .error 0x000

/-- The word of PSWAP. -/
def encPswap (h : Hdr) (ln : Nat) (neglo : Bool) (ty : Ty) (d : Opd) (a : Opd) : Nat :=
  joinBits (hdrFields 0x0C5 h ++
    [(0, 1), (d.code, 9), (a.code, 9), (0, 18), (ty.code, 4), (0, 2), (0, 1), (0, 1), (0, 1), (0, 1), (ln, 3), (neglo.toNat, 1), (0, 14)])

/-- Field lengths of MATCH (format R) from bit 31 up. -/
def layMatchv : List Nat := [1, 9, 9, 18, 4, 2, 1, 1, 1, 1, 8, 5, 5]

/-- MATCH: the checks of R98 and the instruction. -/
def decMatchv (h : Hdr) (w : Nat) : Except Nat Instr :=
  match splitBits layMatchv w with
  | [z0, xd, xa, z3, xty, z5, z6, z7, z8, z9, z10, xpd, z12] =>
    if z0 + z3 + z5 + z10 + z12 ≠ 0 then .error 0x001 else
    let pd := xpd
    if z6 ≠ 0 ∨ z7 ≠ 0 ∨ z8 ≠ 0 ∨ z9 ≠ 0 then .error 0x002 else
    match Ty.ofCode xty with
    | some ty =>
      if !(ty.isB && ((Opd.ofCode xa).getD (.v 0)).notQ) then .error 0x002 else
      if h.sb ≠ 0 then .error 0x006 else
      match Opd.ofCode xd, Opd.ofCode xa with
      | some d, some a => .ok (.matchv h ty pd d a)
      | _, _ => .error 0x020
    | _ => .error 0x002
  | _ => .error 0x000

/-- The word of MATCH. -/
def encMatchv (h : Hdr) (ty : Ty) (pd : Nat) (d : Opd) (a : Opd) : Nat :=
  joinBits (hdrFields 0x0C6 h ++
    [(0, 1), (d.code, 9), (a.code, 9), (0, 18), (ty.code, 4), (0, 2), (0, 1), (0, 1), (0, 1), (0, 1), (0, 8), (pd, 5), (0, 5)])

/-- Field lengths of LRED (format R) from bit 31 up. -/
def layLred : List Nat := [1, 9, 9, 18, 4, 2, 1, 1, 1, 1, 3, 15]

/-- LRED: the checks of R98 and the instruction. -/
def decLred (h : Hdr) (w : Nat) : Except Nat Instr :=
  match splitBits layLred w with
  | [z0, xd, xa, z3, xty, xrm, z6, z7, z8, z9, xop, z11] =>
    if z0 + z3 + z11 ≠ 0 then .error 0x001 else
    if !(decide (xrm = 0) || (decide (xop = 0) && (xty == 8 || xty == 9))) then .error 0x001 else
    if z6 ≠ 0 ∨ z7 ≠ 0 ∨ z8 ≠ 0 ∨ z9 ≠ 0 then .error 0x002 else
    match RedOp.ofCode xop, Rm.ofCode xrm, Ty.ofCode xty with
    | some op, some rm, some ty =>
      if !(ty.isRed && (!ty.isFloat || !op.isBitwise) && ((Opd.ofCode xa).getD (.v 0)).notQ) then .error 0x002 else
      if h.sb ≠ 0 then .error 0x006 else
      match Opd.ofCode xd, Opd.ofCode xa with
      | some d, some a => .ok (.lred h op rm ty d a)
      | _, _ => .error 0x020
    | _, _, _ => .error 0x002
  | _ => .error 0x000

/-- The word of LRED. -/
def encLred (h : Hdr) (op : RedOp) (rm : Rm) (ty : Ty) (d : Opd) (a : Opd) : Nat :=
  joinBits (hdrFields 0x0C7 h ++
    [(0, 1), (d.code, 9), (a.code, 9), (0, 18), (ty.code, 4), (rm.code, 2), (0, 1), (0, 1), (0, 1), (0, 1), (op.code, 3), (0, 15)])

/-- Field lengths of SCAN (format R) from bit 31 up. -/
def layScan : List Nat := [1, 9, 9, 18, 4, 2, 1, 1, 1, 1, 3, 1, 14]

/-- SCAN: the checks of R98 and the instruction. -/
def decScan (h : Hdr) (w : Nat) : Except Nat Instr :=
  match splitBits layScan w with
  | [z0, xd, xa, z3, xty, xrm, z6, z7, z8, z9, xop, xexcl, z12] =>
    if z0 + z3 + z12 ≠ 0 then .error 0x001 else
    let excl := xexcl == 1
    if !(decide (xrm = 0) || (decide (xop = 0) && (xty == 8 || xty == 9))) then .error 0x001 else
    if z6 ≠ 0 ∨ z7 ≠ 0 ∨ z8 ≠ 0 ∨ z9 ≠ 0 then .error 0x002 else
    match RedOp.ofCode xop, Rm.ofCode xrm, Ty.ofCode xty with
    | some op, some rm, some ty =>
      if !(ty.isRed && (!ty.isFloat || !op.isBitwise) && ((Opd.ofCode xa).getD (.v 0)).notQ) then .error 0x002 else
      if h.sb ≠ 0 then .error 0x006 else
      match Opd.ofCode xd, Opd.ofCode xa with
      | some d, some a => .ok (.scan h op excl rm ty d a)
      | _, _ => .error 0x020
    | _, _, _ => .error 0x002
  | _ => .error 0x000

/-- The word of SCAN. -/
def encScan (h : Hdr) (op : RedOp) (excl : Bool) (rm : Rm) (ty : Ty) (d : Opd) (a : Opd) : Nat :=
  joinBits (hdrFields 0x0C8 h ++
    [(0, 1), (d.code, 9), (a.code, 9), (0, 18), (ty.code, 4), (rm.code, 2), (0, 1), (0, 1), (0, 1), (0, 1), (op.code, 3), (excl.toNat, 1), (0, 14)])

/-- Field lengths of READL (format R) from bit 31 up. -/
def layReadl : List Nat := [1, 9, 9, 9, 9, 4, 2, 1, 1, 1, 1, 1, 17]

/-- READL: the checks of R98 and the instruction. -/
def decReadl (h : Hdr) (w : Nat) : Except Nat Instr :=
  match splitBits layReadl w with
  | [z0, xd, xa, xb, z4, xty, z6, z7, z8, z9, z10, _, z12] =>
    if z0 + z4 + z6 + z12 ≠ 0 then .error 0x001 else
    if z7 ≠ 0 ∨ z8 ≠ 0 ∨ z9 ≠ 0 ∨ z10 ≠ 0 then .error 0x002 else
    match Ty.ofCode xty with
    | some ty =>
      if !(ty.isB && ((Opd.ofCode xa).getD (.v 0)).notQ && ((Opd.ofCode xb).getD (.v 0)).notQ) then .error 0x002 else
      match Opd.ofCode xd, Opd.ofCode xa, Opd.ofCode xb with
      | some d, some a, some b => .ok (.readl h ty d a b)
      | _, _, _ => .error 0x020
    | _ => .error 0x002
  | _ => .error 0x000

/-- The word of READL. -/
def encReadl (h : Hdr) (ty : Ty) (d : Opd) (a : Opd) (b : Opd) : Nat :=
  joinBits (hdrFields 0x0C9 h ++
    [(0, 1), (d.code, 9), (a.code, 9), (b.code, 9), (0, 9), (ty.code, 4), (0, 2), (0, 1), (0, 1), (0, 1), (0, 1), (0, 1), (0, 17)])

/-- Field lengths of READL_FIRST (format R) from bit 31 up. -/
def layReadlFirst : List Nat := [1, 9, 9, 18, 4, 2, 1, 1, 1, 1, 1, 17]

/-- READL_FIRST: the checks of R98 and the instruction. -/
def decReadlFirst (h : Hdr) (w : Nat) : Except Nat Instr :=
  match splitBits layReadlFirst w with
  | [z0, xd, xa, z3, xty, z5, z6, z7, z8, z9, _, z11] =>
    if z0 + z3 + z5 + z11 ≠ 0 then .error 0x001 else
    if z6 ≠ 0 ∨ z7 ≠ 0 ∨ z8 ≠ 0 ∨ z9 ≠ 0 then .error 0x002 else
    match Ty.ofCode xty with
    | some ty =>
      if !(ty.isB && ((Opd.ofCode xa).getD (.v 0)).notQ) then .error 0x002 else
      match Opd.ofCode xd, Opd.ofCode xa with
      | some d, some a => .ok (.readlFirst h ty d a)
      | _, _ => .error 0x020
    | _ => .error 0x002
  | _ => .error 0x000

/-- The word of READL_FIRST. -/
def encReadlFirst (h : Hdr) (ty : Ty) (d : Opd) (a : Opd) : Nat :=
  joinBits (hdrFields 0x0C9 h ++
    [(0, 1), (d.code, 9), (a.code, 9), (0, 18), (ty.code, 4), (0, 2), (0, 1), (0, 1), (0, 1), (0, 1), (1, 1), (0, 17)])

/-- Field lengths of FADD (format R) from bit 31 up. -/
def layFadd : List Nat := [1, 9, 9, 9, 9, 4, 2, 1, 1, 1, 1, 18]

/-- FADD: the checks of R98 and the instruction. -/
def decFadd (h : Hdr) (w : Nat) : Except Nat Instr :=
  match splitBits layFadd w with
  | [z0, xd, xa, xb, z4, xty, xrm, xsat, xna, xnb, z10, z11] =>
    if z0 + z4 + z11 ≠ 0 then .error 0x001 else
    let sat := xsat == 1
    let na := xna == 1
    let nb := xnb == 1
    if z10 ≠ 0 then .error 0x002 else
    match Ty.ofCode xty, Rm.ofCode xrm with
    | some ty, some rm =>
      if !(ty.isFloat) then .error 0x002 else
      if h.sb ≠ 0 then .error 0x006 else
      match Opd.ofCode xd, Opd.ofCode xa, Opd.ofCode xb with
      | some d, some a, some b => .ok (.fadd h ty rm sat na nb d a b)
      | _, _, _ => .error 0x020
    | _, _ => .error 0x002
  | _ => .error 0x000

/-- The word of FADD. -/
def encFadd (h : Hdr) (ty : Ty) (rm : Rm) (sat : Bool) (na : Bool) (nb : Bool) (d : Opd) (a : Opd) (b : Opd) : Nat :=
  joinBits (hdrFields 0x100 h ++
    [(0, 1), (d.code, 9), (a.code, 9), (b.code, 9), (0, 9), (ty.code, 4), (rm.code, 2), (sat.toNat, 1), (na.toNat, 1), (nb.toNat, 1), (0, 1), (0, 18)])

/-- Field lengths of FADD_IMM (format I) from bit 31 up. -/
def layFaddImm : List Nat := [1, 9, 9, 4, 5, 2, 1, 2, 32]

/-- FADD_IMM: the checks of R98 and the instruction. -/
def decFaddImm (h : Hdr) (w : Nat) : Except Nat Instr :=
  match splitBits layFaddImm w with
  | [z0, xd, xa, xty, z4, xrm, xsat, z7, ximm] =>
    if z0 + z4 + z7 ≠ 0 then .error 0x001 else
    let sat := xsat == 1
    let imm := BitVec.ofNat 32 ximm
    match Ty.ofCode xty, Rm.ofCode xrm with
    | some ty, some rm =>
      if !(ty.isFloat && immFits ty imm) then .error 0x002 else
      if h.sb ≠ 0 then .error 0x006 else
      match Opd.ofCode xd, Opd.ofCode xa with
      | some d, some a => .ok (.faddImm h ty rm sat d a imm)
      | _, _ => .error 0x020
    | _, _ => .error 0x002
  | _ => .error 0x000

/-- The word of FADD_IMM. -/
def encFaddImm (h : Hdr) (ty : Ty) (rm : Rm) (sat : Bool) (d : Opd) (a : Opd) (imm : BitVec 32) : Nat :=
  joinBits (hdrFields 0x140 h ++
    [(0, 1), (d.code, 9), (a.code, 9), (ty.code, 4), (0, 5), (rm.code, 2), (sat.toNat, 1), (0, 2), (imm.toNat, 32)])

/-- Field lengths of FMUL (format R) from bit 31 up. -/
def layFmul : List Nat := [1, 9, 9, 9, 9, 4, 2, 1, 1, 1, 1, 18]

/-- FMUL: the checks of R98 and the instruction. -/
def decFmul (h : Hdr) (w : Nat) : Except Nat Instr :=
  match splitBits layFmul w with
  | [z0, xd, xa, xb, z4, xty, xrm, xsat, xna, xnb, z10, z11] =>
    if z0 + z4 + z11 ≠ 0 then .error 0x001 else
    let sat := xsat == 1
    let na := xna == 1
    let nb := xnb == 1
    if z10 ≠ 0 then .error 0x002 else
    match Ty.ofCode xty, Rm.ofCode xrm with
    | some ty, some rm =>
      if !(ty.isFloat) then .error 0x002 else
      if h.sb ≠ 0 then .error 0x006 else
      match Opd.ofCode xd, Opd.ofCode xa, Opd.ofCode xb with
      | some d, some a, some b => .ok (.fmul h ty rm sat na nb d a b)
      | _, _, _ => .error 0x020
    | _, _ => .error 0x002
  | _ => .error 0x000

/-- The word of FMUL. -/
def encFmul (h : Hdr) (ty : Ty) (rm : Rm) (sat : Bool) (na : Bool) (nb : Bool) (d : Opd) (a : Opd) (b : Opd) : Nat :=
  joinBits (hdrFields 0x101 h ++
    [(0, 1), (d.code, 9), (a.code, 9), (b.code, 9), (0, 9), (ty.code, 4), (rm.code, 2), (sat.toNat, 1), (na.toNat, 1), (nb.toNat, 1), (0, 1), (0, 18)])

/-- Field lengths of FMUL_IMM (format I) from bit 31 up. -/
def layFmulImm : List Nat := [1, 9, 9, 4, 5, 2, 1, 2, 32]

/-- FMUL_IMM: the checks of R98 and the instruction. -/
def decFmulImm (h : Hdr) (w : Nat) : Except Nat Instr :=
  match splitBits layFmulImm w with
  | [z0, xd, xa, xty, z4, xrm, xsat, z7, ximm] =>
    if z0 + z4 + z7 ≠ 0 then .error 0x001 else
    let sat := xsat == 1
    let imm := BitVec.ofNat 32 ximm
    match Ty.ofCode xty, Rm.ofCode xrm with
    | some ty, some rm =>
      if !(ty.isFloat && immFits ty imm) then .error 0x002 else
      if h.sb ≠ 0 then .error 0x006 else
      match Opd.ofCode xd, Opd.ofCode xa with
      | some d, some a => .ok (.fmulImm h ty rm sat d a imm)
      | _, _ => .error 0x020
    | _, _ => .error 0x002
  | _ => .error 0x000

/-- The word of FMUL_IMM. -/
def encFmulImm (h : Hdr) (ty : Ty) (rm : Rm) (sat : Bool) (d : Opd) (a : Opd) (imm : BitVec 32) : Nat :=
  joinBits (hdrFields 0x141 h ++
    [(0, 1), (d.code, 9), (a.code, 9), (ty.code, 4), (0, 5), (rm.code, 2), (sat.toNat, 1), (0, 2), (imm.toNat, 32)])

/-- Field lengths of FFMA (format R) from bit 31 up. -/
def layFfma : List Nat := [1, 9, 9, 9, 9, 4, 2, 1, 1, 1, 1, 18]

/-- FFMA: the checks of R98 and the instruction. -/
def decFfma (h : Hdr) (w : Nat) : Except Nat Instr :=
  match splitBits layFfma w with
  | [z0, xd, xa, xb, xc, xty, xrm, xsat, xna, xnb, xnc, z11] =>
    if z0 + z11 ≠ 0 then .error 0x001 else
    let sat := xsat == 1
    let na := xna == 1
    let nb := xnb == 1
    let nc := xnc == 1
    match Ty.ofCode xty, Rm.ofCode xrm with
    | some ty, some rm =>
      if !(ty.isFloat) then .error 0x002 else
      if h.sb ≠ 0 then .error 0x006 else
      match Opd.ofCode xd, Opd.ofCode xa, Opd.ofCode xb, Opd.ofCode xc with
      | some d, some a, some b, some c => .ok (.ffma h ty rm sat na nb nc d a b c)
      | _, _, _, _ => .error 0x020
    | _, _ => .error 0x002
  | _ => .error 0x000

/-- The word of FFMA. -/
def encFfma (h : Hdr) (ty : Ty) (rm : Rm) (sat : Bool) (na : Bool) (nb : Bool) (nc : Bool) (d : Opd) (a : Opd) (b : Opd) (c : Opd) : Nat :=
  joinBits (hdrFields 0x102 h ++
    [(0, 1), (d.code, 9), (a.code, 9), (b.code, 9), (c.code, 9), (ty.code, 4), (rm.code, 2), (sat.toNat, 1), (na.toNat, 1), (nb.toNat, 1), (nc.toNat, 1), (0, 18)])

/-- Field lengths of FFMA_IMM (format I) from bit 31 up. -/
def layFfmaImm : List Nat := [1, 9, 9, 4, 5, 2, 1, 2, 32]

/-- FFMA_IMM: the checks of R98 and the instruction. -/
def decFfmaImm (h : Hdr) (w : Nat) : Except Nat Instr :=
  match splitBits layFfmaImm w with
  | [z0, xd, xa, xty, z4, xrm, xsat, z7, ximm] =>
    if z0 + z4 + z7 ≠ 0 then .error 0x001 else
    let sat := xsat == 1
    let imm := BitVec.ofNat 32 ximm
    match Ty.ofCode xty, Rm.ofCode xrm with
    | some ty, some rm =>
      if !(ty.isFloat && immFits ty imm) then .error 0x002 else
      if h.sb ≠ 0 then .error 0x006 else
      match Opd.ofCode xd, Opd.ofCode xa with
      | some d, some a => .ok (.ffmaImm h ty rm sat d a imm)
      | _, _ => .error 0x020
    | _, _ => .error 0x002
  | _ => .error 0x000

/-- The word of FFMA_IMM. -/
def encFfmaImm (h : Hdr) (ty : Ty) (rm : Rm) (sat : Bool) (d : Opd) (a : Opd) (imm : BitVec 32) : Nat :=
  joinBits (hdrFields 0x142 h ++
    [(0, 1), (d.code, 9), (a.code, 9), (ty.code, 4), (0, 5), (rm.code, 2), (sat.toNat, 1), (0, 2), (imm.toNat, 32)])

/-- Field lengths of FMIN (format R) from bit 31 up. -/
def layFmin : List Nat := [1, 9, 9, 9, 9, 4, 2, 1, 1, 1, 1, 18]

/-- FMIN: the checks of R98 and the instruction. -/
def decFmin (h : Hdr) (w : Nat) : Except Nat Instr :=
  match splitBits layFmin w with
  | [z0, xd, xa, xb, z4, xty, z6, z7, xna, xnb, z10, z11] =>
    if z0 + z4 + z6 + z11 ≠ 0 then .error 0x001 else
    let na := xna == 1
    let nb := xnb == 1
    if z7 ≠ 0 ∨ z10 ≠ 0 then .error 0x002 else
    match Ty.ofCode xty with
    | some ty =>
      if !(ty.isFloat) then .error 0x002 else
      if h.sb ≠ 0 then .error 0x006 else
      match Opd.ofCode xd, Opd.ofCode xa, Opd.ofCode xb with
      | some d, some a, some b => .ok (.fmin h ty na nb d a b)
      | _, _, _ => .error 0x020
    | _ => .error 0x002
  | _ => .error 0x000

/-- The word of FMIN. -/
def encFmin (h : Hdr) (ty : Ty) (na : Bool) (nb : Bool) (d : Opd) (a : Opd) (b : Opd) : Nat :=
  joinBits (hdrFields 0x103 h ++
    [(0, 1), (d.code, 9), (a.code, 9), (b.code, 9), (0, 9), (ty.code, 4), (0, 2), (0, 1), (na.toNat, 1), (nb.toNat, 1), (0, 1), (0, 18)])

/-- Field lengths of FMIN_IMM (format I) from bit 31 up. -/
def layFminImm : List Nat := [1, 9, 9, 4, 10, 32]

/-- FMIN_IMM: the checks of R98 and the instruction. -/
def decFminImm (h : Hdr) (w : Nat) : Except Nat Instr :=
  match splitBits layFminImm w with
  | [z0, xd, xa, xty, z4, ximm] =>
    if z0 + z4 ≠ 0 then .error 0x001 else
    let imm := BitVec.ofNat 32 ximm
    match Ty.ofCode xty with
    | some ty =>
      if !(ty.isFloat && immFits ty imm) then .error 0x002 else
      if h.sb ≠ 0 then .error 0x006 else
      match Opd.ofCode xd, Opd.ofCode xa with
      | some d, some a => .ok (.fminImm h ty d a imm)
      | _, _ => .error 0x020
    | _ => .error 0x002
  | _ => .error 0x000

/-- The word of FMIN_IMM. -/
def encFminImm (h : Hdr) (ty : Ty) (d : Opd) (a : Opd) (imm : BitVec 32) : Nat :=
  joinBits (hdrFields 0x143 h ++
    [(0, 1), (d.code, 9), (a.code, 9), (ty.code, 4), (0, 10), (imm.toNat, 32)])

/-- Field lengths of FMAX (format R) from bit 31 up. -/
def layFmax : List Nat := [1, 9, 9, 9, 9, 4, 2, 1, 1, 1, 1, 18]

/-- FMAX: the checks of R98 and the instruction. -/
def decFmax (h : Hdr) (w : Nat) : Except Nat Instr :=
  match splitBits layFmax w with
  | [z0, xd, xa, xb, z4, xty, z6, z7, xna, xnb, z10, z11] =>
    if z0 + z4 + z6 + z11 ≠ 0 then .error 0x001 else
    let na := xna == 1
    let nb := xnb == 1
    if z7 ≠ 0 ∨ z10 ≠ 0 then .error 0x002 else
    match Ty.ofCode xty with
    | some ty =>
      if !(ty.isFloat) then .error 0x002 else
      if h.sb ≠ 0 then .error 0x006 else
      match Opd.ofCode xd, Opd.ofCode xa, Opd.ofCode xb with
      | some d, some a, some b => .ok (.fmax h ty na nb d a b)
      | _, _, _ => .error 0x020
    | _ => .error 0x002
  | _ => .error 0x000

/-- The word of FMAX. -/
def encFmax (h : Hdr) (ty : Ty) (na : Bool) (nb : Bool) (d : Opd) (a : Opd) (b : Opd) : Nat :=
  joinBits (hdrFields 0x104 h ++
    [(0, 1), (d.code, 9), (a.code, 9), (b.code, 9), (0, 9), (ty.code, 4), (0, 2), (0, 1), (na.toNat, 1), (nb.toNat, 1), (0, 1), (0, 18)])

/-- Field lengths of FMAX_IMM (format I) from bit 31 up. -/
def layFmaxImm : List Nat := [1, 9, 9, 4, 10, 32]

/-- FMAX_IMM: the checks of R98 and the instruction. -/
def decFmaxImm (h : Hdr) (w : Nat) : Except Nat Instr :=
  match splitBits layFmaxImm w with
  | [z0, xd, xa, xty, z4, ximm] =>
    if z0 + z4 ≠ 0 then .error 0x001 else
    let imm := BitVec.ofNat 32 ximm
    match Ty.ofCode xty with
    | some ty =>
      if !(ty.isFloat && immFits ty imm) then .error 0x002 else
      if h.sb ≠ 0 then .error 0x006 else
      match Opd.ofCode xd, Opd.ofCode xa with
      | some d, some a => .ok (.fmaxImm h ty d a imm)
      | _, _ => .error 0x020
    | _ => .error 0x002
  | _ => .error 0x000

/-- The word of FMAX_IMM. -/
def encFmaxImm (h : Hdr) (ty : Ty) (d : Opd) (a : Opd) (imm : BitVec 32) : Nat :=
  joinBits (hdrFields 0x144 h ++
    [(0, 1), (d.code, 9), (a.code, 9), (ty.code, 4), (0, 10), (imm.toNat, 32)])

/-- Field lengths of FCMP (format R) from bit 31 up. -/
def layFcmp : List Nat := [10, 9, 9, 9, 4, 2, 1, 1, 1, 1, 4, 4, 5, 5]

/-- FCMP: the checks of R98 and the instruction. -/
def decFcmp (h : Hdr) (w : Nat) : Except Nat Instr :=
  match splitBits layFcmp w with
  | [z0, xa, xb, z3, xty, z5, z6, xna, xnb, z9, xcmp, z11, xpd, z13] =>
    if z0 + z3 + z5 + z11 + z13 ≠ 0 then .error 0x001 else
    let na := xna == 1
    let nb := xnb == 1
    let pd := xpd
    if z6 ≠ 0 ∨ z9 ≠ 0 then .error 0x002 else
    match Ty.ofCode xty, FCmp.ofCode xcmp with
    | some ty, some cmp =>
      if !(ty.isScalarFloat) then .error 0x002 else
      if h.sb ≠ 0 then .error 0x006 else
      match Opd.ofCode xa, Opd.ofCode xb with
      | some a, some b => .ok (.fcmp h ty cmp na nb pd a b)
      | _, _ => .error 0x020
    | _, _ => .error 0x002
  | _ => .error 0x000

/-- The word of FCMP. -/
def encFcmp (h : Hdr) (ty : Ty) (cmp : FCmp) (na : Bool) (nb : Bool) (pd : Nat) (a : Opd) (b : Opd) : Nat :=
  joinBits (hdrFields 0x105 h ++
    [(0, 10), (a.code, 9), (b.code, 9), (0, 9), (ty.code, 4), (0, 2), (0, 1), (na.toNat, 1), (nb.toNat, 1), (0, 1), (cmp.code, 4), (0, 4), (pd, 5), (0, 5)])

/-- Field lengths of FCMP_IMM (format I) from bit 31 up. -/
def layFcmpImm : List Nat := [10, 9, 4, 5, 4, 1, 32]

/-- FCMP_IMM: the checks of R98 and the instruction. -/
def decFcmpImm (h : Hdr) (w : Nat) : Except Nat Instr :=
  match splitBits layFcmpImm w with
  | [z0, xa, xty, xpd, xcmp, z5, ximm] =>
    if z0 + z5 ≠ 0 then .error 0x001 else
    let pd := xpd
    let imm := BitVec.ofNat 32 ximm
    match Ty.ofCode xty, FCmp.ofCode xcmp with
    | some ty, some cmp =>
      if !(ty.isScalarFloat && immFits ty imm) then .error 0x002 else
      if h.sb ≠ 0 then .error 0x006 else
      match Opd.ofCode xa with
      | some a => .ok (.fcmpImm h ty cmp pd a imm)
      | _ => .error 0x020
    | _, _ => .error 0x002
  | _ => .error 0x000

/-- The word of FCMP_IMM. -/
def encFcmpImm (h : Hdr) (ty : Ty) (cmp : FCmp) (pd : Nat) (a : Opd) (imm : BitVec 32) : Nat :=
  joinBits (hdrFields 0x145 h ++
    [(0, 10), (a.code, 9), (ty.code, 4), (pd, 5), (cmp.code, 4), (0, 1), (imm.toNat, 32)])

/-- Field lengths of FCLASS (format R) from bit 31 up. -/
def layFclass : List Nat := [1, 9, 9, 18, 4, 2, 1, 1, 1, 1, 1, 17]

/-- FCLASS: the checks of R98 and the instruction. -/
def decFclass (h : Hdr) (w : Nat) : Except Nat Instr :=
  match splitBits layFclass w with
  | [z0, xd, xa, z3, xty, z5, z6, z7, z8, z9, _, z11] =>
    if z0 + z3 + z5 + z11 ≠ 0 then .error 0x001 else
    if z6 ≠ 0 ∨ z7 ≠ 0 ∨ z8 ≠ 0 ∨ z9 ≠ 0 then .error 0x002 else
    match Ty.ofCode xty with
    | some ty =>
      if !(ty.isScalarFloat) then .error 0x002 else
      if h.sb ≠ 0 then .error 0x006 else
      match Opd.ofCode xd, Opd.ofCode xa with
      | some d, some a => .ok (.fclass h ty d a)
      | _, _ => .error 0x020
    | _ => .error 0x002
  | _ => .error 0x000

/-- The word of FCLASS. -/
def encFclass (h : Hdr) (ty : Ty) (d : Opd) (a : Opd) : Nat :=
  joinBits (hdrFields 0x106 h ++
    [(0, 1), (d.code, 9), (a.code, 9), (0, 18), (ty.code, 4), (0, 2), (0, 1), (0, 1), (0, 1), (0, 1), (0, 1), (0, 17)])

/-- Field lengths of FCLASS_TEST (format R) from bit 31 up. -/
def layFclassTest : List Nat := [10, 9, 9, 9, 4, 2, 1, 1, 1, 1, 1, 7, 5, 5]

/-- FCLASS_TEST: the checks of R98 and the instruction. -/
def decFclassTest (h : Hdr) (w : Nat) : Except Nat Instr :=
  match splitBits layFclassTest w with
  | [z0, xa, xb, z3, xty, z5, z6, z7, z8, z9, _, z11, xpd, z13] =>
    if z0 + z3 + z5 + z11 + z13 ≠ 0 then .error 0x001 else
    let pd := xpd
    if z6 ≠ 0 ∨ z7 ≠ 0 ∨ z8 ≠ 0 ∨ z9 ≠ 0 then .error 0x002 else
    match Ty.ofCode xty with
    | some ty =>
      if !(ty.isScalarFloat) then .error 0x002 else
      if h.sb ≠ 0 then .error 0x006 else
      match Opd.ofCode xa, Opd.ofCode xb with
      | some a, some b => .ok (.fclassTest h ty pd a b)
      | _, _ => .error 0x020
    | _ => .error 0x002
  | _ => .error 0x000

/-- The word of FCLASS_TEST. -/
def encFclassTest (h : Hdr) (ty : Ty) (pd : Nat) (a : Opd) (b : Opd) : Nat :=
  joinBits (hdrFields 0x106 h ++
    [(0, 10), (a.code, 9), (b.code, 9), (0, 9), (ty.code, 4), (0, 2), (0, 1), (0, 1), (0, 1), (0, 1), (1, 1), (0, 7), (pd, 5), (0, 5)])

/-- Field lengths of FRND (format R) from bit 31 up. -/
def layFrnd : List Nat := [1, 9, 9, 18, 4, 2, 1, 1, 1, 1, 18]

/-- FRND: the checks of R98 and the instruction. -/
def decFrnd (h : Hdr) (w : Nat) : Except Nat Instr :=
  match splitBits layFrnd w with
  | [z0, xd, xa, z3, xty, xrm, z6, z7, z8, z9, z10] =>
    if z0 + z3 + z10 ≠ 0 then .error 0x001 else
    if z6 ≠ 0 ∨ z7 ≠ 0 ∨ z8 ≠ 0 ∨ z9 ≠ 0 then .error 0x002 else
    match Ty.ofCode xty, Rm.ofCode xrm with
    | some ty, some rm =>
      if !(ty.isFloat) then .error 0x002 else
      if h.sb ≠ 0 then .error 0x006 else
      match Opd.ofCode xd, Opd.ofCode xa with
      | some d, some a => .ok (.frnd h ty rm d a)
      | _, _ => .error 0x020
    | _, _ => .error 0x002
  | _ => .error 0x000

/-- The word of FRND. -/
def encFrnd (h : Hdr) (ty : Ty) (rm : Rm) (d : Opd) (a : Opd) : Nat :=
  joinBits (hdrFields 0x107 h ++
    [(0, 1), (d.code, 9), (a.code, 9), (0, 18), (ty.code, 4), (rm.code, 2), (0, 1), (0, 1), (0, 1), (0, 1), (0, 18)])

/-- Field lengths of FFRAC (format R) from bit 31 up. -/
def layFfrac : List Nat := [1, 9, 9, 18, 4, 2, 1, 1, 1, 1, 18]

/-- FFRAC: the checks of R98 and the instruction. -/
def decFfrac (h : Hdr) (w : Nat) : Except Nat Instr :=
  match splitBits layFfrac w with
  | [z0, xd, xa, z3, xty, z5, z6, z7, z8, z9, z10] =>
    if z0 + z3 + z5 + z10 ≠ 0 then .error 0x001 else
    if z6 ≠ 0 ∨ z7 ≠ 0 ∨ z8 ≠ 0 ∨ z9 ≠ 0 then .error 0x002 else
    match Ty.ofCode xty with
    | some ty =>
      if !(ty.isFloat) then .error 0x002 else
      if h.sb ≠ 0 then .error 0x006 else
      match Opd.ofCode xd, Opd.ofCode xa with
      | some d, some a => .ok (.ffrac h ty d a)
      | _, _ => .error 0x020
    | _ => .error 0x002
  | _ => .error 0x000

/-- The word of FFRAC. -/
def encFfrac (h : Hdr) (ty : Ty) (d : Opd) (a : Opd) : Nat :=
  joinBits (hdrFields 0x108 h ++
    [(0, 1), (d.code, 9), (a.code, 9), (0, 18), (ty.code, 4), (0, 2), (0, 1), (0, 1), (0, 1), (0, 1), (0, 18)])

/-- Field lengths of FSCALE (format R) from bit 31 up. -/
def layFscale : List Nat := [1, 9, 9, 9, 9, 4, 2, 1, 1, 1, 1, 18]

/-- FSCALE: the checks of R98 and the instruction. -/
def decFscale (h : Hdr) (w : Nat) : Except Nat Instr :=
  match splitBits layFscale w with
  | [z0, xd, xa, xb, z4, xty, xrm, xsat, z8, z9, z10, z11] =>
    if z0 + z4 + z11 ≠ 0 then .error 0x001 else
    let sat := xsat == 1
    if z8 ≠ 0 ∨ z9 ≠ 0 ∨ z10 ≠ 0 then .error 0x002 else
    match Ty.ofCode xty, Rm.ofCode xrm with
    | some ty, some rm =>
      if !(ty.isScalarFloat) then .error 0x002 else
      if h.sb ≠ 0 then .error 0x006 else
      match Opd.ofCode xd, Opd.ofCode xa, Opd.ofCode xb with
      | some d, some a, some b => .ok (.fscale h ty rm sat d a b)
      | _, _, _ => .error 0x020
    | _, _ => .error 0x002
  | _ => .error 0x000

/-- The word of FSCALE. -/
def encFscale (h : Hdr) (ty : Ty) (rm : Rm) (sat : Bool) (d : Opd) (a : Opd) (b : Opd) : Nat :=
  joinBits (hdrFields 0x109 h ++
    [(0, 1), (d.code, 9), (a.code, 9), (b.code, 9), (0, 9), (ty.code, 4), (rm.code, 2), (sat.toNat, 1), (0, 1), (0, 1), (0, 1), (0, 18)])

/-- Field lengths of CVT (format R) from bit 31 up. -/
def layCvt : List Nat := [1, 9, 9, 18, 4, 2, 1, 1, 1, 1, 5, 3, 10]

/-- CVT: the checks of R98 and the instruction. -/
def decCvt (h : Hdr) (w : Nat) : Except Nat Instr :=
  match splitBits layCvt w with
  | [z0, xd, xa, z3, xty, xrm, xsat, z7, z8, z9, xsk, xsel, z12] =>
    if z0 + z3 + z12 ≠ 0 then .error 0x001 else
    let sel := xsel
    let sk := xsk
    let sat := xsat == 1
    if z7 ≠ 0 ∨ z8 ≠ 0 ∨ z9 ≠ 0 then .error 0x002 else
    match Ty.ofCode xty, Rm.ofCode xrm with
    | some ty, some rm =>
      if !(cvtOk ty sel sk ((Opd.ofCode xd).getD (.v 0)) ((Opd.ofCode xa).getD (.v 0))) then .error 0x002 else
      if h.sb ≠ 0 then .error 0x006 else
      match Opd.ofCode xd, Opd.ofCode xa with
      | some d, some a => .ok (.cvt h ty sel sk rm sat d a)
      | _, _ => .error 0x020
    | _, _ => .error 0x002
  | _ => .error 0x000

/-- The word of CVT. -/
def encCvt (h : Hdr) (ty : Ty) (sel : Nat) (sk : Nat) (rm : Rm) (sat : Bool) (d : Opd) (a : Opd) : Nat :=
  joinBits (hdrFields 0x10A h ++
    [(0, 1), (d.code, 9), (a.code, 9), (0, 18), (ty.code, 4), (rm.code, 2), (sat.toNat, 1), (0, 1), (0, 1), (0, 1), (sk, 5), (sel, 3), (0, 10)])

/-- Field lengths of CVTQ (format R) from bit 31 up. -/
def layCvtq : List Nat := [1, 9, 9, 9, 9, 4, 2, 1, 1, 1, 1, 5, 3, 10]

/-- CVTQ: the checks of R98 and the instruction. DESIGN CHOICE (log 95): under a reserved target or kind C counts as unused, and a C other than 0
reports 0x001 before the 0x002 of the reserved code. -/
def decCvtq (h : Hdr) (w : Nat) : Except Nat Instr :=
  match splitBits layCvtq w with
  | [z0, xd, xa, xb, xc, z5, xrm, xsat, z8, z9, z10, xsk, xtk, z13] =>
    if z0 + z13 ≠ 0 then .error 0x001 else
    let sat := xsat == 1
    if !(decide (xtk < 2) || decide (xc = 0)) then .error 0x001 else
    if z5 ≠ 0 ∨ z8 ≠ 0 ∨ z9 ≠ 0 ∨ z10 ≠ 0 then .error 0x002 else
    match QTarget.ofCode xtk, Ty.ofCode xsk, Rm.ofCode xrm with
    | some tk, some sk, some rm =>
      if !(sk.isScalarFloat) then .error 0x002 else
      if h.sb ≠ 0 then .error 0x006 else
      match Opd.ofCode xd, Opd.ofCode xa, Opd.ofCode xb, Opd.ofCode xc with
      | some d, some a, some b, some c => .ok (.cvtq h tk sk rm sat d a b c)
      | _, _, _, _ => .error 0x020
    | _, _, _ => .error 0x002
  | _ => .error 0x000

/-- The word of CVTQ. -/
def encCvtq (h : Hdr) (tk : QTarget) (sk : Ty) (rm : Rm) (sat : Bool) (d : Opd) (a : Opd) (b : Opd) (c : Opd) : Nat :=
  joinBits (hdrFields 0x10B h ++
    [(0, 1), (d.code, 9), (a.code, 9), (b.code, 9), (c.code, 9), (0, 4), (rm.code, 2), (sat.toNat, 1), (0, 1), (0, 1), (0, 1), (sk.code, 5), (tk.code, 3), (0, 10)])

/-- Field lengths of DQ (format R) from bit 31 up. -/
def layDq : List Nat := [1, 9, 9, 9, 9, 4, 2, 1, 1, 1, 1, 3, 15]

/-- DQ: the checks of R98 and the instruction. DESIGN CHOICE (log 95): under a reserved target or kind C counts as unused, and a C other than 0
reports 0x001 before the 0x002 of the reserved code. -/
def decDq (h : Hdr) (w : Nat) : Except Nat Instr :=
  match splitBits layDq w with
  | [z0, xd, xa, xb, xc, xty, xrm, xsat, z8, z9, z10, xkind, z12] =>
    if z0 + z12 ≠ 0 then .error 0x001 else
    let sat := xsat == 1
    if !(decide (xkind < 2) || decide (xc = 0)) then .error 0x001 else
    if z8 ≠ 0 ∨ z9 ≠ 0 ∨ z10 ≠ 0 then .error 0x002 else
    match Ty.ofCode xty, QTarget.ofCode xkind, Rm.ofCode xrm with
    | some ty, some kind, some rm =>
      if !(ty.isScalarFloat) then .error 0x002 else
      if h.sb ≠ 0 then .error 0x006 else
      match Opd.ofCode xd, Opd.ofCode xa, Opd.ofCode xb, Opd.ofCode xc with
      | some d, some a, some b, some c => .ok (.dq h ty kind rm sat d a b c)
      | _, _, _, _ => .error 0x020
    | _, _, _ => .error 0x002
  | _ => .error 0x000

/-- The word of DQ. -/
def encDq (h : Hdr) (ty : Ty) (kind : QTarget) (rm : Rm) (sat : Bool) (d : Opd) (a : Opd) (b : Opd) (c : Opd) : Nat :=
  joinBits (hdrFields 0x10C h ++
    [(0, 1), (d.code, 9), (a.code, 9), (b.code, 9), (c.code, 9), (ty.code, 4), (rm.code, 2), (sat.toNat, 1), (0, 1), (0, 1), (0, 1), (kind.code, 3), (0, 15)])

/-- Field lengths of RCP (format R) from bit 31 up. -/
def layRcp : List Nat := [1, 9, 9, 18, 4, 2, 1, 1, 1, 1, 18]

/-- RCP: the checks of R98 and the instruction. -/
def decRcp (h : Hdr) (w : Nat) : Except Nat Instr :=
  match splitBits layRcp w with
  | [z0, xd, xa, z3, xty, z5, z6, xna, z8, z9, z10] =>
    if z0 + z3 + z10 ≠ 0 then .error 0x001 else
    let na := xna == 1
    if z5 ≠ 0 ∨ z6 ≠ 0 ∨ z8 ≠ 0 ∨ z9 ≠ 0 then .error 0x002 else
    match Ty.ofCode xty with
    | some ty =>
      if !(ty.isScalarFloat) then .error 0x002 else
      if h.sb ≠ 0 then .error 0x006 else
      match Opd.ofCode xd, Opd.ofCode xa with
      | some d, some a => .ok (.rcp h ty na d a)
      | _, _ => .error 0x020
    | _ => .error 0x002
  | _ => .error 0x000

/-- The word of RCP. -/
def encRcp (h : Hdr) (ty : Ty) (na : Bool) (d : Opd) (a : Opd) : Nat :=
  joinBits (hdrFields 0x10D h ++
    [(0, 1), (d.code, 9), (a.code, 9), (0, 18), (ty.code, 4), (0, 2), (0, 1), (na.toNat, 1), (0, 1), (0, 1), (0, 18)])

/-- Field lengths of RSQ (format R) from bit 31 up. -/
def layRsq : List Nat := [1, 9, 9, 18, 4, 2, 1, 1, 1, 1, 18]

/-- RSQ: the checks of R98 and the instruction. -/
def decRsq (h : Hdr) (w : Nat) : Except Nat Instr :=
  match splitBits layRsq w with
  | [z0, xd, xa, z3, xty, z5, z6, xna, z8, z9, z10] =>
    if z0 + z3 + z10 ≠ 0 then .error 0x001 else
    let na := xna == 1
    if z5 ≠ 0 ∨ z6 ≠ 0 ∨ z8 ≠ 0 ∨ z9 ≠ 0 then .error 0x002 else
    match Ty.ofCode xty with
    | some ty =>
      if !(ty.isScalarFloat) then .error 0x002 else
      if h.sb ≠ 0 then .error 0x006 else
      match Opd.ofCode xd, Opd.ofCode xa with
      | some d, some a => .ok (.rsq h ty na d a)
      | _, _ => .error 0x020
    | _ => .error 0x002
  | _ => .error 0x000

/-- The word of RSQ. -/
def encRsq (h : Hdr) (ty : Ty) (na : Bool) (d : Opd) (a : Opd) : Nat :=
  joinBits (hdrFields 0x10E h ++
    [(0, 1), (d.code, 9), (a.code, 9), (0, 18), (ty.code, 4), (0, 2), (0, 1), (na.toNat, 1), (0, 1), (0, 1), (0, 18)])

/-- Field lengths of SQRT (format R) from bit 31 up. -/
def laySqrt : List Nat := [1, 9, 9, 18, 4, 2, 1, 1, 1, 1, 18]

/-- SQRT: the checks of R98 and the instruction. -/
def decSqrt (h : Hdr) (w : Nat) : Except Nat Instr :=
  match splitBits laySqrt w with
  | [z0, xd, xa, z3, xty, xrm, z6, xna, z8, z9, z10] =>
    if z0 + z3 + z10 ≠ 0 then .error 0x001 else
    let na := xna == 1
    if z6 ≠ 0 ∨ z8 ≠ 0 ∨ z9 ≠ 0 then .error 0x002 else
    match Ty.ofCode xty, Rm.ofCode xrm with
    | some ty, some rm =>
      if !(ty.isScalarFloat) then .error 0x002 else
      if h.sb ≠ 0 then .error 0x006 else
      match Opd.ofCode xd, Opd.ofCode xa with
      | some d, some a => .ok (.sqrt h ty rm na d a)
      | _, _ => .error 0x020
    | _, _ => .error 0x002
  | _ => .error 0x000

/-- The word of SQRT. -/
def encSqrt (h : Hdr) (ty : Ty) (rm : Rm) (na : Bool) (d : Opd) (a : Opd) : Nat :=
  joinBits (hdrFields 0x10F h ++
    [(0, 1), (d.code, 9), (a.code, 9), (0, 18), (ty.code, 4), (rm.code, 2), (0, 1), (na.toNat, 1), (0, 1), (0, 1), (0, 18)])

/-- Field lengths of EXP2 (format R) from bit 31 up. -/
def layExp2 : List Nat := [1, 9, 9, 18, 4, 2, 1, 1, 1, 1, 18]

/-- EXP2: the checks of R98 and the instruction. -/
def decExp2 (h : Hdr) (w : Nat) : Except Nat Instr :=
  match splitBits layExp2 w with
  | [z0, xd, xa, z3, xty, z5, z6, xna, z8, z9, z10] =>
    if z0 + z3 + z10 ≠ 0 then .error 0x001 else
    let na := xna == 1
    if z5 ≠ 0 ∨ z6 ≠ 0 ∨ z8 ≠ 0 ∨ z9 ≠ 0 then .error 0x002 else
    match Ty.ofCode xty with
    | some ty =>
      if !(ty.isScalarFloat) then .error 0x002 else
      if h.sb ≠ 0 then .error 0x006 else
      match Opd.ofCode xd, Opd.ofCode xa with
      | some d, some a => .ok (.exp2 h ty na d a)
      | _, _ => .error 0x020
    | _ => .error 0x002
  | _ => .error 0x000

/-- The word of EXP2. -/
def encExp2 (h : Hdr) (ty : Ty) (na : Bool) (d : Opd) (a : Opd) : Nat :=
  joinBits (hdrFields 0x110 h ++
    [(0, 1), (d.code, 9), (a.code, 9), (0, 18), (ty.code, 4), (0, 2), (0, 1), (na.toNat, 1), (0, 1), (0, 1), (0, 18)])

/-- Field lengths of LOG2 (format R) from bit 31 up. -/
def layLog2 : List Nat := [1, 9, 9, 18, 4, 2, 1, 1, 1, 1, 18]

/-- LOG2: the checks of R98 and the instruction. -/
def decLog2 (h : Hdr) (w : Nat) : Except Nat Instr :=
  match splitBits layLog2 w with
  | [z0, xd, xa, z3, xty, z5, z6, xna, z8, z9, z10] =>
    if z0 + z3 + z10 ≠ 0 then .error 0x001 else
    let na := xna == 1
    if z5 ≠ 0 ∨ z6 ≠ 0 ∨ z8 ≠ 0 ∨ z9 ≠ 0 then .error 0x002 else
    match Ty.ofCode xty with
    | some ty =>
      if !(ty.isScalarFloat) then .error 0x002 else
      if h.sb ≠ 0 then .error 0x006 else
      match Opd.ofCode xd, Opd.ofCode xa with
      | some d, some a => .ok (.log2 h ty na d a)
      | _, _ => .error 0x020
    | _ => .error 0x002
  | _ => .error 0x000

/-- The word of LOG2. -/
def encLog2 (h : Hdr) (ty : Ty) (na : Bool) (d : Opd) (a : Opd) : Nat :=
  joinBits (hdrFields 0x111 h ++
    [(0, 1), (d.code, 9), (a.code, 9), (0, 18), (ty.code, 4), (0, 2), (0, 1), (na.toNat, 1), (0, 1), (0, 1), (0, 18)])

/-- Field lengths of SINR (format R) from bit 31 up. -/
def laySinr : List Nat := [1, 9, 9, 18, 4, 2, 1, 1, 1, 1, 18]

/-- SINR: the checks of R98 and the instruction. -/
def decSinr (h : Hdr) (w : Nat) : Except Nat Instr :=
  match splitBits laySinr w with
  | [z0, xd, xa, z3, xty, z5, z6, xna, z8, z9, z10] =>
    if z0 + z3 + z10 ≠ 0 then .error 0x001 else
    let na := xna == 1
    if z5 ≠ 0 ∨ z6 ≠ 0 ∨ z8 ≠ 0 ∨ z9 ≠ 0 then .error 0x002 else
    match Ty.ofCode xty with
    | some ty =>
      if !(ty.isScalarFloat) then .error 0x002 else
      if h.sb ≠ 0 then .error 0x006 else
      match Opd.ofCode xd, Opd.ofCode xa with
      | some d, some a => .ok (.sinr h ty na d a)
      | _, _ => .error 0x020
    | _ => .error 0x002
  | _ => .error 0x000

/-- The word of SINR. -/
def encSinr (h : Hdr) (ty : Ty) (na : Bool) (d : Opd) (a : Opd) : Nat :=
  joinBits (hdrFields 0x112 h ++
    [(0, 1), (d.code, 9), (a.code, 9), (0, 18), (ty.code, 4), (0, 2), (0, 1), (na.toNat, 1), (0, 1), (0, 1), (0, 18)])

/-- Field lengths of COSR (format R) from bit 31 up. -/
def layCosr : List Nat := [1, 9, 9, 18, 4, 2, 1, 1, 1, 1, 18]

/-- COSR: the checks of R98 and the instruction. -/
def decCosr (h : Hdr) (w : Nat) : Except Nat Instr :=
  match splitBits layCosr w with
  | [z0, xd, xa, z3, xty, z5, z6, xna, z8, z9, z10] =>
    if z0 + z3 + z10 ≠ 0 then .error 0x001 else
    let na := xna == 1
    if z5 ≠ 0 ∨ z6 ≠ 0 ∨ z8 ≠ 0 ∨ z9 ≠ 0 then .error 0x002 else
    match Ty.ofCode xty with
    | some ty =>
      if !(ty.isScalarFloat) then .error 0x002 else
      if h.sb ≠ 0 then .error 0x006 else
      match Opd.ofCode xd, Opd.ofCode xa with
      | some d, some a => .ok (.cosr h ty na d a)
      | _, _ => .error 0x020
    | _ => .error 0x002
  | _ => .error 0x000

/-- The word of COSR. -/
def encCosr (h : Hdr) (ty : Ty) (na : Bool) (d : Opd) (a : Opd) : Nat :=
  joinBits (hdrFields 0x113 h ++
    [(0, 1), (d.code, 9), (a.code, 9), (0, 18), (ty.code, 4), (0, 2), (0, 1), (na.toNat, 1), (0, 1), (0, 1), (0, 18)])

/-- Field lengths of BRA (format B) from bit 31 up. -/
def layBra : List Nat := [1, 1, 12, 5, 1, 5, 24, 16]

/-- BRA: the checks of R98 and the instruction. -/
def decBra (h : Hdr) (w : Nat) : Except Nat Instr :=
  match splitBits layBra w with
  | [z0, xu, z2, xpr, xpnb, z5, xdisp, xrcv] =>
    if z0 + z2 + z5 ≠ 0 then .error 0x001 else
    let u := xu == 1
    let pr := xpr
    let pnb := xpnb == 1
    let disp := BitVec.ofNat 24 xdisp
    let rcv := BitVec.ofNat 16 xrcv
    if h.sb ≠ 0 then .error 0x006 else
    .ok (.bra h u pr pnb disp rcv)
  | _ => .error 0x000

/-- The word of BRA. -/
def encBra (h : Hdr) (u : Bool) (pr : Nat) (pnb : Bool) (disp : BitVec 24) (rcv : BitVec 16) : Nat :=
  joinBits (hdrFields 0x180 h ++
    [(0, 1), (u.toNat, 1), (0, 12), (pr, 5), (pnb.toNat, 1), (0, 5), (disp.toNat, 24), (rcv.toNat, 16)])

/-- Field lengths of BRX (format B) from bit 31 up. -/
def layBrx : List Nat := [1, 1, 1, 2, 9, 5, 1, 29, 16]

/-- BRX: the checks of R98 and the instruction. -/
def decBrx (h : Hdr) (w : Nat) : Except Nat Instr :=
  match splitBits layBrx w with
  | [z0, xu, xvv, z3, xa, xpr, xpnb, z7, xrcv] =>
    if z0 + z3 + z7 ≠ 0 then .error 0x001 else
    let u := xu == 1
    let vv := xvv == 1
    let pr := xpr
    let pnb := xpnb == 1
    let rcv := BitVec.ofNat 16 xrcv
    if !((!vv || ((Opd.ofCode xa).getD (.v 0)).isTarget)) then .error 0x002 else
    if h.sb ≠ 0 then .error 0x006 else
    match Opd.ofCode xa with
    | some a => .ok (.brx h u vv pr pnb a rcv)
    | _ => .error 0x020
  | _ => .error 0x000

/-- The word of BRX. -/
def encBrx (h : Hdr) (u : Bool) (vv : Bool) (pr : Nat) (pnb : Bool) (a : Opd) (rcv : BitVec 16) : Nat :=
  joinBits (hdrFields 0x181 h ++
    [(0, 1), (u.toNat, 1), (vv.toNat, 1), (0, 2), (a.code, 9), (pr, 5), (pnb.toNat, 1), (0, 29), (rcv.toNat, 16)])

/-- Field lengths of CALL (format B) from bit 31 up. -/
def layCall : List Nat := [1, 1, 23, 24, 16]

/-- CALL: the checks of R98 and the instruction. -/
def decCall (h : Hdr) (w : Nat) : Except Nat Instr :=
  match splitBits layCall w with
  | [z0, _, z2, xdisp, z4] =>
    if z0 + z2 + z4 ≠ 0 then .error 0x001 else
    let disp := BitVec.ofNat 24 xdisp
    if h.sb ≠ 0 then .error 0x006 else
    .ok (.call h disp)
  | _ => .error 0x000

/-- The word of CALL. -/
def encCall (h : Hdr) (disp : BitVec 24) : Nat :=
  joinBits (hdrFields 0x182 h ++
    [(0, 1), (0, 1), (0, 23), (disp.toNat, 24), (0, 16)])

/-- Field lengths of CALL_IND (format B) from bit 31 up. -/
def layCallInd : List Nat := [1, 1, 3, 9, 51]

/-- CALL_IND: the checks of R98 and the instruction. -/
def decCallInd (h : Hdr) (w : Nat) : Except Nat Instr :=
  match splitBits layCallInd w with
  | [z0, _, z2, xa, z4] =>
    if z0 + z2 + z4 ≠ 0 then .error 0x001 else
    if h.sb ≠ 0 then .error 0x006 else
    match Opd.ofCode xa with
    | some a => .ok (.callInd h a)
    | _ => .error 0x020
  | _ => .error 0x000

/-- The word of CALL_IND. -/
def encCallInd (h : Hdr) (a : Opd) : Nat :=
  joinBits (hdrFields 0x182 h ++
    [(0, 1), (1, 1), (0, 3), (a.code, 9), (0, 51)])

/-- Field lengths of RET (format B) from bit 31 up. -/
def layRet : List Nat := [14, 5, 1, 45]

/-- RET: the checks of R98 and the instruction. -/
def decRet (h : Hdr) (w : Nat) : Except Nat Instr :=
  match splitBits layRet w with
  | [z0, xpr, xpnb, z3] =>
    if z0 + z3 ≠ 0 then .error 0x001 else
    let pr := xpr
    let pnb := xpnb == 1
    if h.sb ≠ 0 then .error 0x006 else
    .ok (.ret h pr pnb)
  | _ => .error 0x000

/-- The word of RET. -/
def encRet (h : Hdr) (pr : Nat) (pnb : Bool) : Nat :=
  joinBits (hdrFields 0x183 h ++
    [(0, 14), (pr, 5), (pnb.toNat, 1), (0, 45)])

/-- Field lengths of EXIT (format S) from bit 31 up. -/
def layExit : List Nat := [65]

/-- EXIT: the checks of R98 and the instruction. -/
def decExit (h : Hdr) (w : Nat) : Except Nat Instr :=
  match splitBits layExit w with
  | [z0] =>
    if z0 ≠ 0 then .error 0x001 else
    if h.sb ≠ 0 then .error 0x006 else
    .ok (.exit h)
  | _ => .error 0x000

/-- The word of EXIT. -/
def encExit (h : Hdr) : Nat :=
  joinBits (hdrFields 0x184 h ++
    [(0, 65)])

/-- Field lengths of BREAK (format B) from bit 31 up. -/
def layBreakp : List Nat := [14, 5, 1, 5, 24, 16]

/-- BREAK: the checks of R98 and the instruction. -/
def decBreakp (h : Hdr) (w : Nat) : Except Nat Instr :=
  match splitBits layBreakp w with
  | [z0, xpr, xpnb, z3, xdisp, z5] =>
    if z0 + z3 + z5 ≠ 0 then .error 0x001 else
    let pr := xpr
    let pnb := xpnb == 1
    let disp := BitVec.ofNat 24 xdisp
    if h.sb ≠ 0 then .error 0x006 else
    .ok (.breakp h pr pnb disp)
  | _ => .error 0x000

/-- The word of BREAK. -/
def encBreakp (h : Hdr) (pr : Nat) (pnb : Bool) (disp : BitVec 24) : Nat :=
  joinBits (hdrFields 0x185 h ++
    [(0, 14), (pr, 5), (pnb.toNat, 1), (0, 5), (disp.toNat, 24), (0, 16)])

/-- Field lengths of MOVEM_RD (format S) from bit 31 up. -/
def layMovemRd : List Nat := [1, 9, 24, 1, 30]

/-- MOVEM_RD: the checks of R98 and the instruction. -/
def decMovemRd (h : Hdr) (w : Nat) : Except Nat Instr :=
  match splitBits layMovemRd w with
  | [z0, xd, z2, _, z4] =>
    if z0 + z2 + z4 ≠ 0 then .error 0x001 else
    if h.sb ≠ 0 then .error 0x006 else
    match Opd.ofCode xd with
    | some d => .ok (.movemRd h d)
    | _ => .error 0x020
  | _ => .error 0x000

/-- The word of MOVEM_RD. -/
def encMovemRd (h : Hdr) (d : Opd) : Nat :=
  joinBits (hdrFields 0x186 h ++
    [(0, 1), (d.code, 9), (0, 24), (0, 1), (0, 30)])

/-- Field lengths of MOVEM_WR (format S) from bit 31 up. -/
def layMovemWr : List Nat := [10, 9, 15, 1, 30]

/-- MOVEM_WR: the checks of R98 and the instruction. -/
def decMovemWr (h : Hdr) (w : Nat) : Except Nat Instr :=
  match splitBits layMovemWr w with
  | [z0, xa, z2, _, z4] =>
    if z0 + z2 + z4 ≠ 0 then .error 0x001 else
    if h.sb ≠ 0 then .error 0x006 else
    match Opd.ofCode xa with
    | some a => .ok (.movemWr h a)
    | _ => .error 0x020
  | _ => .error 0x000

/-- The word of MOVEM_WR. -/
def encMovemWr (h : Hdr) (a : Opd) : Nat :=
  joinBits (hdrFields 0x186 h ++
    [(0, 10), (a.code, 9), (0, 15), (1, 1), (0, 30)])

/-- Field lengths of BAR (format S) from bit 31 up. -/
def layBar : List Nat := [28, 3, 3, 2, 5, 4, 5, 15]

/-- BAR: the checks of R98 and the instruction. -/
def decBar (h : Hdr) (w : Nat) : Except Nat Instr :=
  match splitBits layBar w with
  | [z0, xsc, z2, xmode, z4, xid, xn, z7] =>
    if z0 + z2 + z4 + z7 ≠ 0 then .error 0x001 else
    let id := xid
    let n := xn
    match BarMode.ofCode xmode, Scope.ofCode xsc with
    | some mode, some sc =>
      if !(sc.upToDev) then .error 0x002 else
      if h.sb ≠ 0 then .error 0x006 else
      .ok (.bar h mode sc id n)
    | _, _ => .error 0x002
  | _ => .error 0x000

/-- The word of BAR. -/
def encBar (h : Hdr) (mode : BarMode) (sc : Scope) (id : Nat) (n : Nat) : Nat :=
  joinBits (hdrFields 0x187 h ++
    [(0, 28), (sc.code, 3), (0, 3), (mode.code, 2), (0, 5), (id, 4), (n, 5), (0, 15)])

/-- Field lengths of BARG (format S) from bit 31 up. -/
def layBarg : List Nat := [28, 3, 3, 2, 5, 3, 21]

/-- BARG: the checks of R98 and the instruction. -/
def decBarg (h : Hdr) (w : Nat) : Except Nat Instr :=
  match splitBits layBarg w with
  | [z0, xsc, z2, xmode, z4, xid, z6] =>
    if z0 + z2 + z4 + z6 ≠ 0 then .error 0x001 else
    let id := xid
    match BarMode.ofCode xmode, Scope.ofCode xsc with
    | some mode, some sc =>
      if !(sc.gangOrDev) then .error 0x002 else
      if h.sb ≠ 0 then .error 0x006 else
      .ok (.barg h mode sc id)
    | _, _ => .error 0x002
  | _ => .error 0x000

/-- The word of BARG. -/
def encBarg (h : Hdr) (mode : BarMode) (sc : Scope) (id : Nat) : Nat :=
  joinBits (hdrFields 0x188 h ++
    [(0, 28), (sc.code, 3), (0, 3), (mode.code, 2), (0, 5), (id, 3), (0, 21)])

/-- Field lengths of LAUNCH (format S) from bit 31 up. -/
def layLaunch : List Nat := [10, 9, 9, 6, 5, 26]

/-- LAUNCH: the checks of R98 and the instruction. -/
def decLaunch (h : Hdr) (w : Nat) : Except Nat Instr :=
  match splitBits layLaunch w with
  | [z0, xa, xb, z3, xpr, z5] =>
    if z0 + z3 + z5 ≠ 0 then .error 0x001 else
    let pr := xpr
    if !(((Opd.ofCode xb).getD (.v 0)).notQ) then .error 0x002 else
    match Opd.ofCode xa, Opd.ofCode xb with
    | some a, some b => .ok (.launch h pr a b)
    | _, _ => .error 0x020
  | _ => .error 0x000

/-- The word of LAUNCH. -/
def encLaunch (h : Hdr) (pr : Nat) (a : Opd) (b : Opd) : Nat :=
  joinBits (hdrFields 0x189 h ++
    [(0, 10), (a.code, 9), (b.code, 9), (0, 6), (pr, 5), (0, 26)])

/-- Field lengths of CANCEL (format S) from bit 31 up. -/
def layCancel : List Nat := [31, 3, 1, 30]

/-- CANCEL: the checks of R98 and the instruction. -/
def decCancel (h : Hdr) (w : Nat) : Except Nat Instr :=
  match splitBits layCancel w with
  | [z0, xlv, _, z3] =>
    if z0 + z3 ≠ 0 then .error 0x001 else
    match Level.ofCode xlv with
    | some lv =>
      if h.sb ≠ 0 then .error 0x006 else
      .ok (.cancel h lv)
    | _ => .error 0x002
  | _ => .error 0x000

/-- The word of CANCEL. -/
def encCancel (h : Hdr) (lv : Level) : Nat :=
  joinBits (hdrFields 0x18A h ++
    [(0, 31), (lv.code, 3), (0, 1), (0, 30)])

/-- Field lengths of CANCEL_ID (format S) from bit 31 up. -/
def layCancelId : List Nat := [10, 9, 12, 3, 1, 30]

/-- CANCEL_ID: the checks of R98 and the instruction. -/
def decCancelId (h : Hdr) (w : Nat) : Except Nat Instr :=
  match splitBits layCancelId w with
  | [z0, xa, z2, xlv, _, z5] =>
    if z0 + z2 + z5 ≠ 0 then .error 0x001 else
    match Level.ofCode xlv with
    | some lv =>
      if !(lv.hasId) then .error 0x002 else
      if h.sb ≠ 0 then .error 0x006 else
      match Opd.ofCode xa with
      | some a => .ok (.cancelId h lv a)
      | _ => .error 0x020
    | _ => .error 0x002
  | _ => .error 0x000

/-- The word of CANCEL_ID. -/
def encCancelId (h : Hdr) (lv : Level) (a : Opd) : Nat :=
  joinBits (hdrFields 0x18A h ++
    [(0, 10), (a.code, 9), (0, 12), (lv.code, 3), (1, 1), (0, 30)])

/-- Field lengths of YIELD (format S) from bit 31 up. -/
def layYieldw : List Nat := [65]

/-- YIELD: the checks of R98 and the instruction. -/
def decYieldw (h : Hdr) (w : Nat) : Except Nat Instr :=
  match splitBits layYieldw w with
  | [z0] =>
    if z0 ≠ 0 then .error 0x001 else
    if h.sb ≠ 0 then .error 0x006 else
    .ok (.yieldw h)
  | _ => .error 0x000

/-- The word of YIELD. -/
def encYieldw (h : Hdr) : Nat :=
  joinBits (hdrFields 0x18B h ++
    [(0, 65)])

/-- Field lengths of SLEEP (format S) from bit 31 up. -/
def laySleep : List Nat := [34, 1, 6, 24]

/-- SLEEP: the checks of R98 and the instruction. -/
def decSleep (h : Hdr) (w : Nat) : Except Nat Instr :=
  match splitBits laySleep w with
  | [z0, _, z2, xn] =>
    if z0 + z2 ≠ 0 then .error 0x001 else
    let n := BitVec.ofNat 24 xn
    if h.sb ≠ 0 then .error 0x006 else
    .ok (.sleep h n)
  | _ => .error 0x000

/-- The word of SLEEP. -/
def encSleep (h : Hdr) (n : BitVec 24) : Nat :=
  joinBits (hdrFields 0x18C h ++
    [(0, 34), (0, 1), (0, 6), (n.toNat, 24)])

/-- Field lengths of SLEEP_WATCH (format S) from bit 31 up. -/
def laySleepWatch : List Nat := [10, 9, 15, 1, 6, 24]

/-- SLEEP_WATCH: the checks of R98 and the instruction. -/
def decSleepWatch (h : Hdr) (w : Nat) : Except Nat Instr :=
  match splitBits laySleepWatch w with
  | [z0, xa, z2, _, z4, xn] =>
    if z0 + z2 + z4 ≠ 0 then .error 0x001 else
    let n := BitVec.ofNat 24 xn
    if h.sb ≠ 0 then .error 0x006 else
    match Opd.ofCode xa with
    | some a => .ok (.sleepWatch h a n)
    | _ => .error 0x020
  | _ => .error 0x000

/-- The word of SLEEP_WATCH. -/
def encSleepWatch (h : Hdr) (a : Opd) (n : BitVec 24) : Nat :=
  joinBits (hdrFields 0x18C h ++
    [(0, 10), (a.code, 9), (0, 15), (1, 1), (0, 6), (n.toNat, 24)])

/-- Field lengths of SYSCALL (format S) from bit 31 up. -/
def laySyscall : List Nat := [1, 9, 9, 22, 16, 8]

/-- SYSCALL: the checks of R98 and the instruction. -/
def decSyscall (h : Hdr) (w : Nat) : Except Nat Instr :=
  match splitBits laySyscall w with
  | [z0, xd, xa, z3, xn, z5] =>
    if z0 + z3 + z5 ≠ 0 then .error 0x001 else
    let n := BitVec.ofNat 16 xn
    match Opd.ofCode xd, Opd.ofCode xa with
    | some d, some a => .ok (.syscall h d a n)
    | _, _ => .error 0x020
  | _ => .error 0x000

/-- The word of SYSCALL. -/
def encSyscall (h : Hdr) (d : Opd) (a : Opd) (n : BitVec 16) : Nat :=
  joinBits (hdrFields 0x18D h ++
    [(0, 1), (d.code, 9), (a.code, 9), (0, 22), (n.toNat, 16), (0, 8)])

/-- Field lengths of TRAP (format S) from bit 31 up. -/
def layTrap : List Nat := [41, 4, 20]

/-- TRAP: the checks of R98 and the instruction. -/
def decTrap (h : Hdr) (w : Nat) : Except Nat Instr :=
  match splitBits layTrap w with
  | [z0, xn, z2] =>
    if z0 + z2 ≠ 0 then .error 0x001 else
    let n := xn
    if h.sb ≠ 0 then .error 0x006 else
    .ok (.trap h n)
  | _ => .error 0x000

/-- The word of TRAP. -/
def encTrap (h : Hdr) (n : Nat) : Nat :=
  joinBits (hdrFields 0x18E h ++
    [(0, 41), (n, 4), (0, 20)])

/-- Field lengths of RETT (format S) from bit 31 up. -/
def layRett : List Nat := [65]

/-- RETT: the checks of R98 and the instruction. -/
def decRett (h : Hdr) (w : Nat) : Except Nat Instr :=
  match splitBits layRett w with
  | [z0] =>
    if z0 ≠ 0 then .error 0x001 else
    if h.sb ≠ 0 then .error 0x006 else
    .ok (.rett h)
  | _ => .error 0x000

/-- The word of RETT. -/
def encRett (h : Hdr) : Nat :=
  joinBits (hdrFields 0x18F h ++
    [(0, 65)])

/-- Field lengths of IDEND (format S) from bit 31 up. -/
def layIdend : List Nat := [65]

/-- IDEND: the checks of R98 and the instruction. -/
def decIdend (h : Hdr) (w : Nat) : Except Nat Instr :=
  match splitBits layIdend w with
  | [z0] =>
    if z0 ≠ 0 then .error 0x001 else
    if h.sb ≠ 0 then .error 0x006 else
    .ok (.idend h)
  | _ => .error 0x000

/-- The word of IDEND. -/
def encIdend (h : Hdr) : Nat :=
  joinBits (hdrFields 0x190 h ++
    [(0, 65)])

/-- Field lengths of TIME (format S) from bit 31 up. -/
def layTime : List Nat := [1, 9, 24, 2, 29]

/-- TIME: the checks of R98 and the instruction. -/
def decTime (h : Hdr) (w : Nat) : Except Nat Instr :=
  match splitBits layTime w with
  | [z0, xd, z2, xsrc, z4] =>
    if z0 + z2 + z4 ≠ 0 then .error 0x001 else
    match TimeSrc.ofCode xsrc with
    | some src =>
      match Opd.ofCode xd with
      | some d => .ok (.time h src d)
      | _ => .error 0x020
    | _ => .error 0x002
  | _ => .error 0x000

/-- The word of TIME. -/
def encTime (h : Hdr) (src : TimeSrc) (d : Opd) : Nat :=
  joinBits (hdrFields 0x191 h ++
    [(0, 1), (d.code, 9), (0, 24), (src.code, 2), (0, 29)])

/-- Field lengths of MOVSR (format S) from bit 31 up. -/
def layMovsr : List Nat := [1, 9, 24, 5, 26]

/-- MOVSR: the checks of R98 and the instruction. -/
def decMovsr (h : Hdr) (w : Nat) : Except Nat Instr :=
  match splitBits layMovsr w with
  | [z0, xd, z2, xidx, z4] =>
    if z0 + z2 + z4 ≠ 0 then .error 0x001 else
    let idx := xidx
    match Opd.ofCode xd with
    | some d => .ok (.movsr h idx d)
    | _ => .error 0x020
  | _ => .error 0x000

/-- The word of MOVSR. -/
def encMovsr (h : Hdr) (idx : Nat) (d : Opd) : Nat :=
  joinBits (hdrFields 0x192 h ++
    [(0, 1), (d.code, 9), (0, 24), (idx, 5), (0, 26)])

/-- Field lengths of SETSR (format S) from bit 31 up. -/
def laySetsr : List Nat := [10, 9, 15, 5, 26]

/-- SETSR: the checks of R98 and the instruction. -/
def decSetsr (h : Hdr) (w : Nat) : Except Nat Instr :=
  match splitBits laySetsr w with
  | [z0, xa, z2, xidx, z4] =>
    if z0 + z2 + z4 ≠ 0 then .error 0x001 else
    let idx := xidx
    if h.sb ≠ 0 then .error 0x006 else
    match Opd.ofCode xa with
    | some a => .ok (.setsr h idx a)
    | _ => .error 0x020
  | _ => .error 0x000

/-- The word of SETSR. -/
def encSetsr (h : Hdr) (idx : Nat) (a : Opd) : Nat :=
  joinBits (hdrFields 0x193 h ++
    [(0, 10), (a.code, 9), (0, 15), (idx, 5), (0, 26)])

/-- Field lengths of LD (format M) from bit 31 up. -/
def layLd : List Nat := [1, 9, 9, 9, 3, 3, 3, 3, 4, 1, 20]

/-- LD: the checks of R98 and the instruction. -/
def decLd (h : Hdr) (w : Nat) : Except Nat Instr :=
  match splitBits layLd w with
  | [z0, xd, xa, z3, xsp, xsz, xhint, xsc, z8, xfe, xoff] =>
    if z0 + z3 + z8 ≠ 0 then .error 0x001 else
    let hint := xhint
    let fe := xfe == 1
    let off := BitVec.ofNat 20 xoff
    match Space.ofCode xsp, Size.ofCode xsz, Scope.ofCode xsc with
    | some sp, some sz, some sc =>
      if !((!fe || sp.feOk)) then .error 0x002 else
      match Opd.ofCode xd, Opd.ofCode xa with
      | some d, some a => .ok (.ld h sp sz sc hint fe off d a)
      | _, _ => .error 0x020
    | _, _, _ => .error 0x002
  | _ => .error 0x000

/-- The word of LD. -/
def encLd (h : Hdr) (sp : Space) (sz : Size) (sc : Scope) (hint : Nat) (fe : Bool) (off : BitVec 20) (d : Opd) (a : Opd) : Nat :=
  joinBits (hdrFields 0x200 h ++
    [(0, 1), (d.code, 9), (a.code, 9), (0, 9), (sp.code, 3), (sz.code, 3), (hint, 3), (sc.code, 3), (0, 4), (fe.toNat, 1), (off.toNat, 20)])

/-- Field lengths of ST (format M) from bit 31 up. -/
def laySt : List Nat := [10, 9, 9, 3, 3, 3, 7, 1, 20]

/-- ST: the checks of R98 and the instruction. -/
def decSt (h : Hdr) (w : Nat) : Except Nat Instr :=
  match splitBits laySt w with
  | [z0, xa, xb, xsp, xsz, xhint, z6, xfe, xoff] =>
    if z0 + z6 ≠ 0 then .error 0x001 else
    let hint := xhint
    let fe := xfe == 1
    let off := BitVec.ofNat 20 xoff
    match Space.ofCode xsp, Size.ofCode xsz with
    | some sp, some sz =>
      if !((!fe || sp.feOk)) then .error 0x002 else
      match Opd.ofCode xa, Opd.ofCode xb with
      | some a, some b => .ok (.st h sp sz hint fe off a b)
      | _, _ => .error 0x020
    | _, _ => .error 0x002
  | _ => .error 0x000

/-- The word of ST. -/
def encSt (h : Hdr) (sp : Space) (sz : Size) (hint : Nat) (fe : Bool) (off : BitVec 20) (a : Opd) (b : Opd) : Nat :=
  joinBits (hdrFields 0x201 h ++
    [(0, 10), (a.code, 9), (b.code, 9), (sp.code, 3), (sz.code, 3), (hint, 3), (0, 7), (fe.toNat, 1), (off.toNat, 20)])

/-- Field lengths of LDU (format M) from bit 31 up. -/
def layLdu : List Nat := [1, 9, 9, 9, 3, 3, 3, 3, 5, 20]

/-- LDU: the checks of R98 and the instruction. -/
def decLdu (h : Hdr) (w : Nat) : Except Nat Instr :=
  match splitBits layLdu w with
  | [z0, xd, xa, z3, xsp, xsz, xhint, xsc, z8, xoff] =>
    if z0 + z3 + z8 ≠ 0 then .error 0x001 else
    let hint := xhint
    let off := BitVec.ofNat 20 xoff
    match Space.ofCode xsp, Size.ofCode xsz, Scope.ofCode xsc with
    | some sp, some sz, some sc =>
      match Opd.ofCode xd, Opd.ofCode xa with
      | some d, some a => .ok (.ldu h sp sz sc hint off d a)
      | _, _ => .error 0x020
    | _, _, _ => .error 0x002
  | _ => .error 0x000

/-- The word of LDU. -/
def encLdu (h : Hdr) (sp : Space) (sz : Size) (sc : Scope) (hint : Nat) (off : BitVec 20) (d : Opd) (a : Opd) : Nat :=
  joinBits (hdrFields 0x202 h ++
    [(0, 1), (d.code, 9), (a.code, 9), (0, 9), (sp.code, 3), (sz.code, 3), (hint, 3), (sc.code, 3), (0, 5), (off.toNat, 20)])

/-- Field lengths of ATOM (format M) from bit 31 up. -/
def layAtom : List Nat := [1, 9, 9, 9, 3, 3, 3, 3, 4, 1, 20]

/-- ATOM: the checks of R98 and the instruction. -/
def decAtom (h : Hdr) (w : Nat) : Except Nat Instr :=
  match splitBits layAtom w with
  | [z0, xd, xa, xb, xsp, xsz, z6, xsc, xop, z9, xoff] =>
    if z0 + z6 + z9 ≠ 0 then .error 0x001 else
    let off := BitVec.ofNat 20 xoff
    match Aop.ofCode xop, Space.ofCode xsp, Size.ofCode xsz, Scope.ofCode xsc with
    | some op, some sp, some sz, some sc =>
      if !(sp.atomOk && sz.isWord && ((Opd.ofCode xb).getD (.v 0)).notQ) then .error 0x002 else
      match Opd.ofCode xd, Opd.ofCode xa, Opd.ofCode xb with
      | some d, some a, some b => .ok (.atom h op sp sz sc off d a b)
      | _, _, _ => .error 0x020
    | _, _, _, _ => .error 0x002
  | _ => .error 0x000

/-- The word of ATOM. -/
def encAtom (h : Hdr) (op : Aop) (sp : Space) (sz : Size) (sc : Scope) (off : BitVec 20) (d : Opd) (a : Opd) (b : Opd) : Nat :=
  joinBits (hdrFields 0x203 h ++
    [(0, 1), (d.code, 9), (a.code, 9), (b.code, 9), (sp.code, 3), (sz.code, 3), (0, 3), (sc.code, 3), (op.code, 4), (0, 1), (off.toNat, 20)])

/-- Field lengths of CAS (format M) from bit 31 up. -/
def layCas : List Nat := [1, 9, 9, 9, 3, 3, 3, 3, 5, 20]

/-- CAS: the checks of R98 and the instruction. -/
def decCas (h : Hdr) (w : Nat) : Except Nat Instr :=
  match splitBits layCas w with
  | [z0, xd, xa, xb, xsp, xsz, z6, xsc, z8, xoff] =>
    if z0 + z6 + z8 ≠ 0 then .error 0x001 else
    let off := BitVec.ofNat 20 xoff
    match Space.ofCode xsp, Size.ofCode xsz, Scope.ofCode xsc with
    | some sp, some sz, some sc =>
      if !(sp.atomOk && sz.isWord && ((Opd.ofCode xb).getD (.v 0)).isReg) then .error 0x002 else
      match Opd.ofCode xd, Opd.ofCode xa, Opd.ofCode xb with
      | some d, some a, some b => .ok (.cas h sp sz sc off d a b)
      | _, _, _ => .error 0x020
    | _, _, _ => .error 0x002
  | _ => .error 0x000

/-- The word of CAS. -/
def encCas (h : Hdr) (sp : Space) (sz : Size) (sc : Scope) (off : BitVec 20) (d : Opd) (a : Opd) (b : Opd) : Nat :=
  joinBits (hdrFields 0x204 h ++
    [(0, 1), (d.code, 9), (a.code, 9), (b.code, 9), (sp.code, 3), (sz.code, 3), (0, 3), (sc.code, 3), (0, 5), (off.toNat, 20)])

/-- Field lengths of RED (format M) from bit 31 up. -/
def layRed : List Nat := [10, 9, 9, 3, 3, 3, 3, 4, 1, 20]

/-- RED: the checks of R98 and the instruction. -/
def decRed (h : Hdr) (w : Nat) : Except Nat Instr :=
  match splitBits layRed w with
  | [z0, xa, xb, xsp, xsz, z5, xsc, xop, z8, xoff] =>
    if z0 + z5 + z8 ≠ 0 then .error 0x001 else
    let off := BitVec.ofNat 20 xoff
    match Aop.ofCode xop, Space.ofCode xsp, Size.ofCode xsz, Scope.ofCode xsc with
    | some op, some sp, some sz, some sc =>
      if !(sp.atomOk && sz.isWord && op.redOk && ((Opd.ofCode xb).getD (.v 0)).notQ) then .error 0x002 else
      match Opd.ofCode xa, Opd.ofCode xb with
      | some a, some b => .ok (.red h op sp sz sc off a b)
      | _, _ => .error 0x020
    | _, _, _, _ => .error 0x002
  | _ => .error 0x000

/-- The word of RED. -/
def encRed (h : Hdr) (op : Aop) (sp : Space) (sz : Size) (sc : Scope) (off : BitVec 20) (a : Opd) (b : Opd) : Nat :=
  joinBits (hdrFields 0x205 h ++
    [(0, 10), (a.code, 9), (b.code, 9), (sp.code, 3), (sz.code, 3), (0, 3), (sc.code, 3), (op.code, 4), (0, 1), (off.toNat, 20)])

/-- Field lengths of FENCE (format S) from bit 31 up. -/
def layFence : List Nat := [28, 3, 3, 2, 29]

/-- FENCE: the checks of R98 and the instruction. -/
def decFence (h : Hdr) (w : Nat) : Except Nat Instr :=
  match splitBits layFence w with
  | [z0, xsc, z2, xmode, z4] =>
    if z0 + z2 + z4 ≠ 0 then .error 0x001 else
    match FenceMode.ofCode xmode, Scope.ofCode xsc with
    | some mode, some sc =>
      .ok (.fence h mode sc)
    | _, _ => .error 0x002
  | _ => .error 0x000

/-- The word of FENCE. -/
def encFence (h : Hdr) (mode : FenceMode) (sc : Scope) : Nat :=
  joinBits (hdrFields 0x206 h ++
    [(0, 28), (sc.code, 3), (0, 3), (mode.code, 2), (0, 29)])

/-- Field lengths of PREF (format M) from bit 31 up. -/
def layPref : List Nat := [10, 9, 9, 3, 3, 3, 3, 1, 4, 20]

/-- PREF: the checks of R98 and the instruction. -/
def decPref (h : Hdr) (w : Nat) : Except Nat Instr :=
  match splitBits layPref w with
  | [z0, xa, z2, xsp, z4, xhint, z6, xl1, z8, xoff] =>
    if z0 + z2 + z4 + z6 + z8 ≠ 0 then .error 0x001 else
    let hint := xhint
    let l1 := xl1 == 1
    let off := BitVec.ofNat 20 xoff
    match Space.ofCode xsp with
    | some sp =>
      if !(sp.genOrGlob) then .error 0x002 else
      match Opd.ofCode xa with
      | some a => .ok (.pref h sp hint l1 off a)
      | _ => .error 0x020
    | _ => .error 0x002
  | _ => .error 0x000

/-- The word of PREF. -/
def encPref (h : Hdr) (sp : Space) (hint : Nat) (l1 : Bool) (off : BitVec 20) (a : Opd) : Nat :=
  joinBits (hdrFields 0x207 h ++
    [(0, 10), (a.code, 9), (0, 9), (sp.code, 3), (0, 3), (hint, 3), (0, 3), (l1.toNat, 1), (0, 4), (off.toNat, 20)])

/-- Field lengths of CFLUSH (format M) from bit 31 up. -/
def layCflush : List Nat := [10, 9, 9, 3, 6, 3, 5, 20]

/-- CFLUSH: the checks of R98 and the instruction. -/
def decCflush (h : Hdr) (w : Nat) : Except Nat Instr :=
  match splitBits layCflush w with
  | [z0, xa, z2, xsp, z4, z5, z6, xoff] =>
    if z0 + z2 + z4 + z6 ≠ 0 then .error 0x001 else
    let off := BitVec.ofNat 20 xoff
    if z5 ≠ 2 then .error 0x002 else
    match Space.ofCode xsp with
    | some sp =>
      if !(sp.genOrGlob) then .error 0x002 else
      match Opd.ofCode xa with
      | some a => .ok (.cflush h sp off a)
      | _ => .error 0x020
    | _ => .error 0x002
  | _ => .error 0x000

/-- The word of CFLUSH. -/
def encCflush (h : Hdr) (sp : Space) (off : BitVec 20) (a : Opd) : Nat :=
  joinBits (hdrFields 0x208 h ++
    [(0, 10), (a.code, 9), (0, 9), (sp.code, 3), (0, 6), (2, 3), (0, 5), (off.toNat, 20)])

/-- Field lengths of CINV (format M) from bit 31 up. -/
def layCinv : List Nat := [10, 9, 9, 3, 6, 3, 5, 20]

/-- CINV: the checks of R98 and the instruction. -/
def decCinv (h : Hdr) (w : Nat) : Except Nat Instr :=
  match splitBits layCinv w with
  | [z0, xa, z2, xsp, z4, xsc, z6, xoff] =>
    if z0 + z2 + z4 + z6 ≠ 0 then .error 0x001 else
    let off := BitVec.ofNat 20 xoff
    match Space.ofCode xsp, Scope.ofCode xsc with
    | some sp, some sc =>
      if !(sp.genOrGlob && sc.wgOrDev) then .error 0x002 else
      match Opd.ofCode xa with
      | some a => .ok (.cinv h sp sc off a)
      | _ => .error 0x020
    | _, _ => .error 0x002
  | _ => .error 0x000

/-- The word of CINV. -/
def encCinv (h : Hdr) (sp : Space) (sc : Scope) (off : BitVec 20) (a : Opd) : Nat :=
  joinBits (hdrFields 0x209 h ++
    [(0, 10), (a.code, 9), (0, 9), (sp.code, 3), (0, 6), (sc.code, 3), (0, 5), (off.toNat, 20)])

/-- Field lengths of SPACE (format S) from bit 31 up. -/
def laySpace : List Nat := [1, 9, 9, 46]

/-- SPACE: the checks of R98 and the instruction. -/
def decSpace (h : Hdr) (w : Nat) : Except Nat Instr :=
  match splitBits laySpace w with
  | [z0, xd, xa, z3] =>
    if z0 + z3 ≠ 0 then .error 0x001 else
    if !(((Opd.ofCode xd).getD (.v 0)).notQ && ((Opd.ofCode xa).getD (.v 0)).isReg) then .error 0x002 else
    match Opd.ofCode xd, Opd.ofCode xa with
    | some d, some a => .ok (.space h d a)
    | _, _ => .error 0x020
  | _ => .error 0x000

/-- The word of SPACE. -/
def encSpace (h : Hdr) (d : Opd) (a : Opd) : Nat :=
  joinBits (hdrFields 0x20A h ++
    [(0, 1), (d.code, 9), (a.code, 9), (0, 46)])

/-- Field lengths of CVTA (format S) from bit 31 up. -/
def layCvta : List Nat := [1, 9, 9, 15, 1, 3, 27]

/-- CVTA: the checks of R98 and the instruction. -/
def decCvta (h : Hdr) (w : Nat) : Except Nat Instr :=
  match splitBits layCvta w with
  | [z0, xd, xa, z3, xfrom_, xsp, z6] =>
    if z0 + z3 + z6 ≠ 0 then .error 0x001 else
    let from_ := xfrom_ == 1
    match Space.ofCode xsp with
    | some sp =>
      if !(sp.isNamed && ((Opd.ofCode xd).getD (.v 0)).notQ && ((Opd.ofCode xa).getD (.v 0)).isReg) then .error 0x002 else
      match Opd.ofCode xd, Opd.ofCode xa with
      | some d, some a => .ok (.cvta h from_ sp d a)
      | _, _ => .error 0x020
    | _ => .error 0x002
  | _ => .error 0x000

/-- The word of CVTA. -/
def encCvta (h : Hdr) (from_ : Bool) (sp : Space) (d : Opd) (a : Opd) : Nat :=
  joinBits (hdrFields 0x20B h ++
    [(0, 1), (d.code, 9), (a.code, 9), (0, 15), (from_.toNat, 1), (sp.code, 3), (0, 27)])

/-- Field lengths of GWIN (format S) from bit 31 up. -/
def layGwin : List Nat := [1, 9, 9, 9, 6, 1, 30]

/-- GWIN: the checks of R98 and the instruction. -/
def decGwin (h : Hdr) (w : Nat) : Except Nat Instr :=
  match splitBits layGwin w with
  | [z0, xd, xa, xb, z4, _, z6] =>
    if z0 + z4 + z6 ≠ 0 then .error 0x001 else
    match Opd.ofCode xd, Opd.ofCode xa, Opd.ofCode xb with
    | some d, some a, some b => .ok (.gwin h d a b)
    | _, _, _ => .error 0x020
  | _ => .error 0x000

/-- The word of GWIN. -/
def encGwin (h : Hdr) (d : Opd) (a : Opd) (b : Opd) : Nat :=
  joinBits (hdrFields 0x20C h ++
    [(0, 1), (d.code, 9), (a.code, 9), (b.code, 9), (0, 6), (0, 1), (0, 30)])

/-- Field lengths of GWIN_SELF (format S) from bit 31 up. -/
def layGwinSelf : List Nat := [1, 9, 9, 9, 6, 1, 30]

/-- GWIN_SELF: the checks of R98 and the instruction. -/
def decGwinSelf (h : Hdr) (w : Nat) : Except Nat Instr :=
  match splitBits layGwinSelf w with
  | [z0, xd, z2, xb, z4, _, z6] =>
    if z0 + z2 + z4 + z6 ≠ 0 then .error 0x001 else
    match Opd.ofCode xd, Opd.ofCode xb with
    | some d, some b => .ok (.gwinSelf h d b)
    | _, _ => .error 0x020
  | _ => .error 0x000

/-- The word of GWIN_SELF. -/
def encGwinSelf (h : Hdr) (d : Opd) (b : Opd) : Nat :=
  joinBits (hdrFields 0x20C h ++
    [(0, 1), (d.code, 9), (0, 9), (b.code, 9), (0, 6), (1, 1), (0, 30)])

/-- Field lengths of SPFE (format S) from bit 31 up. -/
def laySpfe : List Nat := [1, 9, 9, 15, 2, 5, 14, 10]

/-- SPFE: the checks of R98 and the instruction. -/
def decSpfe (h : Hdr) (w : Nat) : Except Nat Instr :=
  match splitBits laySpfe w with
  | [z0, xd, xa, z3, xmode, z5, xn, z7] =>
    if z0 + z3 + z5 + z7 ≠ 0 then .error 0x001 else
    let n := xn
    if !(decide (xmode = 2) || decide (xd = 0)) then .error 0x001 else
    match SpfeMode.ofCode xmode with
    | some mode =>
      match Opd.ofCode xd, Opd.ofCode xa with
      | some d, some a => .ok (.spfe h mode n d a)
      | _, _ => .error 0x020
    | _ => .error 0x002
  | _ => .error 0x000

/-- The word of SPFE. -/
def encSpfe (h : Hdr) (mode : SpfeMode) (n : Nat) (d : Opd) (a : Opd) : Nat :=
  joinBits (hdrFields 0x20D h ++
    [(0, 1), (d.code, 9), (a.code, 9), (0, 15), (mode.code, 2), (0, 5), (n, 14), (0, 10)])

/-- Field lengths of HFLUSH (format M) from bit 31 up. -/
def layHflush : List Nat := [10, 9, 9, 3, 6, 3, 5, 20]

/-- HFLUSH: the checks of R98 and the instruction. -/
def decHflush (h : Hdr) (w : Nat) : Except Nat Instr :=
  match splitBits layHflush w with
  | [z0, xa, z2, xsp, z4, z5, z6, xoff] =>
    if z0 + z2 + z4 + z6 ≠ 0 then .error 0x001 else
    let off := BitVec.ofNat 20 xoff
    if z5 ≠ 5 then .error 0x002 else
    match Space.ofCode xsp with
    | some sp =>
      if !(sp.hflushOk) then .error 0x002 else
      match Opd.ofCode xa with
      | some a => .ok (.hflush h sp off a)
      | _ => .error 0x020
    | _ => .error 0x002
  | _ => .error 0x000

/-- The word of HFLUSH. -/
def encHflush (h : Hdr) (sp : Space) (off : BitVec 20) (a : Opd) : Nat :=
  joinBits (hdrFields 0x20E h ++
    [(0, 10), (a.code, 9), (0, 9), (sp.code, 3), (0, 6), (5, 3), (0, 5), (off.toNat, 20)])

/-- Field lengths of OWNREQ (format S) from bit 31 up. -/
def layOwnreq : List Nat := [10, 9, 15, 1, 6, 4, 20]

/-- OWNREQ: the checks of R98 and the instruction. -/
def decOwnreq (h : Hdr) (w : Nat) : Except Nat Instr :=
  match splitBits layOwnreq w with
  | [z0, xa, z2, xproc, z4, xk, z6] =>
    if z0 + z2 + z4 + z6 ≠ 0 then .error 0x001 else
    let proc := xproc == 1
    let k := xk
    match Opd.ofCode xa with
    | some a => .ok (.ownreq h proc k a)
    | _ => .error 0x020
  | _ => .error 0x000

/-- The word of OWNREQ. -/
def encOwnreq (h : Hdr) (proc : Bool) (k : Nat) (a : Opd) : Nat :=
  joinBits (hdrFields 0x20F h ++
    [(0, 10), (a.code, 9), (0, 15), (proc.toNat, 1), (0, 6), (k, 4), (0, 20)])

/-- Field lengths of FRZ (format S) from bit 31 up. -/
def layFrz : List Nat := [1, 9, 9, 9, 3, 10, 4, 20]

/-- FRZ: the checks of R98 and the instruction. -/
def decFrz (h : Hdr) (w : Nat) : Except Nat Instr :=
  match splitBits layFrz w with
  | [z0, xd, xa, xb, xsc, z5, xk, z7] =>
    if z0 + z5 + z7 ≠ 0 then .error 0x001 else
    let k := xk
    match Scope.ofCode xsc with
    | some sc =>
      if !(sc.frzOk) then .error 0x002 else
      match Opd.ofCode xd, Opd.ofCode xa, Opd.ofCode xb with
      | some d, some a, some b => .ok (.frz h sc k d a b)
      | _, _, _ => .error 0x020
    | _ => .error 0x002
  | _ => .error 0x000

/-- The word of FRZ. -/
def encFrz (h : Hdr) (sc : Scope) (k : Nat) (d : Opd) (a : Opd) (b : Opd) : Nat :=
  joinBits (hdrFields 0x210 h ++
    [(0, 1), (d.code, 9), (a.code, 9), (b.code, 9), (sc.code, 3), (0, 10), (k, 4), (0, 20)])

/-- Field lengths of THAW (format S) from bit 31 up. -/
def layThaw : List Nat := [10, 9, 22, 4, 20]

/-- THAW: the checks of R98 and the instruction. -/
def decThaw (h : Hdr) (w : Nat) : Except Nat Instr :=
  match splitBits layThaw w with
  | [z0, xa, z2, xk, z4] =>
    if z0 + z2 + z4 ≠ 0 then .error 0x001 else
    let k := xk
    match Opd.ofCode xa with
    | some a => .ok (.thaw h k a)
    | _ => .error 0x020
  | _ => .error 0x000

/-- The word of THAW. -/
def encThaw (h : Hdr) (k : Nat) (a : Opd) : Nat :=
  joinBits (hdrFields 0x211 h ++
    [(0, 10), (a.code, 9), (0, 22), (k, 4), (0, 20)])

/-- Field lengths of FRZQ (format S) from bit 31 up. -/
def layFrzq : List Nat := [1, 9, 9, 46]

/-- FRZQ: the checks of R98 and the instruction. -/
def decFrzq (h : Hdr) (w : Nat) : Except Nat Instr :=
  match splitBits layFrzq w with
  | [z0, xd, xa, z3] =>
    if z0 + z3 ≠ 0 then .error 0x001 else
    match Opd.ofCode xd, Opd.ofCode xa with
    | some d, some a => .ok (.frzq h d a)
    | _, _ => .error 0x020
  | _ => .error 0x000

/-- The word of FRZQ. -/
def encFrzq (h : Hdr) (d : Opd) (a : Opd) : Nat :=
  joinBits (hdrFields 0x212 h ++
    [(0, 1), (d.code, 9), (a.code, 9), (0, 46)])

/-- Field lengths of RBEGIN (format S) from bit 31 up. -/
def layRbegin : List Nat := [1, 9, 9, 46]

/-- RBEGIN: the checks of R98 and the instruction. -/
def decRbegin (h : Hdr) (w : Nat) : Except Nat Instr :=
  match splitBits layRbegin w with
  | [z0, xd, xa, z3] =>
    if z0 + z3 ≠ 0 then .error 0x001 else
    match Opd.ofCode xd, Opd.ofCode xa with
    | some d, some a => .ok (.rbegin h d a)
    | _, _ => .error 0x020
  | _ => .error 0x000

/-- The word of RBEGIN. -/
def encRbegin (h : Hdr) (d : Opd) (a : Opd) : Nat :=
  joinBits (hdrFields 0x213 h ++
    [(0, 1), (d.code, 9), (a.code, 9), (0, 46)])

/-- Field lengths of RCOMMIT (format S) from bit 31 up. -/
def layRcommit : List Nat := [65]

/-- RCOMMIT: the checks of R98 and the instruction. -/
def decRcommit (h : Hdr) (w : Nat) : Except Nat Instr :=
  match splitBits layRcommit w with
  | [z0] =>
    if z0 ≠ 0 then .error 0x001 else
    .ok (.rcommit h)
  | _ => .error 0x000

/-- The word of RCOMMIT. -/
def encRcommit (h : Hdr) : Nat :=
  joinBits (hdrFields 0x214 h ++
    [(0, 65)])

/-- Field lengths of STRB_IN (format S) from bit 31 up. -/
def layStrbIn : List Nat := [10, 9, 9, 6, 2, 1, 4, 3, 4, 3, 5, 9]

/-- STRB_IN: the checks of R98 and the instruction. -/
def decStrbIn (h : Hdr) (w : Nat) : Except Nat Instr :=
  match splitBits layStrbIn w with
  | [z0, xa, xb, z3, _, xpacked, z6, xport, z8, xhint, xe, z11] =>
    if z0 + z3 + z6 + z8 + z11 ≠ 0 then .error 0x001 else
    let port := xport
    let packed := xpacked == 1
    let hint := xhint
    let e := xe
    match Opd.ofCode xa, Opd.ofCode xb with
    | some a, some b => .ok (.strbIn h port packed hint e a b)
    | _, _ => .error 0x020
  | _ => .error 0x000

/-- The word of STRB_IN. -/
def encStrbIn (h : Hdr) (port : Nat) (packed : Bool) (hint : Nat) (e : Nat) (a : Opd) (b : Opd) : Nat :=
  joinBits (hdrFields 0x215 h ++
    [(0, 10), (a.code, 9), (b.code, 9), (0, 6), (0, 2), (packed.toNat, 1), (0, 4), (port, 3), (0, 4), (hint, 3), (e, 5), (0, 9)])

/-- Field lengths of STRB_OUT (format S) from bit 31 up. -/
def layStrbOut : List Nat := [10, 9, 9, 6, 2, 1, 4, 3, 4, 3, 14]

/-- STRB_OUT: the checks of R98 and the instruction. -/
def decStrbOut (h : Hdr) (w : Nat) : Except Nat Instr :=
  match splitBits layStrbOut w with
  | [z0, xa, xb, z3, _, xpacked, z6, xport, xk, xhint, z10] =>
    if z0 + z3 + z6 + z10 ≠ 0 then .error 0x001 else
    let port := xport
    let packed := xpacked == 1
    let k := xk
    let hint := xhint
    match Opd.ofCode xa, Opd.ofCode xb with
    | some a, some b => .ok (.strbOut h port packed k hint a b)
    | _, _ => .error 0x020
  | _ => .error 0x000

/-- The word of STRB_OUT. -/
def encStrbOut (h : Hdr) (port : Nat) (packed : Bool) (k : Nat) (hint : Nat) (a : Opd) (b : Opd) : Nat :=
  joinBits (hdrFields 0x215 h ++
    [(0, 10), (a.code, 9), (b.code, 9), (0, 6), (1, 2), (packed.toNat, 1), (0, 4), (port, 3), (k, 4), (hint, 3), (0, 14)])

/-- Field lengths of STRB_QIN (format S) from bit 31 up. -/
def layStrbQin : List Nat := [34, 2, 1, 1, 3, 3, 7, 5, 4, 3, 2]

/-- STRB_QIN: the checks of R98 and the instruction. -/
def decStrbQin (h : Hdr) (w : Nat) : Except Nat Instr :=
  match splitBits layStrbQin w with
  | [z0, _, z2, xw64, z4, xport, z6, xe, xpw, xpp, z10] =>
    if z0 + z2 + z4 + z6 + z10 ≠ 0 then .error 0x001 else
    let port := xport
    let w64 := xw64 == 1
    let e := xe
    let pw := xpw
    let pp := xpp
    .ok (.strbQin h port w64 e pw pp)
  | _ => .error 0x000

/-- The word of STRB_QIN. -/
def encStrbQin (h : Hdr) (port : Nat) (w64 : Bool) (e : Nat) (pw : Nat) (pp : Nat) : Nat :=
  joinBits (hdrFields 0x215 h ++
    [(0, 34), (2, 2), (0, 1), (w64.toNat, 1), (0, 3), (port, 3), (0, 7), (e, 5), (pw, 4), (pp, 3), (0, 2)])

/-- Field lengths of STRB_QOUT (format S) from bit 31 up. -/
def layStrbQout : List Nat := [34, 2, 1, 1, 3, 3, 12, 4, 3, 2]

/-- STRB_QOUT: the checks of R98 and the instruction. -/
def decStrbQout (h : Hdr) (w : Nat) : Except Nat Instr :=
  match splitBits layStrbQout w with
  | [z0, _, z2, xw64, z4, xport, z6, xpw, xpp, z9] =>
    if z0 + z2 + z4 + z6 + z9 ≠ 0 then .error 0x001 else
    let port := xport
    let w64 := xw64 == 1
    let pw := xpw
    let pp := xpp
    .ok (.strbQout h port w64 pw pp)
  | _ => .error 0x000

/-- The word of STRB_QOUT. -/
def encStrbQout (h : Hdr) (port : Nat) (w64 : Bool) (pw : Nat) (pp : Nat) : Nat :=
  joinBits (hdrFields 0x215 h ++
    [(0, 34), (3, 2), (0, 1), (w64.toNat, 1), (0, 3), (port, 3), (0, 12), (pw, 4), (pp, 3), (0, 2)])

/-- Field lengths of STRSTAT (format S) from bit 31 up. -/
def layStrstat : List Nat := [1, 9, 31, 3, 21]

/-- STRSTAT: the checks of R98 and the instruction. -/
def decStrstat (h : Hdr) (w : Nat) : Except Nat Instr :=
  match splitBits layStrstat w with
  | [z0, xd, z2, xport, z4] =>
    if z0 + z2 + z4 ≠ 0 then .error 0x001 else
    let port := xport
    match Opd.ofCode xd with
    | some d => .ok (.strstat h port d)
    | _ => .error 0x020
  | _ => .error 0x000

/-- The word of STRSTAT. -/
def encStrstat (h : Hdr) (port : Nat) (d : Opd) : Nat :=
  joinBits (hdrFields 0x216 h ++
    [(0, 1), (d.code, 9), (0, 31), (port, 3), (0, 21)])

/-- Field lengths of STRFLUSH (format S) from bit 31 up. -/
def layStrflush : List Nat := [41, 3, 21]

/-- STRFLUSH: the checks of R98 and the instruction. -/
def decStrflush (h : Hdr) (w : Nat) : Except Nat Instr :=
  match splitBits layStrflush w with
  | [z0, xport, z2] =>
    if z0 + z2 ≠ 0 then .error 0x001 else
    let port := xport
    .ok (.strflush h port)
  | _ => .error 0x000

/-- The word of STRFLUSH. -/
def encStrflush (h : Hdr) (port : Nat) : Nat :=
  joinBits (hdrFields 0x217 h ++
    [(0, 41), (port, 3), (0, 21)])

/-- Field lengths of STRCLOSE (format S) from bit 31 up. -/
def layStrclose : List Nat := [41, 3, 21]

/-- STRCLOSE: the checks of R98 and the instruction. -/
def decStrclose (h : Hdr) (w : Nat) : Except Nat Instr :=
  match splitBits layStrclose w with
  | [z0, xport, z2] =>
    if z0 + z2 ≠ 0 then .error 0x001 else
    let port := xport
    .ok (.strclose h port)
  | _ => .error 0x000

/-- The word of STRCLOSE. -/
def encStrclose (h : Hdr) (port : Nat) : Nat :=
  joinBits (hdrFields 0x218 h ++
    [(0, 41), (port, 3), (0, 21)])

/-- Field lengths of COPY (format E) from bit 31 up. -/
def layCopy : List Nat := [1, 9, 9, 9, 4, 1, 2, 1, 13, 3, 13]

/-- COPY: the checks of R98 and the instruction. -/
def decCopy (h : Hdr) (w : Nat) : Except Nat Instr :=
  match splitBits layCopy w with
  | [z0, xd, xa, xb, xk, z5, xsg, xscatter, z8, xhint, z10] =>
    if z0 + z5 + z8 + z10 ≠ 0 then .error 0x001 else
    let scatter := xscatter == 1
    let hint := xhint
    let k := xk
    match Sg.ofCode xsg with
    | some sg =>
      match Opd.ofCode xd, Opd.ofCode xa, Opd.ofCode xb with
      | some d, some a, some b => .ok (.copy h scatter sg hint k d a b)
      | _, _, _ => .error 0x020
    | _ => .error 0x002
  | _ => .error 0x000

/-- The word of COPY. -/
def encCopy (h : Hdr) (scatter : Bool) (sg : Sg) (hint : Nat) (k : Nat) (d : Opd) (a : Opd) (b : Opd) : Nat :=
  joinBits (hdrFields 0x280 h ++
    [(0, 1), (d.code, 9), (a.code, 9), (b.code, 9), (k, 4), (0, 1), (sg.code, 2), (scatter.toNat, 1), (0, 13), (hint, 3), (0, 13)])

/-- Field lengths of COPYG (format E) from bit 31 up. -/
def layCopyg : List Nat := [1, 9, 9, 9, 4, 1, 2, 1, 13, 3, 13]

/-- COPYG: the checks of R98 and the instruction. -/
def decCopyg (h : Hdr) (w : Nat) : Except Nat Instr :=
  match splitBits layCopyg w with
  | [z0, xd, xa, xb, xk, z5, xsg, _, z8, xhint, z10] =>
    if z0 + z5 + z8 + z10 ≠ 0 then .error 0x001 else
    let hint := xhint
    let k := xk
    match Sg.ofCode xsg with
    | some sg =>
      match Opd.ofCode xd, Opd.ofCode xa, Opd.ofCode xb with
      | some d, some a, some b => .ok (.copyg h sg hint k d a b)
      | _, _, _ => .error 0x020
    | _ => .error 0x002
  | _ => .error 0x000

/-- The word of COPYG. -/
def encCopyg (h : Hdr) (sg : Sg) (hint : Nat) (k : Nat) (d : Opd) (a : Opd) (b : Opd) : Nat :=
  joinBits (hdrFields 0x281 h ++
    [(0, 1), (d.code, 9), (a.code, 9), (b.code, 9), (k, 4), (0, 1), (sg.code, 2), (0, 1), (0, 13), (hint, 3), (0, 13)])

/-- Field lengths of COPYG_SLOT (format E) from bit 31 up. -/
def layCopygSlot : List Nat := [10, 9, 9, 4, 1, 2, 1, 1, 12, 3, 7, 6]

/-- COPYG_SLOT: the checks of R98 and the instruction. -/
def decCopygSlot (h : Hdr) (w : Nat) : Except Nat Instr :=
  match splitBits layCopygSlot w with
  | [z0, xa, xb, xk, z4, xsg, _, xside, z8, xhint, xoff, xslot] =>
    if z0 + z4 + z8 ≠ 0 then .error 0x001 else
    let slot := xslot
    let side := xside == 1
    let hint := xhint
    let k := xk
    let off := xoff
    match Sg.ofCode xsg with
    | some sg =>
      match Opd.ofCode xa, Opd.ofCode xb with
      | some a, some b => .ok (.copygSlot h slot side sg hint k off a b)
      | _, _ => .error 0x020
    | _ => .error 0x002
  | _ => .error 0x000

/-- The word of COPYG_SLOT. -/
def encCopygSlot (h : Hdr) (slot : Nat) (side : Bool) (sg : Sg) (hint : Nat) (k : Nat) (off : Nat) (a : Opd) (b : Opd) : Nat :=
  joinBits (hdrFields 0x281 h ++
    [(0, 10), (a.code, 9), (b.code, 9), (k, 4), (0, 1), (sg.code, 2), (1, 1), (side.toNat, 1), (0, 12), (hint, 3), (off, 7), (slot, 6)])

/-- Field lengths of COPYM (format E) from bit 31 up. -/
def layCopym : List Nat := [10, 9, 9, 4, 1, 2, 1, 1, 12, 3, 7, 6]

/-- COPYM: the checks of R98 and the instruction. -/
def decCopym (h : Hdr) (w : Nat) : Except Nat Instr :=
  match splitBits layCopym w with
  | [z0, xa, xb, xk, xfol, xsg, z6, xside, z8, xhint, xoff, xslot] =>
    if z0 + z6 + z8 ≠ 0 then .error 0x001 else
    let slot := xslot
    let side := xside == 1
    let fol := xfol == 1
    let hint := xhint
    let k := xk
    let off := xoff
    match Sg.ofCode xsg with
    | some sg =>
      match Opd.ofCode xa, Opd.ofCode xb with
      | some a, some b => .ok (.copym h slot side fol sg hint k off a b)
      | _, _ => .error 0x020
    | _ => .error 0x002
  | _ => .error 0x000

/-- The word of COPYM. -/
def encCopym (h : Hdr) (slot : Nat) (side : Bool) (fol : Bool) (sg : Sg) (hint : Nat) (k : Nat) (off : Nat) (a : Opd) (b : Opd) : Nat :=
  joinBits (hdrFields 0x282 h ++
    [(0, 10), (a.code, 9), (b.code, 9), (k, 4), (fol.toNat, 1), (sg.code, 2), (0, 1), (side.toNat, 1), (0, 12), (hint, 3), (off, 7), (slot, 6)])

/-- Field lengths of WAITK (format S) from bit 31 up. -/
def layWaitk : List Nat := [41, 16, 8]

/-- WAITK: the checks of R98 and the instruction. -/
def decWaitk (h : Hdr) (w : Nat) : Except Nat Instr :=
  match splitBits layWaitk w with
  | [z0, xmask, z2] =>
    if z0 + z2 ≠ 0 then .error 0x001 else
    let mask := BitVec.ofNat 16 xmask
    .ok (.waitk h mask)
  | _ => .error 0x000

/-- The word of WAITK. -/
def encWaitk (h : Hdr) (mask : BitVec 16) : Nat :=
  joinBits (hdrFields 0x283 h ++
    [(0, 41), (mask.toNat, 16), (0, 8)])

/-- Field lengths of KADD (format S) from bit 31 up. -/
def layKadd : List Nat := [10, 9, 15, 1, 6, 4, 20]

/-- KADD: the checks of R98 and the instruction. -/
def decKadd (h : Hdr) (w : Nat) : Except Nat Instr :=
  match splitBits layKadd w with
  | [z0, xa, z2, _, z4, xk, z6] =>
    if z0 + z2 + z4 + z6 ≠ 0 then .error 0x001 else
    let k := xk
    match Opd.ofCode xa with
    | some a => .ok (.kadd h k a)
    | _ => .error 0x020
  | _ => .error 0x000

/-- The word of KADD. -/
def encKadd (h : Hdr) (k : Nat) (a : Opd) : Nat :=
  joinBits (hdrFields 0x284 h ++
    [(0, 10), (a.code, 9), (0, 15), (0, 1), (0, 6), (k, 4), (0, 20)])

/-- Field lengths of KADD_IMM (format S) from bit 31 up. -/
def layKaddImm : List Nat := [34, 1, 6, 4, 20]

/-- KADD_IMM: the checks of R98 and the instruction. -/
def decKaddImm (h : Hdr) (w : Nat) : Except Nat Instr :=
  match splitBits layKaddImm w with
  | [z0, _, z2, xk, ximm] =>
    if z0 + z2 ≠ 0 then .error 0x001 else
    let k := xk
    let imm := BitVec.ofNat 20 ximm
    .ok (.kaddImm h k imm)
  | _ => .error 0x000

/-- The word of KADD_IMM. -/
def encKaddImm (h : Hdr) (k : Nat) (imm : BitVec 20) : Nat :=
  joinBits (hdrFields 0x284 h ++
    [(0, 34), (1, 1), (0, 6), (k, 4), (imm.toNat, 20)])

/-- Field lengths of ROWCPY (format E) from bit 31 up. -/
def layRowcpy : List Nat := [1, 9, 9, 9, 4, 8, 9, 16]

/-- ROWCPY: the checks of R98 and the instruction. -/
def decRowcpy (h : Hdr) (w : Nat) : Except Nat Instr :=
  match splitBits layRowcpy w with
  | [z0, xd, xa, z3, xk, z5, xc, z7] =>
    if z0 + z3 + z5 + z7 ≠ 0 then .error 0x001 else
    let k := xk
    match Opd.ofCode xd, Opd.ofCode xa, Opd.ofCode xc with
    | some d, some a, some c => .ok (.rowcpy h k d a c)
    | _, _, _ => .error 0x020
  | _ => .error 0x000

/-- The word of ROWCPY. -/
def encRowcpy (h : Hdr) (k : Nat) (d : Opd) (a : Opd) (c : Opd) : Nat :=
  joinBits (hdrFields 0x285 h ++
    [(0, 1), (d.code, 9), (a.code, 9), (0, 9), (k, 4), (0, 8), (c.code, 9), (0, 16)])

/-- Field lengths of ROWZERO (format E) from bit 31 up. -/
def layRowzero : List Nat := [1, 9, 18, 4, 8, 9, 16]

/-- ROWZERO: the checks of R98 and the instruction. -/
def decRowzero (h : Hdr) (w : Nat) : Except Nat Instr :=
  match splitBits layRowzero w with
  | [z0, xd, z2, xk, z4, xc, z6] =>
    if z0 + z2 + z4 + z6 ≠ 0 then .error 0x001 else
    let k := xk
    match Opd.ofCode xd, Opd.ofCode xc with
    | some d, some c => .ok (.rowzero h k d c)
    | _, _ => .error 0x020
  | _ => .error 0x000

/-- The word of ROWZERO. -/
def encRowzero (h : Hdr) (k : Nat) (d : Opd) (c : Opd) : Nat :=
  joinBits (hdrFields 0x286 h ++
    [(0, 1), (d.code, 9), (0, 18), (k, 4), (0, 8), (c.code, 9), (0, 16)])

/-- Field lengths of RANK (format E) from bit 31 up. -/
def layRank : List Nat := [1, 9, 9, 9, 4, 3, 2, 12, 5, 11]

/-- RANK: the checks of R98 and the instruction. -/
def decRank (h : Hdr) (w : Nat) : Except Nat Instr :=
  match splitBits layRank w with
  | [z0, xd, xa, xb, xk, z5, xkind, z7, xn, z9] =>
    if z0 + z5 + z7 + z9 ≠ 0 then .error 0x001 else
    let n := xn
    let k := xk
    match RankKind.ofCode xkind with
    | some kind =>
      if !(decide (1 ≤ n) && decide (n ≤ 16)) then .error 0x002 else
      match Opd.ofCode xd, Opd.ofCode xa, Opd.ofCode xb with
      | some d, some a, some b => .ok (.rank h kind n k d a b)
      | _, _, _ => .error 0x020
    | _ => .error 0x002
  | _ => .error 0x000

/-- The word of RANK. -/
def encRank (h : Hdr) (kind : RankKind) (n : Nat) (k : Nat) (d : Opd) (a : Opd) (b : Opd) : Nat :=
  joinBits (hdrFields 0x287 h ++
    [(0, 1), (d.code, 9), (a.code, 9), (b.code, 9), (k, 4), (0, 3), (kind.code, 2), (0, 12), (n, 5), (0, 11)])

/-- Field lengths of ROUTE (format R) from bit 31 up. -/
def layRoute : List Nat := [1, 9, 9, 9, 9, 4, 2, 1, 1, 1, 1, 8, 5, 5]

/-- ROUTE: the checks of R98 and the instruction. -/
def decRoute (h : Hdr) (w : Nat) : Except Nat Instr :=
  match splitBits layRoute w with
  | [z0, xd, xa, xb, xc, z5, z6, z7, z8, z9, z10, z11, xpd, z13] =>
    if z0 + z6 + z11 + z13 ≠ 0 then .error 0x001 else
    let pd := xpd
    if z5 ≠ 8 ∨ z7 ≠ 0 ∨ z8 ≠ 0 ∨ z9 ≠ 0 ∨ z10 ≠ 0 then .error 0x002 else
    match Opd.ofCode xd, Opd.ofCode xa, Opd.ofCode xb, Opd.ofCode xc with
    | some d, some a, some b, some c => .ok (.route h pd d a b c)
    | _, _, _, _ => .error 0x020
  | _ => .error 0x000

/-- The word of ROUTE. -/
def encRoute (h : Hdr) (pd : Nat) (d : Opd) (a : Opd) (b : Opd) (c : Opd) : Nat :=
  joinBits (hdrFields 0x288 h ++
    [(0, 1), (d.code, 9), (a.code, 9), (b.code, 9), (c.code, 9), (8, 4), (0, 2), (0, 1), (0, 1), (0, 1), (0, 1), (0, 8), (pd, 5), (0, 5)])

/-- Field lengths of TGEN (format E) from bit 31 up. -/
def layTgen : List Nat := [1, 9, 9, 9, 4, 8, 9, 8, 8]

/-- TGEN: the checks of R98 and the instruction. -/
def decTgen (h : Hdr) (w : Nat) : Except Nat Instr :=
  match splitBits layTgen w with
  | [z0, xd, xa, xb, xk, z5, xc, xt, z8] =>
    if z0 + z5 + z8 ≠ 0 then .error 0x001 else
    let t := xt
    let k := xk
    if !(decide (1 ≤ t) && decide (t ≤ 128)) then .error 0x002 else
    match Opd.ofCode xd, Opd.ofCode xa, Opd.ofCode xb, Opd.ofCode xc with
    | some d, some a, some b, some c => .ok (.tgen h t k d a b c)
    | _, _, _, _ => .error 0x020
  | _ => .error 0x000

/-- The word of TGEN. -/
def encTgen (h : Hdr) (t : Nat) (k : Nat) (d : Opd) (a : Opd) (b : Opd) (c : Opd) : Nat :=
  joinBits (hdrFields 0x289 h ++
    [(0, 1), (d.code, 9), (a.code, 9), (b.code, 9), (k, 4), (0, 8), (c.code, 9), (t, 8), (0, 8)])

/-- Field lengths of CLAIMO (format X) from bit 31 up. -/
def layClaimo : List Nat := [5, 6, 6, 48]

/-- CLAIMO: the checks of R98 and the instruction. -/
def decClaimo (h : Hdr) (w : Nat) : Except Nat Instr :=
  match splitBits layClaimo w with
  | [z0, xo, xn1, z3] =>
    if z0 + z3 ≠ 0 then .error 0x001 else
    let o := xo
    let n1 := xn1
    .ok (.claimo h o n1)
  | _ => .error 0x000

/-- The word of CLAIMO. -/
def encClaimo (h : Hdr) (o : Nat) (n1 : Nat) : Nat :=
  joinBits (hdrFields 0x300 h ++
    [(0, 5), (o, 6), (n1, 6), (0, 48)])

/-- Field lengths of RELO (format X) from bit 31 up. -/
def layRelo : List Nat := [5, 6, 6, 48]

/-- RELO: the checks of R98 and the instruction. -/
def decRelo (h : Hdr) (w : Nat) : Except Nat Instr :=
  match splitBits layRelo w with
  | [z0, xo, xn1, z3] =>
    if z0 + z3 ≠ 0 then .error 0x001 else
    let o := xo
    let n1 := xn1
    .ok (.relo h o n1)
  | _ => .error 0x000

/-- The word of RELO. -/
def encRelo (h : Hdr) (o : Nat) (n1 : Nat) : Nat :=
  joinBits (hdrFields 0x301 h ++
    [(0, 5), (o, 6), (n1, 6), (0, 48)])

/-- Field lengths of CLAIMA (format X) from bit 31 up. -/
def layClaima : List Nat := [1, 4, 23, 4, 33]

/-- CLAIMA: the checks of R98 and the instruction. -/
def decClaima (h : Hdr) (w : Nat) : Except Nat Instr :=
  match splitBits layClaima w with
  | [z0, xt, z2, xn1, z4] =>
    if z0 + z2 + z4 ≠ 0 then .error 0x001 else
    let t := xt
    let n1 := xn1
    .ok (.claima h t n1)
  | _ => .error 0x000

/-- The word of CLAIMA. -/
def encClaima (h : Hdr) (t : Nat) (n1 : Nat) : Nat :=
  joinBits (hdrFields 0x302 h ++
    [(0, 1), (t, 4), (0, 23), (n1, 4), (0, 33)])

/-- Field lengths of RELA (format X) from bit 31 up. -/
def layRela : List Nat := [1, 4, 23, 4, 33]

/-- RELA: the checks of R98 and the instruction. -/
def decRela (h : Hdr) (w : Nat) : Except Nat Instr :=
  match splitBits layRela w with
  | [z0, xt, z2, xn1, z4] =>
    if z0 + z2 + z4 ≠ 0 then .error 0x001 else
    let t := xt
    let n1 := xn1
    .ok (.rela h t n1)
  | _ => .error 0x000

/-- The word of RELA. -/
def encRela (h : Hdr) (t : Nat) (n1 : Nat) : Nat :=
  joinBits (hdrFields 0x303 h ++
    [(0, 1), (t, 4), (0, 23), (n1, 4), (0, 33)])

/-- Field lengths of MMA (format X) from bit 31 up. -/
def layMma : List Nat := [1, 4, 6, 6, 6, 3, 2, 1, 1, 21, 4, 10]

/-- MMA: the checks of R98 and the instruction. -/
def decMma (h : Hdr) (w : Nat) : Except Nat Instr :=
  match splitBits layMma w with
  | [z0, xt, xoa, xob, z4, xfs, xsg, xz, xhk, z9, xk, z11] =>
    if z0 + z4 + z9 + z11 ≠ 0 then .error 0x001 else
    let z := xz == 1
    let hk := xhk == 1
    let fs := xfs
    let t := xt
    let oa := xoa
    let ob := xob
    let k := xk
    if !(hk || k == 0) then .error 0x001 else
    match Sg.ofCode xsg with
    | some sg =>
      .ok (.mma h z hk sg fs t oa ob k)
    | _ => .error 0x002
  | _ => .error 0x000

/-- The word of MMA. -/
def encMma (h : Hdr) (z : Bool) (hk : Bool) (sg : Sg) (fs : Nat) (t : Nat) (oa : Nat) (ob : Nat) (k : Nat) : Nat :=
  joinBits (hdrFields 0x304 h ++
    [(0, 1), (t, 4), (oa, 6), (ob, 6), (0, 6), (fs, 3), (sg.code, 2), (z.toNat, 1), (hk.toNat, 1), (0, 21), (k, 4), (0, 10)])

/-- Field lengths of MMAS (format X) from bit 31 up. -/
def layMmas : List Nat := [1, 4, 6, 6, 6, 3, 2, 1, 1, 21, 4, 10]

/-- MMAS: the checks of R98 and the instruction. -/
def decMmas (h : Hdr) (w : Nat) : Except Nat Instr :=
  match splitBits layMmas w with
  | [z0, xt, xoa, xob, xom, xfs, xsg, xz, xhk, z9, xk, z11] =>
    if z0 + z9 + z11 ≠ 0 then .error 0x001 else
    let z := xz == 1
    let hk := xhk == 1
    let fs := xfs
    let t := xt
    let oa := xoa
    let ob := xob
    let om := xom
    let k := xk
    if !(hk || k == 0) then .error 0x001 else
    match Sg.ofCode xsg with
    | some sg =>
      .ok (.mmas h z hk sg fs t oa ob om k)
    | _ => .error 0x002
  | _ => .error 0x000

/-- The word of MMAS. -/
def encMmas (h : Hdr) (z : Bool) (hk : Bool) (sg : Sg) (fs : Nat) (t : Nat) (oa : Nat) (ob : Nat) (om : Nat) (k : Nat) : Nat :=
  joinBits (hdrFields 0x305 h ++
    [(0, 1), (t, 4), (oa, 6), (ob, 6), (om, 6), (fs, 3), (sg.code, 2), (z.toNat, 1), (hk.toNat, 1), (0, 21), (k, 4), (0, 10)])

/-- Field lengths of ACCZ (format X) from bit 31 up. -/
def layAccz : List Nat := [1, 4, 60]

/-- ACCZ: the checks of R98 and the instruction. -/
def decAccz (h : Hdr) (w : Nat) : Except Nat Instr :=
  match splitBits layAccz w with
  | [z0, xt, z2] =>
    if z0 + z2 ≠ 0 then .error 0x001 else
    let t := xt
    .ok (.accz h t)
  | _ => .error 0x000

/-- The word of ACCZ. -/
def encAccz (h : Hdr) (t : Nat) : Nat :=
  joinBits (hdrFields 0x306 h ++
    [(0, 1), (t, 4), (0, 60)])

/-- Field lengths of ACCLD (format X) from bit 31 up. -/
def layAccld : List Nat := [1, 4, 28, 9, 9, 4, 10]

/-- ACCLD: the checks of R98 and the instruction. -/
def decAccld (h : Hdr) (w : Nat) : Except Nat Instr :=
  match splitBits layAccld w with
  | [z0, xt, z2, xd, xa, xk, z6] =>
    if z0 + z2 + z6 ≠ 0 then .error 0x001 else
    let t := xt
    let k := xk
    match Opd.ofCode xd, Opd.ofCode xa with
    | some d, some a => .ok (.accld h t k d a)
    | _, _ => .error 0x020
  | _ => .error 0x000

/-- The word of ACCLD. -/
def encAccld (h : Hdr) (t : Nat) (k : Nat) (d : Opd) (a : Opd) : Nat :=
  joinBits (hdrFields 0x307 h ++
    [(0, 1), (t, 4), (0, 28), (d.code, 9), (a.code, 9), (k, 4), (0, 10)])

/-- Field lengths of ACCST (format X) from bit 31 up. -/
def layAccst : List Nat := [1, 4, 28, 9, 9, 4, 10]

/-- ACCST: the checks of R98 and the instruction. -/
def decAccst (h : Hdr) (w : Nat) : Except Nat Instr :=
  match splitBits layAccst w with
  | [z0, xt, z2, xd, xa, xk, z6] =>
    if z0 + z2 + z6 ≠ 0 then .error 0x001 else
    let t := xt
    let k := xk
    match Opd.ofCode xd, Opd.ofCode xa with
    | some d, some a => .ok (.accst h t k d a)
    | _, _ => .error 0x020
  | _ => .error 0x000

/-- The word of ACCST. -/
def encAccst (h : Hdr) (t : Nat) (k : Nat) (d : Opd) (a : Opd) : Nat :=
  joinBits (hdrFields 0x308 h ++
    [(0, 1), (t, 4), (0, 28), (d.code, 9), (a.code, 9), (k, 4), (0, 10)])

/-- Field lengths of ACCRED (format X) from bit 31 up. -/
def layAccred : List Nat := [1, 4, 23, 1, 1, 3, 9, 9, 4, 10]

/-- ACCRED: the checks of R98 and the instruction. -/
def decAccred (h : Hdr) (w : Nat) : Except Nat Instr :=
  match splitBits layAccred w with
  | [z0, xt, z2, xord, xi32, z5, xd, xa, xk, z9] =>
    if z0 + z2 + z5 + z9 ≠ 0 then .error 0x001 else
    let ord := xord == 1
    let i32 := xi32 == 1
    let t := xt
    let k := xk
    match Opd.ofCode xd, Opd.ofCode xa with
    | some d, some a => .ok (.accred h ord i32 t k d a)
    | _, _ => .error 0x020
  | _ => .error 0x000

/-- The word of ACCRED. -/
def encAccred (h : Hdr) (ord : Bool) (i32 : Bool) (t : Nat) (k : Nat) (d : Opd) (a : Opd) : Nat :=
  joinBits (hdrFields 0x309 h ++
    [(0, 1), (t, 4), (0, 23), (ord.toNat, 1), (i32.toNat, 1), (0, 3), (d.code, 9), (a.code, 9), (k, 4), (0, 10)])

/-- Field lengths of ACCRD (format X) from bit 31 up. -/
def layAccrd : List Nat := [1, 4, 23, 4, 1, 9, 9, 14]

/-- ACCRD: the checks of R98 and the instruction. -/
def decAccrd (h : Hdr) (w : Nat) : Except Nat Instr :=
  match splitBits layAccrd w with
  | [z0, xt, z2, xn1, z4, xd, xa, z7] =>
    if z0 + z2 + z4 + z7 ≠ 0 then .error 0x001 else
    let t := xt
    let n1 := xn1
    match Opd.ofCode xd, Opd.ofCode xa with
    | some d, some a => .ok (.accrd h t n1 d a)
    | _, _ => .error 0x020
  | _ => .error 0x000

/-- The word of ACCRD. -/
def encAccrd (h : Hdr) (t : Nat) (n1 : Nat) (d : Opd) (a : Opd) : Nat :=
  joinBits (hdrFields 0x30A h ++
    [(0, 1), (t, 4), (0, 23), (n1, 4), (0, 1), (d.code, 9), (a.code, 9), (0, 14)])

/-- Field lengths of SLOTWR (format X) from bit 31 up. -/
def laySlotwr : List Nat := [5, 6, 17, 1, 4, 9, 9, 14]

/-- SLOTWR: the checks of R98 and the instruction. -/
def decSlotwr (h : Hdr) (w : Nat) : Except Nat Instr :=
  match splitBits laySlotwr w with
  | [z0, xo, z2, xside, z4, xd, xa, z7] =>
    if z0 + z2 + z4 + z7 ≠ 0 then .error 0x001 else
    let side := xside == 1
    let o := xo
    if !(((Opd.ofCode xd).getD (.v 0)).notQ) then .error 0x002 else
    match Opd.ofCode xd, Opd.ofCode xa with
    | some d, some a => .ok (.slotwr h side o d a)
    | _, _ => .error 0x020
  | _ => .error 0x000

/-- The word of SLOTWR. -/
def encSlotwr (h : Hdr) (side : Bool) (o : Nat) (d : Opd) (a : Opd) : Nat :=
  joinBits (hdrFields 0x30B h ++
    [(0, 5), (o, 6), (0, 17), (side.toNat, 1), (0, 4), (d.code, 9), (a.code, 9), (0, 14)])

/-- Field lengths of SLOTRD (format X) from bit 31 up. -/
def laySlotrd : List Nat := [5, 6, 17, 1, 4, 9, 9, 14]

/-- SLOTRD: the checks of R98 and the instruction. -/
def decSlotrd (h : Hdr) (w : Nat) : Except Nat Instr :=
  match splitBits laySlotrd w with
  | [z0, xo, z2, xside, z4, xd, xa, z7] =>
    if z0 + z2 + z4 + z7 ≠ 0 then .error 0x001 else
    let side := xside == 1
    let o := xo
    match Opd.ofCode xd, Opd.ofCode xa with
    | some d, some a => .ok (.slotrd h side o d a)
    | _, _ => .error 0x020
  | _ => .error 0x000

/-- The word of SLOTRD. -/
def encSlotrd (h : Hdr) (side : Bool) (o : Nat) (d : Opd) (a : Opd) : Nat :=
  joinBits (hdrFields 0x30C h ++
    [(0, 5), (o, 6), (0, 17), (side.toNat, 1), (0, 4), (d.code, 9), (a.code, 9), (0, 14)])

/-- The instruction of a 96-bit word, or the cause of the first failing check of R98 that needs the word alone. -/
def decodeWord (w : Nat) : Except Nat Instr :=
  let h := decodeHdr w
  let b := w / 2 ^ 31
  match w % 1024 with
  | 0x000 => decNop h b
  | 0x001 => decMov h b
  | 0x041 => decMovImm h b
  | 0x002 => decIadd h b
  | 0x042 => decIaddImm h b
  | 0x003 => decIsub h b
  | 0x043 => decIsubImm h b
  | 0x004 => decIaddc h b
  | 0x044 => decIaddcImm h b
  | 0x005 => decImul h b
  | 0x045 => decImulImm h b
  | 0x006 => decImulh h b
  | 0x046 => decImulhImm h b
  | 0x007 => decImad h b
  | 0x047 => decImadImm h b
  | 0x008 => decImadw h b
  | 0x048 => decImadwImm h b
  | 0x009 => decImin h b
  | 0x049 => decIminImm h b
  | 0x00A => decImax h b
  | 0x04A => decImaxImm h b
  | 0x00B => decIabs h b
  | 0x04B => decIabsImm h b
  | 0x00C => decShl h b
  | 0x04C => decShlImm h b
  | 0x00D => decShr h b
  | 0x04D => decShrImm h b
  | 0x00E => decSar h b
  | 0x04E => decSarImm h b
  | 0x00F => decAnd h b
  | 0x04F => decAndImm h b
  | 0x010 => decOr h b
  | 0x050 => decOrImm h b
  | 0x011 => decXor h b
  | 0x051 => decXorImm h b
  | 0x012 => decLut3 h b
  | 0x052 => decLut3Imm h b
  | 0x013 => decPopc h b
  | 0x014 => decClz h b
  | 0x015 => decBfe h b
  | 0x055 => decBfeImm h b
  | 0x016 => decBfi h b
  | 0x056 => decBfiImm h b
  | 0x017 => decBpick h b
  | 0x057 => decBpickImm h b
  | 0x018 => decSel h b
  | 0x058 => decSelImm h b
  | 0x019 => decIcmp h b
  | 0x059 => decIcmpImm h b
  | 0x01A => decLea h b
  | 0x05A => decLeaImm h b
  | 0x01B => decIdot4 h b
  | 0x080 => decUmov h b
  | 0x0A0 => decUmovImm h b
  | 0x081 => decUadd h b
  | 0x0A1 => decUaddImm h b
  | 0x082 => decUsub h b
  | 0x0A2 => decUsubImm h b
  | 0x083 => decUmul h b
  | 0x0A3 => decUmulImm h b
  | 0x084 => decUmad h b
  | 0x0A4 => decUmadImm h b
  | 0x085 => decUmin h b
  | 0x0A5 => decUminImm h b
  | 0x086 => decUmax h b
  | 0x0A6 => decUmaxImm h b
  | 0x087 => decUshl h b
  | 0x0A7 => decUshlImm h b
  | 0x088 => decUshr h b
  | 0x0A8 => decUshrImm h b
  | 0x089 => decUsar h b
  | 0x0A9 => decUsarImm h b
  | 0x08A => decUand h b
  | 0x0AA => decUandImm h b
  | 0x08B => decUor h b
  | 0x0AB => decUorImm h b
  | 0x08C => decUxor h b
  | 0x0AC => decUxorImm h b
  | 0x08D => decUcmp h b
  | 0x0AD => decUcmpImm h b
  | 0x08E => decUlea h b
  | 0x0AE => decUleaImm h b
  | 0x0C0 => decPlut3 h b
  | 0x0C1 =>
    match w / 2 ^ 78 % 4 with
    | 0 => decPmovTov h b
    | 1 => decPmovFromv h b
    | 2 => decPmovSave h b
    | _ => decPmovLoad h b
  | 0x0C2 => decVote h b
  | 0x0C3 => decBallot h b
  | 0x0C4 => decLget h b
  | 0x0C5 => decPswap h b
  | 0x0C6 => decMatchv h b
  | 0x0C7 => decLred h b
  | 0x0C8 => decScan h b
  | 0x0C9 =>
    match w / 2 ^ 78 % 2 with
    | 0 => decReadl h b
    | _ => decReadlFirst h b
  | 0x100 => decFadd h b
  | 0x140 => decFaddImm h b
  | 0x101 => decFmul h b
  | 0x141 => decFmulImm h b
  | 0x102 => decFfma h b
  | 0x142 => decFfmaImm h b
  | 0x103 => decFmin h b
  | 0x143 => decFminImm h b
  | 0x104 => decFmax h b
  | 0x144 => decFmaxImm h b
  | 0x105 => decFcmp h b
  | 0x145 => decFcmpImm h b
  | 0x106 =>
    match w / 2 ^ 78 % 2 with
    | 0 => decFclass h b
    | _ => decFclassTest h b
  | 0x107 => decFrnd h b
  | 0x108 => decFfrac h b
  | 0x109 => decFscale h b
  | 0x10A => decCvt h b
  | 0x10B => decCvtq h b
  | 0x10C => decDq h b
  | 0x10D => decRcp h b
  | 0x10E => decRsq h b
  | 0x10F => decSqrt h b
  | 0x110 => decExp2 h b
  | 0x111 => decLog2 h b
  | 0x112 => decSinr h b
  | 0x113 => decCosr h b
  | 0x180 => decBra h b
  | 0x181 => decBrx h b
  | 0x182 =>
    match w / 2 ^ 32 % 2 with
    | 0 => decCall h b
    | _ => decCallInd h b
  | 0x183 => decRet h b
  | 0x184 => decExit h b
  | 0x185 => decBreakp h b
  | 0x186 =>
    match w / 2 ^ 65 % 2 with
    | 0 => decMovemRd h b
    | _ => decMovemWr h b
  | 0x187 => decBar h b
  | 0x188 => decBarg h b
  | 0x189 => decLaunch h b
  | 0x18A =>
    match w / 2 ^ 65 % 2 with
    | 0 => decCancel h b
    | _ => decCancelId h b
  | 0x18B => decYieldw h b
  | 0x18C =>
    match w / 2 ^ 65 % 2 with
    | 0 => decSleep h b
    | _ => decSleepWatch h b
  | 0x18D => decSyscall h b
  | 0x18E => decTrap h b
  | 0x18F => decRett h b
  | 0x190 => decIdend h b
  | 0x191 => decTime h b
  | 0x192 => decMovsr h b
  | 0x193 => decSetsr h b
  | 0x200 => decLd h b
  | 0x201 => decSt h b
  | 0x202 => decLdu h b
  | 0x203 => decAtom h b
  | 0x204 => decCas h b
  | 0x205 => decRed h b
  | 0x206 => decFence h b
  | 0x207 => decPref h b
  | 0x208 => decCflush h b
  | 0x209 => decCinv h b
  | 0x20A => decSpace h b
  | 0x20B => decCvta h b
  | 0x20C =>
    match w / 2 ^ 65 % 2 with
    | 0 => decGwin h b
    | _ => decGwinSelf h b
  | 0x20D => decSpfe h b
  | 0x20E => decHflush h b
  | 0x20F => decOwnreq h b
  | 0x210 => decFrz h b
  | 0x211 => decThaw h b
  | 0x212 => decFrzq h b
  | 0x213 => decRbegin h b
  | 0x214 => decRcommit h b
  | 0x215 =>
    match w / 2 ^ 65 % 4 with
    | 0 => decStrbIn h b
    | 1 => decStrbOut h b
    | 2 => decStrbQin h b
    | _ => decStrbQout h b
  | 0x216 => decStrstat h b
  | 0x217 => decStrflush h b
  | 0x218 => decStrclose h b
  | 0x280 => decCopy h b
  | 0x281 =>
    match w / 2 ^ 66 % 2 with
    | 0 => decCopyg h b
    | _ => decCopygSlot h b
  | 0x282 => decCopym h b
  | 0x283 => decWaitk h b
  | 0x284 =>
    match w / 2 ^ 65 % 2 with
    | 0 => decKadd h b
    | _ => decKaddImm h b
  | 0x285 => decRowcpy h b
  | 0x286 => decRowzero h b
  | 0x287 => decRank h b
  | 0x288 => decRoute h b
  | 0x289 => decTgen h b
  | 0x300 => decClaimo h b
  | 0x301 => decRelo h b
  | 0x302 => decClaima h b
  | 0x303 => decRela h b
  | 0x304 => decMma h b
  | 0x305 => decMmas h b
  | 0x306 => decAccz h b
  | 0x307 => decAccld h b
  | 0x308 => decAccst h b
  | 0x309 => decAccred h b
  | 0x30A => decAccrd h b
  | 0x30B => decSlotwr h b
  | 0x30C => decSlotrd h b
  | _ => .error 0x000

/-- The word of an instruction, from the encodings of R79 and R86; 0 for an event row, which has no encoding. -/
def encode : Instr → Nat
  | .nop h => encNop h
  | .mov h ty d a => encMov h ty d a
  | .movImm h ty d imm => encMovImm h ty d imm
  | .iadd h ty sat na nb d a b => encIadd h ty sat na nb d a b
  | .iaddImm h ty sat d a imm => encIaddImm h ty sat d a imm
  | .isub h ty sat d a b => encIsub h ty sat d a b
  | .isubImm h ty sat d a imm => encIsubImm h ty sat d a imm
  | .iaddc h ty ci pd d a b => encIaddc h ty ci pd d a b
  | .iaddcImm h ty ci pd d a imm => encIaddcImm h ty ci pd d a imm
  | .imul h ty sat d a b => encImul h ty sat d a b
  | .imulImm h ty sat d a imm => encImulImm h ty sat d a imm
  | .imulh h ty d a b => encImulh h ty d a b
  | .imulhImm h ty d a imm => encImulhImm h ty d a imm
  | .imad h ty sat nc d a b c => encImad h ty sat nc d a b c
  | .imadImm h ty sat d a imm => encImadImm h ty sat d a imm
  | .imadw h ty sat d a b c => encImadw h ty sat d a b c
  | .imadwImm h ty sat d a imm => encImadwImm h ty sat d a imm
  | .imin h ty d a b => encImin h ty d a b
  | .iminImm h ty d a imm => encIminImm h ty d a imm
  | .imax h ty d a b => encImax h ty d a b
  | .imaxImm h ty d a imm => encImaxImm h ty d a imm
  | .iabs h ty sat d a => encIabs h ty sat d a
  | .iabsImm h ty sat d imm => encIabsImm h ty sat d imm
  | .shl h ty sat d a b => encShl h ty sat d a b
  | .shlImm h ty sat d a imm => encShlImm h ty sat d a imm
  | .shr h ty d a b => encShr h ty d a b
  | .shrImm h ty d a imm => encShrImm h ty d a imm
  | .sar h ty d a b => encSar h ty d a b
  | .sarImm h ty d a imm => encSarImm h ty d a imm
  | .and h ty na nb d a b => encAnd h ty na nb d a b
  | .andImm h ty d a imm => encAndImm h ty d a imm
  | .or h ty na nb d a b => encOr h ty na nb d a b
  | .orImm h ty d a imm => encOrImm h ty d a imm
  | .xor h ty na nb d a b => encXor h ty na nb d a b
  | .xorImm h ty d a imm => encXorImm h ty d a imm
  | .lut3 h ty lut d a b c => encLut3 h ty lut d a b c
  | .lut3Imm h ty lutLo lutHi d a imm => encLut3Imm h ty lutLo lutHi d a imm
  | .popc h ty d a => encPopc h ty d a
  | .clz h ty d a => encClz h ty d a
  | .bfe h ty d a b => encBfe h ty d a b
  | .bfeImm h ty d a imm => encBfeImm h ty d a imm
  | .bfi h ty d a b c => encBfi h ty d a b c
  | .bfiImm h ty d a imm => encBfiImm h ty d a imm
  | .bpick h d a b c => encBpick h d a b c
  | .bpickImm h d a imm => encBpickImm h d a imm
  | .sel h ty pr neg d a b => encSel h ty pr neg d a b
  | .selImm h ty pr neg d a imm => encSelImm h ty pr neg d a imm
  | .icmp h ty cmp pd a b => encIcmp h ty cmp pd a b
  | .icmpImm h ty cmp pd a imm => encIcmpImm h ty cmp pd a imm
  | .lea h ty sh d a b => encLea h ty sh d a b
  | .leaImm h ty sh d a imm => encLeaImm h ty sh d a imm
  | .idot4 h ty sat sgA sgB d a b c => encIdot4 h ty sat sgA sgB d a b c
  | .umov h ty d a => encUmov h ty d a
  | .umovImm h ty d imm => encUmovImm h ty d imm
  | .uadd h ty sat na nb d a b => encUadd h ty sat na nb d a b
  | .uaddImm h ty sat d a imm => encUaddImm h ty sat d a imm
  | .usub h ty sat d a b => encUsub h ty sat d a b
  | .usubImm h ty sat d a imm => encUsubImm h ty sat d a imm
  | .umul h ty sat d a b => encUmul h ty sat d a b
  | .umulImm h ty sat d a imm => encUmulImm h ty sat d a imm
  | .umad h ty sat nc d a b c => encUmad h ty sat nc d a b c
  | .umadImm h ty sat d a imm => encUmadImm h ty sat d a imm
  | .umin h ty d a b => encUmin h ty d a b
  | .uminImm h ty d a imm => encUminImm h ty d a imm
  | .umax h ty d a b => encUmax h ty d a b
  | .umaxImm h ty d a imm => encUmaxImm h ty d a imm
  | .ushl h ty sat d a b => encUshl h ty sat d a b
  | .ushlImm h ty sat d a imm => encUshlImm h ty sat d a imm
  | .ushr h ty d a b => encUshr h ty d a b
  | .ushrImm h ty d a imm => encUshrImm h ty d a imm
  | .usar h ty d a b => encUsar h ty d a b
  | .usarImm h ty d a imm => encUsarImm h ty d a imm
  | .uand h ty na nb d a b => encUand h ty na nb d a b
  | .uandImm h ty d a imm => encUandImm h ty d a imm
  | .uor h ty na nb d a b => encUor h ty na nb d a b
  | .uorImm h ty d a imm => encUorImm h ty d a imm
  | .uxor h ty na nb d a b => encUxor h ty na nb d a b
  | .uxorImm h ty d a imm => encUxorImm h ty d a imm
  | .ucmp h ty cmp pd a b => encUcmp h ty cmp pd a b
  | .ucmpImm h ty cmp pd a imm => encUcmpImm h ty cmp pd a imm
  | .ulea h ty sh d a b => encUlea h ty sh d a b
  | .uleaImm h ty sh d a imm => encUleaImm h ty sh d a imm
  | .plut3 h lut na nb nc pd pa pb pc => encPlut3 h lut na nb nc pd pa pb pc
  | .pmovTov h na d pa => encPmovTov h na d pa
  | .pmovFromv h pd a => encPmovFromv h pd a
  | .pmovSave h d => encPmovSave h d
  | .pmovLoad h a => encPmovLoad h a
  | .vote h mode na pd pa => encVote h mode na pd pa
  | .ballot h na d pa => encBallot h na d pa
  | .lget h mode g ty pd d a b => encLget h mode g ty pd d a b
  | .pswap h ln neglo ty d a => encPswap h ln neglo ty d a
  | .matchv h ty pd d a => encMatchv h ty pd d a
  | .lred h op rm ty d a => encLred h op rm ty d a
  | .scan h op excl rm ty d a => encScan h op excl rm ty d a
  | .readl h ty d a b => encReadl h ty d a b
  | .readlFirst h ty d a => encReadlFirst h ty d a
  | .fadd h ty rm sat na nb d a b => encFadd h ty rm sat na nb d a b
  | .faddImm h ty rm sat d a imm => encFaddImm h ty rm sat d a imm
  | .fmul h ty rm sat na nb d a b => encFmul h ty rm sat na nb d a b
  | .fmulImm h ty rm sat d a imm => encFmulImm h ty rm sat d a imm
  | .ffma h ty rm sat na nb nc d a b c => encFfma h ty rm sat na nb nc d a b c
  | .ffmaImm h ty rm sat d a imm => encFfmaImm h ty rm sat d a imm
  | .fmin h ty na nb d a b => encFmin h ty na nb d a b
  | .fminImm h ty d a imm => encFminImm h ty d a imm
  | .fmax h ty na nb d a b => encFmax h ty na nb d a b
  | .fmaxImm h ty d a imm => encFmaxImm h ty d a imm
  | .fcmp h ty cmp na nb pd a b => encFcmp h ty cmp na nb pd a b
  | .fcmpImm h ty cmp pd a imm => encFcmpImm h ty cmp pd a imm
  | .fclass h ty d a => encFclass h ty d a
  | .fclassTest h ty pd a b => encFclassTest h ty pd a b
  | .frnd h ty rm d a => encFrnd h ty rm d a
  | .ffrac h ty d a => encFfrac h ty d a
  | .fscale h ty rm sat d a b => encFscale h ty rm sat d a b
  | .cvt h ty sel sk rm sat d a => encCvt h ty sel sk rm sat d a
  | .cvtq h tk sk rm sat d a b c => encCvtq h tk sk rm sat d a b c
  | .dq h ty kind rm sat d a b c => encDq h ty kind rm sat d a b c
  | .rcp h ty na d a => encRcp h ty na d a
  | .rsq h ty na d a => encRsq h ty na d a
  | .sqrt h ty rm na d a => encSqrt h ty rm na d a
  | .exp2 h ty na d a => encExp2 h ty na d a
  | .log2 h ty na d a => encLog2 h ty na d a
  | .sinr h ty na d a => encSinr h ty na d a
  | .cosr h ty na d a => encCosr h ty na d a
  | .bra h u pr pnb disp rcv => encBra h u pr pnb disp rcv
  | .brx h u vv pr pnb a rcv => encBrx h u vv pr pnb a rcv
  | .call h disp => encCall h disp
  | .callInd h a => encCallInd h a
  | .ret h pr pnb => encRet h pr pnb
  | .exit h => encExit h
  | .breakp h pr pnb disp => encBreakp h pr pnb disp
  | .movemRd h d => encMovemRd h d
  | .movemWr h a => encMovemWr h a
  | .bar h mode sc id n => encBar h mode sc id n
  | .barg h mode sc id => encBarg h mode sc id
  | .launch h pr a b => encLaunch h pr a b
  | .cancel h lv => encCancel h lv
  | .cancelId h lv a => encCancelId h lv a
  | .yieldw h => encYieldw h
  | .sleep h n => encSleep h n
  | .sleepWatch h a n => encSleepWatch h a n
  | .syscall h d a n => encSyscall h d a n
  | .trap h n => encTrap h n
  | .rett h => encRett h
  | .idend h => encIdend h
  | .time h src d => encTime h src d
  | .movsr h idx d => encMovsr h idx d
  | .setsr h idx a => encSetsr h idx a
  | .ld h sp sz sc hint fe off d a => encLd h sp sz sc hint fe off d a
  | .st h sp sz hint fe off a b => encSt h sp sz hint fe off a b
  | .ldu h sp sz sc hint off d a => encLdu h sp sz sc hint off d a
  | .atom h op sp sz sc off d a b => encAtom h op sp sz sc off d a b
  | .cas h sp sz sc off d a b => encCas h sp sz sc off d a b
  | .red h op sp sz sc off a b => encRed h op sp sz sc off a b
  | .fence h mode sc => encFence h mode sc
  | .pref h sp hint l1 off a => encPref h sp hint l1 off a
  | .cflush h sp off a => encCflush h sp off a
  | .cinv h sp sc off a => encCinv h sp sc off a
  | .space h d a => encSpace h d a
  | .cvta h from_ sp d a => encCvta h from_ sp d a
  | .gwin h d a b => encGwin h d a b
  | .gwinSelf h d b => encGwinSelf h d b
  | .spfe h mode n d a => encSpfe h mode n d a
  | .hflush h sp off a => encHflush h sp off a
  | .ownreq h proc k a => encOwnreq h proc k a
  | .frz h sc k d a b => encFrz h sc k d a b
  | .thaw h k a => encThaw h k a
  | .frzq h d a => encFrzq h d a
  | .rbegin h d a => encRbegin h d a
  | .rcommit h => encRcommit h
  | .strbIn h port packed hint e a b => encStrbIn h port packed hint e a b
  | .strbOut h port packed k hint a b => encStrbOut h port packed k hint a b
  | .strbQin h port w64 e pw pp => encStrbQin h port w64 e pw pp
  | .strbQout h port w64 pw pp => encStrbQout h port w64 pw pp
  | .strstat h port d => encStrstat h port d
  | .strflush h port => encStrflush h port
  | .strclose h port => encStrclose h port
  | .copy h scatter sg hint k d a b => encCopy h scatter sg hint k d a b
  | .copyg h sg hint k d a b => encCopyg h sg hint k d a b
  | .copygSlot h slot side sg hint k off a b => encCopygSlot h slot side sg hint k off a b
  | .copym h slot side fol sg hint k off a b => encCopym h slot side fol sg hint k off a b
  | .waitk h mask => encWaitk h mask
  | .kadd h k a => encKadd h k a
  | .kaddImm h k imm => encKaddImm h k imm
  | .rowcpy h k d a c => encRowcpy h k d a c
  | .rowzero h k d c => encRowzero h k d c
  | .rank h kind n k d a b => encRank h kind n k d a b
  | .route h pd d a b c => encRoute h pd d a b c
  | .tgen h t k d a b c => encTgen h t k d a b c
  | .claimo h o n1 => encClaimo h o n1
  | .relo h o n1 => encRelo h o n1
  | .claima h t n1 => encClaima h t n1
  | .rela h t n1 => encRela h t n1
  | .mma h z hk sg fs t oa ob k => encMma h z hk sg fs t oa ob k
  | .mmas h z hk sg fs t oa ob om k => encMmas h z hk sg fs t oa ob om k
  | .accz h t => encAccz h t
  | .accld h t k d a => encAccld h t k d a
  | .accst h t k d a => encAccst h t k d a
  | .accred h ord i32 t k d a => encAccred h ord i32 t k d a
  | .accrd h t n1 d a => encAccrd h t n1 d a
  | .slotwr h side o d a => encSlotwr h side o d a
  | .slotrd h side o d a => encSlotrd h side o d a
  | .quadrantIssue _ _ => 0
  | .fixedLatencyWriteback _ _ _ => 0
  | .variableResultDone _ _ _ => 0
  | .sleepWake _ _ => 0
  | .yieldExpire _ _ => 0
  | .warpSlotFree _ _ => 0
  | .trapEntry _ _ _ _ _ => 0
  | .impreciseFaultTaken _ _ => 0
  | .pendingFaultTimeout _ _ _ => 0
  | .remoteRollback _ _ => 0
  | .pageWalk _ _ => 0
  | .engineWriteLands _ _ => 0
  | .copyBlockFetch _ _ => 0
  | .copyLateFault _ _ => 0
  | .followOnHandoff _ => 0
  | .rowBlockWritten _ _ => 0
  | .rowSourceWriteback _ => 0
  | .rankRowWritten _ _ => 0
  | .tgenDone _ => 0
  | .anvilOpStart _ _ => 0
  | .anvilOpComplete _ => 0
  | .accredContributionArrive _ _ => 0
  | .accredRoomFreed _ _ => 0
  | .tongsPrefetch _ _ _ _ => 0
  | .streamBeatWrite _ => 0
  | .queueBeatSend _ _ _ => 0
  | .freezeInstall _ => 0
  | .generationRetirement _ _ _ _ => 0
  | .retirementAck _ _ => 0
  | .thawOverdue _ => 0
  | .launchQueueFront _ => 0
  | .launchDispatch => 0
  | .dispatchReservation _ => 0
  | .workgroupEnd _ => 0
  | .launchComplete _ => 0
  | .timeLimitExpiry _ => 0
  | .preemptRequest _ _ => 0
  | .contextSave _ => 0
  | .contextRestore _ => 0
  | .syscallServiceRun _ => 0
  | .serviceDone _ _ => 0
  | .serviceTimeout _ => 0
  | .tlbInvalidate _ _ _ => 0
  | .cancelLaunchCmd _ => 0
  | .setJobWindow _ => 0
  | .hostCopy _ _ _ => 0
  | .unknownCommand _ => 0
  | .cxlMemAccess _ _ _ => 0
  | .hostCwinAccess _ _ _ _ => 0
  | .ownershipTransfer _ _ => 0
  | .tenureExpiry _ => 0
  | .backinvTimeout _ => 0
  | .hostLinkDown _ => 0
  | .podFlitReceive _ _ => 0
  | .podAckTimer _ => 0
  | .podNackTimer _ => 0
  | .podResendTimer _ _ => 0
  | .planeDark _ _ _ => 0
  | .linkSummarySend => 0
  | .jobPacketReceive _ => 0
  | .jobCompletionReceive _ _ => 0
  | .jobRetransmitTimer _ _ _ => 0
  | .landingCounterDeadline _ _ _ => 0
  | .ethernetPortDown _ => 0
  | .windowBoundary => 0
  | .ptpSync _ => 0
  | .preciseTimeLoss => 0
  | .channelCounterSnapshot => 0
  | .unitFence _ => 0
  | .thermalThrottle _ => 0
  | .thermalTrip _ => 0
  | .supplyFault _ => 0
  | .watchdogExpiry _ => 0
  | .coldReset _ => 0
  | .spdmRequest _ => 0
  | .warmReset => 0
  | .partitionReset _ => 0
  | .partitionEnable _ _ => 0
  | .devstatErrClear => 0
  | .rtinvWrite _ => 0
  | .planeenWrite _ _ => 0
  | .quiesceWrite _ => 0
  | .qdoorPush _ _ => 0
  | .queueClose _ => 0
  | .intmaskWrite _ _ => 0
  | .intstatClear _ _ => 0
  | .logringEnable _ _ => 0
  | .registerWrite _ _ => 0
  | .jobResponseReceive _ => 0
  | .podFlitSend _ => 0
  | .warmResetRetirementTimeout => 0

/-- The instruction that the decoder reads from a word laid out as the opcode table numbers bits. -/
def decodeTableWord (nbits w : Nat) : Option Instr :=
  match decodeWord (w % 2 ^ nbits) with
  | .ok i => some i
  | .error _ => none

/-- The 96-bit word of twelve bytes, little-endian (R69). -/
def wordOfBytes : List Byte → Nat
  | [] => 0
  | b :: bs => b.toNat + 256 * wordOfBytes bs

end Sys2Proof
end

