-- ==== Sys2Proof/Config.lean ====
section
/-! DEFINITION. The free values: what the spec leaves open, as constants without a body (log 4), and the device's fixed
figures. Nothing in Lean can evaluate a free value, so a statement that mentions one holds for every value of it. -/
namespace Sys2Proof.Config

/-- A free choice between two outcomes the spec allows, by the free-value counter and a salt (lane, line, register). -/
opaque freeBit (ctr salt : Nat) : Bool
/-- A free number, for a choice among several allowed outcomes. -/
opaque freeNat (ctr salt : Nat) : Nat
/-- A free 64-bit value (data of a unit whose bytes the spec does not give). -/
opaque freeWord (ctr salt : Nat) : BitVec 64
/-- The fixed function of the source bits that the special function `op` (0x10D–0x113) returns in format `ty` (R140:
every core returns the same bits for the same inputs); used only where R140 leaves the result open, and only when
it lies within R140's bound. -/
opaque special (op ty : Nat) (x : BitVec 64) : BitVec 64
/-- Bytes of an SPDM measurement block: a digest over images whose bytes the spec does not give, over ROM or over fuses (R372). -/
opaque measureByte (block : Nat) (images : List BootImage) (pos : Nat) : BitVec 8

/-- The 16-byte header of a pod transaction in its slot, and the coding of vendor-defined requests: UALink 1.0's, which the spec names and does
not give (R385). -/
opaque slotHeader (t : Txn) (i : Nat) : BitVec 8
/-- The fuse that disables access to the debug comparators (R432). -/
opaque debugFused : Bool

/-- Cores of the device (R3). -/
abbrev numCores : Nat := 192
/-- Warp slots of a core (R3). -/
abbrev numSlots : Nat := 64
/-- Launch queues (R406). -/
abbrev numQueues : Nat := 256
/-- Partitions (R3). -/
abbrev numParts : Nat := 8

end Sys2Proof.Config
end

