-- ==== Sys2Proof/Machine/State.lean ====
section
/-! DEFINITION. The state of one X4: plain data only. Every field names the rule of the spec that gives it. A warp that is
focused stands in `State.cur` with its workgroup in `State.wg`; all others stand in the lists `warps` and `wgs` (log 10). -/
namespace Sys2Proof.Machine

/-- Sparse storage in canonical form: strictly rising keys, no entry equal to zero; an unlisted key reads zero. -/
abbrev Store (w : Nat) := List (Nat × BitVec w)

/-- A warp's place: core 0–191 and warp slot 0–63 of that core. -/
structure WarpId where
  core : Nat
  slot : Nat
  deriving DecidableEq, Repr

/-- A stack entry or the base path (R44, R143), with the path's fetch state (R71, R73). -/
structure Path where
  /-- the kind: reconvergence entry, or path entry -/
  isRec : Bool
  /-- slot address -/
  pc : DWord
  /-- reconvergence PC, [62:0] as R144 -/
  rpc : DWord
  /-- current mask -/
  mask : Mask
  /-- creation mask -/
  creation : Mask
  /-- the line the path stands in (its address) and the bytes its fetch returned (R71) -/
  line : Option (Nat × List Byte)
  /-- an arrival not yet checked: sr.fault of a failed TGT check (R73) -/
  arr : Option DWord
  /-- refilled from private memory and not yet checked (R73, R243) -/
  refilled : Bool
  /-- the kind as stored in the spilled bytes (R73) -/
  storedRec : Bool
  /-- the path on which counted distances are kept (R81) -/
  pid : Nat
  deriving DecidableEq, Repr

/-- A register that R83 covers. -/
inductive PReg where | v (n : Nat) | s (n : Nat) | p (n : Nat)
  deriving DecidableEq, Repr

/-- How long a result stays uncertain (R81, R82). -/
inductive Lat where
  /-- fixed latency: path, counted distance so far, latency -/
  | fixed (pid dist lat : Nat)
  /-- variable latency: scoreboard entry (0 none), and whether it is done -/
  | var (sb : Nat) (done : Bool)
  deriving DecidableEq, Repr

/-- A result not yet certain: the register holds the new value; `old` is what it held in the lanes of `mask`. -/
structure Pend where
  reg : PReg
  old : VReg
  mask : Mask
  lat : Lat
  /-- the path and the slot address of the instruction that wrote it (R81, R271) -/
  path : Nat
  epc : DWord
  deriving DecidableEq, Repr

/-- A fault: cause, sr.epc, sr.fault and the path that issued the causing instruction (R273). -/
structure PendFault where
  cause : Nat
  epc : DWord
  addr : DWord
  pid : Nat
  /-- device time of its detection, and whether its delay of 1 ms has been logged (R274) -/
  since : Nat
  late : Bool
  deriving DecidableEq, Repr

/-- What a warp last did, as far as a fault that follows depends on it. -/
inductive LastIssue where
  | other
  /-- its context has been restored, and nothing has issued since (R277) -/
  | restored
  deriving DecidableEq, Repr

/-- The modes of R196. -/
inductive PortMode where | inp | out | qin | qout
  deriving DecidableEq, Repr

/-- A prefetched element of an input port (R315), or its deferred fault (R316). -/
structure PreElem where
  pos : Nat
  val : DWord
  fault : Option (Nat × DWord)
  deriving DecidableEq, Repr

/-- One element collected for a packed beat (R302): position, value, and the command of the push that gave it; on a queue,
0, or 1 + the tag of the remote load whose result it waits for (R306). -/
abbrev BeatElem := Nat × DWord × Nat

/-- A bound stream port (R196–R198, R301–R320). -/
structure Port where
  mode : PortMode
  /-- element width in bits: 4, 8, 16, 32, 64 (R305) -/
  width : Nat
  packed : Bool
  base : DWord
  /-- the port's copy of the layout record, 64 bytes, and its address (R307) -/
  record : List Byte
  recAddr : DWord
  hint : Nat
  /-- end predicate, 31 for none -/
  endP : Nat
  /-- count register of an output port -/
  k : Nat
  /-- position: elements popped or pushed since binding -/
  pos : Nat
  endSeen : Bool
  /-- position and address of a deferred fault that a pop has raised (R316) -/
  deferred : Option (Nat × DWord)
  pre : List PreElem
  /-- elements collected for the next packed beat -/
  part : List BeatElem
  peerWarp : Nat
  peerPort : Nat
  /-- consumer side: elements sent and not yet popped, in push order (R318) -/
  queue : List DWord
  /-- consumer side: the producer has closed its port (R301) -/
  closed : Bool
  /-- producer side: the consumer has closed its port (R198) -/
  discard : Bool
  /-- the peer warp was killed or cancelled (R318) -/
  gone : Bool
  /-- the record must be read again, after a restore (R320) -/
  reread : Bool
  /-- slot address and path of the STRB that bound it, and the number of the binding (R308, R315) -/
  epc : DWord
  pid : Nat
  binding : Nat
  deriving DecidableEq, Repr

/-- What the whole warp waits in (R240). -/
inductive Hold where
  | none
  | waitk (mask : BitVec 16)
  /-- workgroup barrier: id, recorded phase, scope of the acquire -/
  | bar (id phase sc : Nat)
  | barg (id phase sc : Nat)
  /-- SYSCALL: destination register and scoreboard entry -/
  | syscall (d sb : Nat)
  /-- SLEEP: the arithmetic-clock cycle of its issue, the cycle by which it wakes, whether it watches a line (R159) -/
  | sleep (since till : Nat) (watch : Bool)
  /-- YIELD: the cycle by which it is over, and the warps that have yet to issue -/
  | yield (till : Nat) (waitFor : List Nat)
  deriving DecidableEq, Repr

/-- A FENCE in progress (R178). -/
structure FenceWait where
  sc : Nat
  rel : Bool
  acq : Bool
  /-- the number of the engine instruction before which it stands, 0 for a fence of its own (R202) -/
  cmd : Nat
  /-- window boundaries passed since issue -/
  boundaries : Nat
  pid : Nat
  epc : DWord
  deriving DecidableEq, Repr

/-- An open remote region (R191–R194): its area, the RBEGIN's slot address and destination register, failures so far. -/
structure Region where
  area : DWord
  slot : DWord
  d : Nat
  failed : Option Nat
  deriving DecidableEq, Repr

/-- The life of a warp slot. -/
inductive WarpStatus where
  | free | running
  /-- every lane has exited; the slot waits to be freed (R151) -/
  | ended
  /-- killed or cancelled -/
  | killed
  deriving DecidableEq, Repr

/-- One warp (R37, R39, R46). -/
@[ext] structure Warp where
  id : WarpId
  /-- key of its workgroup -/
  wg : Nat
  /-- sr.warp -/
  index : Nat
  status : WarpStatus
  /-- v0–v239 (R37) -/
  v : Vector VReg 240
  /-- s0–s127 (R37) -/
  s : Vector Word 128
  /-- p0–p30 (R37); p31 has no storage (R41) -/
  p : Vector Mask 31
  /-- k0–k15 (R42) -/
  k : Vector Word 16
  /-- exited lanes X (R143) -/
  exited : Mask
  /-- the base path (R143): its `mask` is em while the stack is empty -/
  base : Path
  /-- on-chip divergence stack, top first, at most 32 entries (R44) -/
  stack : List Path
  /-- entries spilled to private memory (R44, R243) -/
  spilled : Nat
  /-- index of the issuing path: 0 the base path or the top entry, 1 the entry beneath it -/
  issuing : Nat
  /-- the next path identity for counted distances -/
  nextPid : Nat
  trapMode : Bool
  /-- sr.cause [8:0], sr.epc, sr.fault (R46, R275) -/
  cause : BitVec 9
  epc : DWord
  fault : DWord
  /-- pending imprecise faults, oldest first, at most 8 (R274) -/
  pendFaults : List PendFault
  /-- scoreboard entries 1–7 at indices 0–6 (R82) -/
  sb : Vector Nat 7
  pend : List Pend
  ports : Vector (Option Port) 8
  region : Option Region
  /-- phases of the latest arrivals at the 16 workgroup and 8 gang barriers (R155) -/
  barRec : Vector (Option Nat) 16
  bargRec : Vector (Option Nat) 8
  hold : Hold
  fence : Option FenceWait
  /-- wait count of R241 -/
  waitCount : Nat
  /-- cycles in which the lower live path was ready and not chosen (R146) -/
  altCount : Nat
  /-- the model's own: its next instruction is the second of a pair (R74), or the other live path's of one issue group (R146) -/
  second : Bool
  /-- its last instruction gave the next issue cycle away (R84) -/
  gives : Bool
  last : LastIssue
  /-- address of the slot's private arena (R253, R422) -/
  arena : DWord
  deriving DecidableEq, Repr

/-- The kernel limits of R63. -/
structure Kernel where
  entry : DWord
  handler : DWord
  vregs : Nat
  sregs : Nat
  scratch : Nat
  oslots : Nat
  atiles : Nat
  ports : BitVec 8
  dspill : Nat
  priv : Nat
  deriving DecidableEq, Repr

/-- A barrier (R155): phase counter, arrivals, and the n of the phase's arrivals. -/
structure Barrier where
  phase : Nat
  count : Nat
  n : Option Nat
  deriving DecidableEq, Repr

/-- An arrival at a SYSCALL (R160): service, argument address, warp index, destination. -/
structure SysArrival where
  n : Nat
  a : DWord
  warp : Nat
  d : Nat
  deriving DecidableEq, Repr

/-- One received access of a slot's order (R217): a number, whether it writes, whether it is finished, the byte range
of a write, and whether it waits for the RELO of its slot. -/
structure SlotAccess where
  seq : Nat
  slot : Nat
  write : Bool
  needRelo : Bool
  /-- the bytes lo … hi − 1 of the slot that it touches -/
  lo : Nat
  hi : Nat
  /-- a write in flight: bytes that a SLOTWR received after it has written and that it leaves alone (R217) -/
  over_ : List Nat
  /-- a write that stopped and will never land: reads received after it wait for good (R217) -/
  lost : Bool
  deriving DecidableEq, Repr

/-- The life of a workgroup. -/
inductive WgStatus where
  | resident
  /-- stopping for pre-emption (R415) -/
  | stopping
  /-- context saved (R416) -/
  | saved
  | ended
  | cancelled
  deriving DecidableEq, Repr

/-- One workgroup (R233, R234, R237). -/
structure Wgroup where
  /-- the model's key of the workgroup -/
  key : Nat
  /-- key of its launch -/
  launch : Nat
  part : Nat
  core : Nat
  /-- priority of its queue (R241) -/
  prio : Nat
  linear : Nat
  x : Word
  y : Word
  z : Word
  wgsize : Nat
  gangSize : Nat
  kern : Kernel
  /-- stall-check and idempotent flags (R231) -/
  check : Bool
  idem : Bool
  /-- fs0–fs7 (R28, R238) -/
  fs : Vector DWord 8
  /-- PID[31:0] (R230) -/
  phase : Word
  /-- scratchpad bytes by offset in the workgroup's range (R254), and its full lines (R174) -/
  spad : Store 8
  full : List Nat
  /-- slot bytes, by slot × 20,480 + byte: data area, then side area (R37) -/
  slots : Store 8
  claimed : List Nat
  /-- accesses received and not finished, oldest first (R217) -/
  order : List SlotAccess
  /-- tile words, by tile × 16,384 + 128 m + n (R37), and the live tiles (R218) -/
  tiles : Store 32
  live : List Nat
  bars : Vector Barrier 16
  sys : List SysArrival
  idend : Bool
  /-- 64-byte lines of its stores on the core that hold an uncorrectable error (R278, source 2): of the scratchpad by number, of the slots from
  2^40 on, of the tiles from 2^41 on -/
  bad : List Nat
  /-- COPYG instructions its warps have issued (R208) -/
  copygs : Nat
  /-- scratchpad range, first operand slot and first tile taken on the core (R234) -/
  spadBase : Nat
  slotBase : Nat
  tileBase : Nat
  status : WgStatus
  /-- CAUSE to be counted at its end (R411) -/
  endCause : Nat
  /-- saved: where its context stands in the area of its core (R416), none where the area has no room left -/
  ctx : Option Nat
  /-- engine work numbered below this was issued before the workgroup ended (R239, R435) -/
  endId : Nat
  /-- everything of R234 but the scratchpad range has been released (R239) -/
  released : Bool
  deriving DecidableEq, Repr

/-- The gang barriers of one gang of a launch (R155). -/
structure Gang where
  launch : Nat
  index : Nat
  bars : Vector Barrier 8
  deriving DecidableEq, Repr

/-- A launch record held by a queue, the pool or a launch (R157, R238): its 256 bytes and the address it was pushed from. -/
structure Rec where
  bytes : List Byte
  addr : DWord
  deriving DecidableEq, Repr

/-- A launch being dispatched or running, or a record waiting in the join pool (R408–R413). -/
structure Launch where
  key : Nat
  /-- the record, with the fields the selector has replaced (R403) -/
  record : Rec
  queue : Nat
  part : Nat
  prio : Nat
  kern : Kernel
  /-- the next linear id to dispatch; linear ids discarded and waiting for re-dispatch (R417) -/
  next : Nat
  total : Nat
  redo : List Nat
  /-- workgroups ended -/
  done : Nat
  cancelled : Bool
  cause : Nat
  /-- device time of its first dispatch (R422) -/
  started : Option Nat
  /-- its record came from the join pool, and not from the front of its queue (R409) -/
  pooled : Bool
  /-- cycle since which its candidate has waited for placement (R410) -/
  waiting : Option Nat
  deriving DecidableEq, Repr

/-- A record parked in the join pool (R408): location of its counter, and whether it is ready (R409). -/
structure Parked where
  record : Rec
  queue : Nat
  loc : Nat
  ready : Bool
  cancelled : Option Nat
  deriving DecidableEq, Repr

/-- An access that the control cluster makes to a partition's memory for a record (R411, R412) or for the driver (R406), kept while it waits
for an ownership transfer (R364, R365). -/
inductive CtlOp where
  /-- count a unit into a completion counter: partition, address, cause, cancelled -/
  | count (part a cause : Nat) (cancelled : Bool)
  /-- read an entry of a successor list, and lower the join counter it names -/
  | entry (part : Nat) (a : DWord) (cancelled : Option Nat)
  | join (part : Nat) (a : DWord) (cancelled : Option Nat)
  /-- read the record that the driver pushes into a queue -/
  | push (q : Nat) (a : DWord)
  deriving DecidableEq, Repr

/-- Scheduling state (R406–R419). -/
structure Sched where
  /-- records held by each queue, oldest first -/
  queues : List (Nat × List Rec)
  pool : List Parked
  launches : List Launch
  gangs : List Gang
  nextLaunch : Nat
  nextWg : Nat
  /-- rotation over queue numbers (R410) -/
  rotor : Nat
  /-- per quadrant (4 core + quad): the pointer of R241 -/
  pointers : Store 8
  /-- reservations, oldest first: priority, hearths, launch (R410) -/
  reserve : List (Nat × List Nat × Nat)
  /-- saved workgroups with their warps (R416) -/
  saved : List (Wgroup × List Warp)
  /-- pre-emption requests in progress: partition -/
  preempts : List (Nat × List Nat)
  /-- the control cluster's accesses that wait for an ownership transfer, those of one record in order (R365) -/
  ctl : List (List CtlOp)
  deriving DecidableEq, Repr

/-- What a home slice keeps of a line: the DRAM contents where they differ, its budget, its sharers, its place in the slice (R259, R260, R262,
R263). -/
structure HomeLine where
  line : Nat
  /-- the bytes the DRAM holds, when they differ -/
  dram : Option (List Byte)
  budget : Option Nat
  /-- hearths whose remote-data cache may hold a copy (R260) -/
  sharers : BitVec 4
  /-- its prediction value while the slice holds the line, none while it is absent (R262) -/
  pred : Option Nat
  deriving DecidableEq, Repr

/-- What a cached line is a copy of: a local line, or a line of another device by rank, region and offset ÷ 64. -/
inductive LineKey where
  | loc (line : Nat)
  | rem (rank region off : Nat)
  deriving DecidableEq, Repr

/-- A cached copy (R257, R258, R261): in the L1 of a core, or in the remote-data cache of a hearth. -/
structure CacheLine where
  core : Option Nat
  hearth : Nat
  key : LineKey
  bytes : List Byte
  /-- home rank and tag of a frozen copy -/
  tag : Option (Nat × FrzTag)
  /-- prediction value (R262) -/
  pred : Nat
  deriving DecidableEq, Repr

/-- A TLB entry (R268): address space, page base and log2 of its size, and the leaf. -/
structure TlbEntry where
  /-- the core whose TLB holds it, or none for the TLB of a hearth -/
  core : Option Nat
  hearth : Nat
  asid : Nat
  va : Nat
  size : Nat
  leaf : DWord
  /-- the location of the leaf's entry -/
  at_ : Nat
  deriving DecidableEq, Repr

/-- What an engine instruction goes on using once it has used it: translations (R270, R331) and rank entries (R381). -/
structure Pins where
  pages : List TlbEntry
  ranks : List (Nat × DWord)
  deriving DecidableEq, Repr

/-- The state of a frozen-table entry (R186, R187). -/
inductive FrzState where | free | pending | installed | thawing
  deriving DecidableEq, Repr

/-- An entry of the frozen region table (R186, R335). -/
structure FrzEntry where
  state : FrzState
  gen : BitVec 26
  /-- scope code 2–4 -/
  sc : Nat
  part : Nat
  /-- the job of the launch that installed it (R187) -/
  job : Nat
  /-- physical ranges covered: location and length -/
  ranges : List (Nat × Nat)
  /-- warp, workgroup and count register of the FRZ or THAW in progress -/
  owner : Option (WarpId × Nat × Nat)
  /-- ranks whose acknowledgement of the retirement is outstanding, this device's among them until its own copies are retired (R187, R356) -/
  acks : List Nat
  /-- pending: window boundaries since the FRZ (R178, R186); thawing: cycle of the THAW (R357) -/
  since : Nat
  /-- 0x148 + e 6 was logged -/
  overdue : Bool
  deriving DecidableEq, Repr

/-- An OWNREQ waiting at the home (R185, R365): its warp, workgroup and count register, the state asked (1 processor, 2 accelerator),
and what a fault of it names. -/
structure OwnReq where
  warp : WarpId
  wg : Nat
  k : Nat
  want : Nat
  epc : DWord
  pid : Nat
  addr : DWord
  deriving DecidableEq, Repr

/-- An access that waits for a transfer (R365): of a warp's path at a slot, or of engine work by its number. -/
inductive Waiter where
  | path (warp : WarpId) (wg pid : Nat) (pc : DWord)
  | cmd (id : Nat)
  deriving DecidableEq, Repr

/-- A host-shared region's transfer (R364–R366): its leaf's location, the state sought, waiting OWNREQs. -/
structure OwnRegion where
  /-- location of the leaf entry; tier and base location of the 2 MiB -/
  leafLoc : Nat
  /-- transferring to: 1 processor, 2 accelerator -/
  target : Option Nat
  /-- device time at which the owner's tenure ends, and at which the transfer under way began (R366) -/
  tenure : Nat
  since : Nat
  /-- OWNREQs waiting, oldest first, and whether the first of them started the transfer under way (R366) -/
  waiting : List OwnReq
  asked : Bool
  /-- device accesses that wait, which are performed before the tenure ends (R365) -/
  due : List Waiter
  /-- the transfer stopped for want of a host answer (R366) -/
  stuck : Bool
  part : Nat
  asid : Nat
  va : Nat
  deriving DecidableEq, Repr

/-- The memory system of the device (R251–R270). -/
structure MemSys where
  /-- the value at each byte's point of coherence, by location (R324, R330, R255) -/
  mem : Store 8
  home : List HomeLine
  copies : List CacheLine
  /-- poisoned lines (R278): line, and the source s of its cause -/
  poison : List (Nat × Nat)
  tlb : List TlbEntry
  frz : Vector FrzEntry 64
  own : List OwnRegion
  /-- cached level-2 rank entries (R381) -/
  ranks : List (Nat × DWord)
  /-- coherent-window lines that a host cache may hold, with dirty data the host would answer (R362) -/
  hostLines : List (Nat × Option (List Byte))
  /-- lines that sleeping warps watch and that no write has reached since (R159) -/
  watch : List (WarpId × Nat)
  /-- generations retired here, by home, for which a late fill may still arrive (R356) -/
  retired : List (Nat × FrzTag)
  /-- the model's own: what the issued engine instruction whose addresses are being resolved goes on using -/
  view : Option Pins
  deriving DecidableEq, Repr

/-- A destination byte of an engine write. -/
inductive LandDest where
  /-- scratchpad byte of the workgroup with that key -/
  | spad (wg off : Nat)
  /-- slot byte of the workgroup with that key: slot × 20,480 + byte -/
  | slot (wg idx : Nat)
  /-- a byte whose address is checked and translated when it lands (R317) -/
  | addr
  deriving DecidableEq, Repr

/-- A piece of an engine's output waiting to land: the destination bytes with their addresses, and how the count
register falls. -/
structure Piece where
  idx : Nat
  bytes : List (LandDest × DWord × Byte)
  /-- workgroup whose issuing warp's register falls (R208) -/
  mem : Nat
  /-- count taken off the register when it lands -/
  drop : Nat
  deriving DecidableEq, Repr

/-- The side of a copy that is contiguous. -/
inductive ContSide where
  | addr (a : DWord)
  | slot (base : Nat)
  deriving DecidableEq, Repr

/-- The kinds of engine work in flight. -/
inductive CmdKind where
  /-- a copy: scatter, layout record, patterned base, contiguous side, split granule in inner blocks (R207–R210) -/
  | copy (scatter : Bool) (record : List Byte) (base : DWord) (cont : ContSide) (granule : Nat)
  /-- locations of the 256-byte granules of source and destination, and the addresses of the two ranges -/
  | rowcpy (src dst : List Nat) (from_ to_ : DWord)
  | rowzero (dst : List Nat) (to_ : DWord)
  | rank (kind n : Nat) (record : List Byte) (base out : DWord)
  | tgen (t n cap : Nat) (counts tab list : DWord)
  /-- a tile store: landing pieces only; a reduction: `todo` lists the contributions not yet performed -/
  | tile
  /-- a tile load: pieces fetched for ANVIL_OP_COMPLETE, and the operation -/
  | tileLoad (op : Nat)
  /-- pushed beats of a port, of elements of `w` bytes -/
  | push (w : Nat)
  deriving DecidableEq, Repr

/-- Engine work in flight (R201–R215, R296, R314). -/
structure Cmd where
  id : Nat
  kind : CmdKind
  warp : WarpId
  wg : Nat
  core : Nat
  k : Nat
  epc : DWord
  pid : Nat
  hint : Nat
  part : Nat
  /-- inner blocks, rows or row blocks not yet fetched -/
  todo : List Nat
  /-- pieces fetched and not landed -/
  pieces : List Piece
  /-- ROWCPY: dirty source lines written back (R328) -/
  wroteBack : Bool
  /-- lowest refused address so far (R190); cause and lowest failing address (R203, R317) -/
  refused : Option DWord
  failed : Option (Nat × DWord)
  /-- the receipt number of its slot write (R217), 0 for none -/
  slotSeq : Nat
  /-- a COPYM's follow-on: the index of its anvil operation -/
  follow : Option Nat
  /-- ACCRED: 0x0EA has been raised (R222) -/
  dup : Bool
  /-- destination full/empty lines this copy writes, marked full at the end (R207) -/
  lines : List (Nat × Nat)
  /-- a COPYG: how many its workgroup had issued before it (R208) -/
  copyg : Option Nat
  /-- it names another device (R202), and was issued inside a remote region (R193) -/
  remote : Bool
  inRegion : Bool
  /-- what it goes on using (R331, R381) -/
  pins : Pins
  deriving DecidableEq, Repr

/-- An ordered or unordered contribution of ACCRED under way: one 64-byte piece (R299). -/
structure Contrib where
  id : Nat
  idx : Nat
  /-- locations of its sixteen words, with the addresses and values -/
  words : List (Nat × DWord × Word)
  isI32 : Bool
  /-- ordered: index and count -/
  ord : Option (Nat × Nat)
  warp : WarpId
  wg : Nat
  /-- key of the launch -/
  launch : Nat
  k : Nat
  epc : DWord
  pid : Nat
  /-- its home slice: 64 hearth + slice (R325, R330) -/
  slice : Nat
  /-- arrived and waiting at its sender for room (R300) -/
  noRoom : Bool
  /-- held by its slice -/
  held : Bool
  deriving DecidableEq, Repr

/-- Where the answer of a remote operation, or a SLOTRD's value, goes. -/
inductive RemDst where
  | none
  /-- lane l of the n registers at v r -/
  | lane (r n l : Nat)
  /-- the n registers at s r -/
  | uni (r n : Nat)
  /-- an element already pushed on a queue port -/
  | elem (port pos : Nat)
  /-- an element already pushed on an output port: its command, address and byte count -/
  | push (port pos cmd : Nat) (addr : DWord) (n : Nat)
  /-- a prefetched element of an input port: the nibble that holds it -/
  | pre (port binding pos nib : Nat)
  /-- bytes of a fetched piece of an engine's command, from a position in the piece on -/
  | piece (cmd idx pos : Nat)
  deriving DecidableEq, Repr

/-- Operations of the anvil's queue (R216, R291). -/
inductive AOp where
  /-- format slot, clear, sparse, slots -/
  | mma (fs : DWord) (z sparse : Bool) (sg oa ob om : Nat) (k : Option Nat)
  | accz
  | accld (addr : DWord) (pitch : Nat) (k : Nat)
  | accst (addr : DWord) (pitch : Nat) (k : Nat)
  | accred (addr : DWord) (pitch : Nat) (i32 : Bool) (ord : Option (Nat × Nat)) (k : Nat)
  | accrd (d row rows : Nat) (mask : Mask) (sb : Nat)
  /-- `dsts`: where the lanes' values go, registers or elements already pushed on a port (R306) -/
  | slotrd (side : Bool) (o off : Nat) (dsts : List (Nat × RemDst)) (sb : Nat)
  deriving DecidableEq, Repr

/-- A queued or running anvil operation, in order of receipt. -/
structure AnvilOp where
  id : Nat
  core : Nat
  wg : Nat
  warp : WarpId
  tile : Nat
  op : AOp
  /-- slot reads it has to make (receipt numbers, R217) -/
  reads : List Nat
  started : Bool
  /-- a follow-on whose COPYM has not landed (R298) -/
  waitsCopy : Bool
  /-- MMA stopped by a pre-emption: granules of its k-steps already in the tile (R291) -/
  step : Nat
  /-- issued inside a remote region (R193) -/
  inRegion : Bool
  epc : DWord
  pid : Nat
  deriving DecidableEq, Repr

/-- The engines (R200–R223, R287–R300). -/
structure Engines where
  cmds : List Cmd
  anvil : List AnvilOp
  contribs : List Contrib
  nextId : Nat
  nextSeq : Nat
  deriving DecidableEq, Repr

/-- A remote operation issued and not finished (R193, R345, R346). -/
structure RemoteOp where
  tag : Nat
  /-- the operations of one instruction share this number -/
  group : Nat
  warp : WarpId
  wg : Nat
  /-- key of its launch, whose completion waits for its writes (R412) -/
  launch : Nat
  rank : Nat
  region : Nat
  off : Nat
  op : RemOp
  /-- at job scope; slot in the pod, or coordinate, with NENT -/
  job : Bool
  coord : Nat
  nent : Nat
  dst : RemDst
  /-- sr.fault, slot address and path of the instruction -/
  addr : DWord
  epc : DWord
  pid : Nat
  sb : Nat
  /-- sign-extension width of a loaded value in bits, 0 for none -/
  sx : Nat
  /-- access: 0 load, 1 store, 2 atomic, 3 engine, 4 stream input, 5 query, 6 PREF -/
  kind : Nat
  inRegion : Bool
  /-- caches that may keep a tagged answer: 0 none, 1 the remote-data cache, 2 also the L1 (R257, R258, R261) -/
  fills : Nat
  /-- held behind an earlier access of the path to the same line (R345) -/
  held : Bool
  /-- bytes that the count register k falls by, 0 for none -/
  k : Nat
  drop : Nat
  /-- lines of a message at job scope: target offset and masked bytes (R376) -/
  lines : List (Nat × List (Option Byte))
  /-- the path that the message it belongs to has taken (R391) -/
  via : Option (Option Nat)
  /-- answered, and the fault kind of R277 of a failure -/
  answered : Option (Option Nat)
  /-- packets of a message that the target has refused at frozen bytes, and how many its completion, once here, says it refused (R189, R377) -/
  refused : List Nat
  complete : Option Nat
  deriving DecidableEq, Repr

/-- A flit sent and not acknowledged (R387, R388): the plane it was first dealt to, its sends, the time of the last. -/
structure Unacked where
  flit : Flit
  plane : Nat
  sends : Nat
  at_ : Nat
  deriving DecidableEq, Repr

/-- A peer's pod link state (R384–R390). -/
structure Peer where
  slot : Nat
  nextSeq : Nat
  expected : Nat
  early : List Flit
  unacked : List Unacked
  waiting : List Txn
  /-- device time of the oldest receipt not yet acknowledged by a flit, and since when a gap in SEQ has stood (R387) -/
  ackDue : Option Nat
  gapSince : Option Nat
  /-- planes dark for this pair -/
  dark : List Nat
  /-- the peers its last link summary lists -/
  summary : List Nat
  deriving DecidableEq, Repr

/-- A job packet sent and not accepted (R376, R378), with its sends. -/
structure SentPacket where
  pkt : JobPacket
  dest : Nat
  nent : Nat
  sends : Nat
  /-- device time of the last sending, and the port it left on (R395) -/
  at_ : Nat
  port : Nat
  accepted : Bool
  deriving DecidableEq, Repr

/-- A request that waits at this device for an ownership transfer (R365): from a pod slot, or a job packet accepted. -/
inductive Inbound where
  | pod (slot : Nat) (r : RemReq)
  | job (p : JobPacket)
  deriving DecidableEq, Repr

/-- A landing counter (R377, R397): initiator, tag, generation, marked indices, the kept atomic results; freed once its completion
is sent, and known until its deadline. -/
structure Landing where
  init : Nat
  tag : Nat
  gen : Nat
  marked : List Nat
  /-- packets refused at frozen bytes -/
  refused : Nat
  kept : List (Nat × RemResp)
  deadline : Nat
  freed : Bool
  deriving DecidableEq, Repr

/-- What the device has put on a wire or sent to the host, oldest first. -/
inductive OutMsg where
  /-- to a slot, on a plane and the wavelength of the pair (R383) -/
  | flit (slot plane wave : Nat) (f : Flit)
  | packet (port : Nat) (p : JobPacket) (dest : Nat)
  | accept (dest tag gen idx : Nat)
  | response (dest : Nat) (r : RemResp)
  | completion (dest tag gen refused : Nat)
  | retire (dest entry gen sc : Nat)
  | retired (dest entry : Nat)
  | msix (vector : Nat)
  | spdm (bytes : List Byte)
  | hostData (bytes : List Byte)
  deriving DecidableEq, Repr

/-- The fabric of the device (R373–R401). -/
structure Fabric where
  ops : List RemoteOp
  peers : List Peer
  /-- planes dark for all peers (R389); planes whose dark state is mended and may be re-enabled -/
  dark : BitVec 16
  /-- plane groups whose full replay buffer has been logged in this episode (R388) -/
  overflow : List Nat
  relayPtr : Nat
  /-- tag generations (R397), rotation pointers per destination pod (R376) -/
  gens : List (Nat × Nat)
  nextTag : Nat
  rotors : List (Nat × Nat)
  sent : List SentPacket
  landings : List Landing
  /-- requests waiting here for an ownership transfer, oldest first -/
  held : List Inbound
  /-- congestion drops of the last millisecond: destination and device time (R395) -/
  drops : List (Nat × Nat)
  /-- device time of the last link summaries (R390), and of the last synchronisation (R398) -/
  summaryAt : Nat
  syncAt : Nat
  /-- live Ethernet ports (R395) -/
  ports : List Nat
  deriving DecidableEq, Repr

/-- A forwarded service waiting for the host (R369). -/
structure Service where
  seq : Nat
  wg : Nat
  /-- device time at which it was forwarded -/
  since : Nat
  deriving DecidableEq, Repr

/-- A host access to device memory that waits for an ownership transfer (R365): tier and offset, the bytes of a write, the bytes read, and
whether the command ring's host copy waits for it. -/
structure HostAccess where
  tier : Nat
  off : Nat
  data : Option (List Byte)
  n : Nat
  copy : Bool
  deriving DecidableEq, Repr

/-- The host's side of the device (R360–R370). -/
structure HostIf where
  services : List Service
  nextService : Nat
  /-- commands completed in ring order -/
  nextCmd : Nat
  /-- accesses that wait for an ownership transfer, oldest first -/
  waiting : List HostAccess
  linkUp : Bool
  deriving DecidableEq, Repr

/-- The register block of a partition (R421). -/
structure Part where
  enable : Bool
  busy : Bool
  disable : BitVec 7
  frzMax : Nat
  qos : Nat
  ptroot : DWord
  asid : Nat
  cores : BitVec 192
  privBase : DWord
  privStride : DWord
  ctxBase : DWord
  tlimit : DWord
  preemptBusy : Bool
  intMask : BitVec 4
  intStat : BitVec 4
  logRing : DWord
  logHead : DWord
  logTail : DWord
  deriving DecidableEq, Repr

/-- A queue register (R423). -/
structure QReg where
  depth : Nat
  prio : Nat
  part : Nat
  isOpen : Bool
  full : Bool
  deriving DecidableEq, Repr

/-- A region table entry (R252, R420). -/
structure RegionReg where
  base : DWord
  len : Nat
  part : Nat
  valid : Bool
  deriving DecidableEq, Repr

/-- The management registers (R420). -/
structure Mgmt where
  ready : Bool
  recovery : Bool
  timeHeld : Bool
  err : Bool
  cntCtl : DWord
  svcRing : DWord
  cmdRing : DWord
  rtBase : DWord
  nRank : Nat
  selfRank : Nat
  rtBusy : Bool
  /-- RTINV as written: [16:0] rank and [31] (R420) -/
  rtInv : DWord
  planeEn : BitVec 16
  quiesce : Bool
  pcap : Nat
  bbPage : Nat
  retxt : Nat
  svcto : Nat
  regMask : BitVec 16
  fencedCore : BitVec 192
  fencedChan : BitVec 320
  fencedPlane : BitVec 16
  fencedPort : BitVec 8
  fencedAnvil : BitVec 192
  fencedBellows : BitVec 192
  fencedL2 : BitVec 256
  fencedRdc : BitVec 128
  regions : Vector RegionReg 16
  parts : Vector Part 8
  queues : Vector QReg 256
  /-- this device's own P is cleared (R382) -/
  removed : Bool
  /-- log2 W (R347) -/
  logW : Nat
  /-- the arithmetic clock in MHz (R430) -/
  mhz : Nat
  /-- the fault index f of cause 0x170 + f for each fenced core (R427) -/
  fenceKind : List (Nat × Nat)
  /-- device time since which a warm reset waits for retirements (R428) -/
  warm : Option Nat
  /-- the planes that locked at bring-up, and whether IEEE 1588 did (R420, R431) -/
  bootPlanes : BitVec 16
  bootHeld : Bool
  /-- the images of the last bring-up (R371), which the measurements cover (R372) -/
  images : List BootImage
  /-- the debug comparators of causes 0x018–0x01F, four of slot addresses and four of data addresses (R277, R432) -/
  comparators : Vector (Option DWord) 8
  /-- as the board controller reads them (R432): die temperatures, in the device's own numbering and unit, and the drawn power -/
  temps : List Nat
  power : Nat
  deriving DecidableEq, Repr

/-- A black-box event (R426). -/
structure BbEvent where
  time : Nat
  cause : Nat
  kind : Nat
  part : Nat
  core : Nat
  slot : Nat
  epc : DWord
  addr : DWord
  deriving DecidableEq, Repr

/-- Records kept and messages sent. -/
structure Logs where
  /-- the last 4,096 events of the black box, newest first, and BBHEAD -/
  events : List BbEvent
  bbHead : Nat
  out : List OutMsg
  /-- channel counters (R332): channel, counter 0–8 (bytes 8–63 in order) -/
  counters : List (Nat × Nat × Nat)
  /-- number of the next snapshot, and device time of the last -/
  snapshot : Nat
  snapshotAt : Nat
  deriving DecidableEq, Repr

/-- The choice a quadrant has made and whose instruction moves next (R241): the ready warps passed over, whether a wait count had reached
240, and whether the cycle has been counted. -/
structure Turn where
  others : List WarpId
  aged : Bool
  counted : Bool
  deriving DecidableEq, Repr

/-- The whole machine. -/
@[ext]
structure State where
  cur : Warp
  wg : Wgroup
  warps : List Warp
  wgs : List Wgroup
  sched : Sched
  mem : MemSys
  eng : Engines
  fab : Fabric
  host : HostIf
  mgmt : Mgmt
  logs : Logs
  /-- arithmetic-clock cycles since reset (R161) -/
  clk : Nat
  /-- device time in ns (R161, R398) -/
  time : Nat
  /-- the model's own: what moves next (log 1) -/
  agenda : List Instr
  /-- the model's own: counter of free values (log 4) -/
  freeCtr : Nat
  /-- the model's own: the choice whose instruction moves next, and the quadrant (core and number) whose cycle comes next -/
  turn : Option Turn
  due : Option (Nat × Nat)
  deriving DecidableEq, Repr

/-- Why a step stops. Raised only where the spec gives no effect. -/
inductive Fault where
  /-- raised by CXL_MEM_ACCESS: the address lies beyond the HDM decoder's range (R361), for which the spec gives no
  effect; safe: the machine stops where the hardware would go on. -/
  | hdmRange
  deriving DecidableEq, Repr

/-- Why a step is refused. -/
inductive Refusal where
  /-- raised by an arm of `exec` that has no meaning yet; safe. -/
  | notModelled (mnemonic : String)
  deriving DecidableEq, Repr

/-- A path at slot 0 with no lane. -/
def Path.blank : Path :=
  { isRec := false, pc := 0, rpc := 0x7FFFFFFFFFFFFFFF#64, mask := 0, creation := 0, line := none, arr := none,
    refilled := false, storedRec := false, pid := 0 }

/-- A warp slot that holds no warp, its registers at the values of R39 (log 10). -/
def Warp.blank : Warp :=
  { id := ⟨0, 0⟩, wg := 0, index := 0, status := .free,
    v := Vector.replicate 240 (Vector.replicate 128 0), s := Vector.replicate 128 0,
    p := Vector.replicate 31 0, k := Vector.replicate 16 0, exited := 0, base := Path.blank, stack := [],
    spilled := 0, issuing := 0, nextPid := 1, trapMode := false, cause := 0, epc := 0, fault := 0,
    pendFaults := [], sb := Vector.replicate 7 0, pend := [], ports := Vector.replicate 8 none, region := none,
    barRec := Vector.replicate 16 none, bargRec := Vector.replicate 8 none, hold := .none,
    fence := none, waitCount := 0, altCount := 0, second := false, gives := false, last := .other, arena := 0 }

/-- Kernel limits of no kernel. -/
def Kernel.blank : Kernel :=
  { entry := 0, handler := 0, vregs := 0, sregs := 0, scratch := 0, oslots := 0, atiles := 0, ports := 0,
    dspill := 0, priv := 0 }

/-- A barrier at phase 0 with no arrivals (R237). -/
def Barrier.blank : Barrier := { phase := 0, count := 0, n := none }

/-- A workgroup that is not there. -/
def Wgroup.blank : Wgroup :=
  { key := 0, launch := 0, part := 0, core := 0, prio := 0, linear := 0, x := 0, y := 0, z := 0, wgsize := 0,
    gangSize := 1, kern := Kernel.blank, check := false, idem := false, fs := Vector.replicate 8 0, phase := 0,
    spad := [], full := [], slots := [], claimed := [], order := [], tiles := [], live := [],
    bars := Vector.replicate 16 Barrier.blank, sys := [], idend := false, bad := [], copygs := 0, spadBase := 0, slotBase := 0,
    tileBase := 0, status := .ended, ctx := none, endCause := 0, endId := 0,
    released := false }

/-- A partition block after cold reset: every field 0 (R421). -/
def Part.blank : Part :=
  { enable := false, busy := false, disable := 0, frzMax := 0, qos := 0, ptroot := 0, asid := 0, cores := 0,
    privBase := 0, privStride := 0, ctxBase := 0, tlimit := 0, preemptBusy := false, intMask := 0, intStat := 0,
    logRing := 0, logHead := 0, logTail := 0 }

/-- A queue register after cold reset: 0, but d is 4 (R423). -/
def QReg.blank : QReg := { depth := 4, prio := 0, part := 0, isOpen := false, full := false }

/-- A free frozen-table entry of generation 0 (R335). -/
def FrzEntry.blank : FrzEntry :=
  { state := .free, gen := 0, sc := 0, part := 0, job := 0, ranges := [], owner := none, acks := [], since := 0,
    overdue := false }

/-- The management registers after cold reset (R420, R421, R423), bring-up complete with every plane locked (log 7). -/
def Mgmt.reset : Mgmt :=
  { ready := true, recovery := false, timeHeld := true, err := false, cntCtl := 0, svcRing := 0, cmdRing := 0,
    rtBase := 0, nRank := 0, selfRank := 0, rtBusy := false, rtInv := 0, planeEn := 0xFFFF, quiesce := false, pcap := 3600,
    bbPage := 0, retxt := 5000, svcto := 1000, regMask := 0, fencedCore := 0, fencedChan := 0, fencedPlane := 0,
    fencedPort := 0, fencedAnvil := 0, fencedBellows := 0, fencedL2 := 0, fencedRdc := 0,
    regions := Vector.replicate 16 { base := 0, len := 0, part := 0, valid := false },
    parts := Vector.replicate 8 Part.blank, queues := Vector.replicate 256 QReg.blank, removed := false,
    logW := 13, mhz := 2500, fenceKind := [], warm := none, bootPlanes := 0xFFFF, bootHeld := true,
    images := [], comparators := Vector.replicate 8 none, temps := [], power := 0 }

/-- No scheduling state. -/
def Sched.reset : Sched :=
  { queues := [], pool := [], launches := [], gangs := [], nextLaunch := 1, nextWg := 1, rotor := 0, pointers := [],
    reserve := [], saved := [], preempts := [], ctl := [] }

/-- The memory system after cold reset: nothing listed, nothing cached, every frozen entry free (R335). -/
def MemSys.reset : MemSys :=
  { mem := [], home := [], copies := [], poison := [], tlb := [], frz := Vector.replicate 64 FrzEntry.blank,
    own := [], ranks := [], hostLines := [], watch := [], retired := [], view := none }

/-- No engine work. -/
def Engines.reset : Engines :=
  { cmds := [], anvil := [], contribs := [], nextId := 1, nextSeq := 1 }

/-- The fabric with nothing under way, every port live. -/
def Fabric.reset : Fabric :=
  { ops := [], peers := [], dark := 0, overflow := [], relayPtr := 0, gens := [], nextTag := 0, rotors := [],
    sent := [], landings := [], held := [], drops := [], summaryAt := 0, syncAt := 0, ports := List.range 8 }

/-- The machine right after reset and bring-up (R420–R423, R431): no warp resident. -/
def State.reset : State :=
  { cur := Warp.blank, wg := Wgroup.blank, warps := [], wgs := [], sched := Sched.reset, mem := MemSys.reset,
    eng := Engines.reset, fab := Fabric.reset,
    host := { services := [], nextService := 0, nextCmd := 0, waiting := [], linkUp := true }, mgmt := Mgmt.reset,
    logs := { events := [], bbHead := 0, out := [], counters := [], snapshot := 0, snapshotAt := 0 }, clk := 0, time := 0,
    agenda := [], freeCtr := 0, turn := none, due := none }

end Sys2Proof.Machine
end

