-- ==== Sys2Proof/Machine/Store.lean ====
section
/-! DEFINITION. Sparse stores in canonical form (strictly rising keys, no zero entry) and byte order (R4). -/
namespace Sys2Proof.Machine

/-- The value at a key; an unlisted key reads 0. -/
def Store.get {w : Nat} : Store w → Nat → BitVec w
  | [], _ => 0
  | (k, x) :: r, a => if k = a then x else if a < k then 0 else Store.get r a

/-- Put a value at a key, keeping the canonical form: a zero removes the entry. -/
def Store.set {w : Nat} : Store w → Nat → BitVec w → Store w
  | [], a, x => if x = 0 then [] else [(a, x)]
  | (k, y) :: r, a, x =>
    if a < k then (if x = 0 then (k, y) :: r else (a, x) :: (k, y) :: r)
    else if a = k then (if x = 0 then r else (k, x) :: r)
    else (k, y) :: Store.set r a x

/-- Every key of the store lies above `b`, keys rise strictly, and no entry is 0. -/
def Store.wfAbove {w : Nat} : Nat → Store w → Bool
  | _, [] => true
  | b, (k, x) :: r => decide (b ≤ k) && decide (x ≠ 0) && Store.wfAbove (k + 1) r

/-- The canonical form. -/
def Store.wf {w : Nat} (s : Store w) : Bool := Store.wfAbove 0 s

/-- The values of `n` consecutive keys. -/
def Store.getN {w : Nat} (s : Store w) (a : Nat) : Nat → List (BitVec w)
  | 0 => []
  | n + 1 => s.get a :: Store.getN s (a + 1) n

/-- Put values at consecutive keys. -/
def Store.setN {w : Nat} (s : Store w) (a : Nat) : List (BitVec w) → Store w
  | [] => s
  | x :: xs => Store.setN (s.set a x) (a + 1) xs

/-- The number of little-endian bytes (R4). -/
def leNat : List Byte → Nat
  | [] => 0
  | b :: bs => b.toNat + 256 * leNat bs

/-- The `n` little-endian bytes of a number (R4). -/
def leBytes : Nat → Nat → List Byte
  | 0, _ => []
  | n + 1, x => BitVec.ofNat 8 x :: leBytes n (x / 256)

/-- Field of `len` bytes at byte `off` of a record, little-endian. -/
def recField (r : List Byte) (off len : Nat) : Nat := leNat ((r.drop off).take len)

/-- The bits [hi:lo] of a number. -/
def bits (x hi lo : Nat) : Nat := x / 2 ^ lo % 2 ^ (hi + 1 - lo)

end Sys2Proof.Machine
end

