-- ==== Sys2Proof/Machine/Memory.lean ====
section
/-! DEFINITION. Addresses and memory: windows (R251, R252), locations (R324, R330), the page-table walk and its causes
(R264–R270, R434), the rank walk (R375), the checks of R169 in their order, and accesses at the home (R257–R263). -/
namespace Sys2Proof.Machine

/-! ## Windows -/

/-- The decoded window of a generic address (R251, R252). -/
inductive Win where
  | glob (va : Nat)
  | priv (off : Nat)
  | spad (core off : Nat)
  | gang (member off : Nat)
  | cwin (off : Nat)
  | rank (r region off : Nat)
  | bad
  deriving DecidableEq, Repr

/-- Decode an address's window (R251, R252). -/
def window (a : DWord) : Win :=
  let n := a.toNat
  if n / 2 ^ 63 = 1 then .rank (bits n 62 46) (bits n 45 42) (bits n 41 0)
  else match bits n 62 56 with
    | 0x00 => .glob (bits n 55 0)
    | 0x7C => .priv (bits n 55 0)
    | 0x7D => .spad (bits n 55 48) (bits n 47 0)
    | 0x7E => .gang (bits n 55 52) (bits n 51 0)
    | 0x7F => .cwin (bits n 55 0)
    | _ => .bad

/-- The window belongs to the space that SP names (R168, R169): rank form counts as global. -/
def Win.inSpace (w : Win) : Space → Bool
  | .gen => true
  | .priv => match w with
    | .priv _ => true
    | _ => false
  | .spad => match w with
    | .spad _ _ => true
    | _ => false
  | .gsh => match w with
    | .gang _ _ => true
    | _ => false
  | .glob => match w with
    | .glob _ => true
    | .rank _ _ _ => true
    | _ => false
  | .cwin => match w with
    | .cwin _ => true
    | _ => false

/-! ## Locations -/

/-- First location of the LPDDR-6 tier in the model's numbering of locations. -/
abbrev lpBase : Nat := 2 ^ 39
/-- First location of the coherent window. -/
abbrev cwBase : Nat := 2 ^ 41

/-- The HBM4E location of a tier offset under a channel-hash select (R324): stack, channel, bank, row, column. -/
def hbmLoc (hsel pa : Nat) : Nat :=
  let u := pa % 2 ^ 30
  let f := fun hi lo => bits u hi lo
  let (col, ch, st, bank, row) := match hsel with
    | 0 => (f 9 0, f 26 22, f 29 27, f 21 17, f 16 10)
    | 1 => (f 9 0, f 14 10, f 17 15, f 22 18, f 29 23)
    | 2 => (f 9 0, f 14 10, f 17 15, Nat.xor (f 22 18) (f 27 23), f 29 23)
    | 3 => (f 9 0, f 16 12, f 19 17, f 11 10 + 4 * f 22 20, f 29 23)
    | 4 => (f 9 0, Nat.xor (f 14 10) (f 22 18), f 17 15, f 22 18, f 29 23)
    | 5 => (f 9 0, f 14 10, f 29 27, f 19 15, f 26 20)
    | 6 => (f 9 0, f 14 10, f 29 27, Nat.xor (f 19 15) (f 26 22), f 26 20)
    | _ => (f 7 0 + 256 * f 17 16, f 12 8, f 15 13, f 22 18, f 29 23)
  (((st * 32 + ch) * 32 + bank) * 65536 + (bits pa 38 30 * 128 + row)) * 1024 + col

/-- The LPDDR-6 location of a tier offset (R330): channel, then the channel's linear offset. -/
def lpLoc (h pa : Nat) : Nat :=
  let g := 2 ^ (10 + h)
  lpBase + (pa / g % 32) * 2 ^ 35 + (pa / (g * 32)) * g + pa % g

/-- The location of a tier offset; the tiers differ in nothing else an access can see (R331). -/
def tierLoc (tier hsel pa : Nat) : Nat := if tier = 0 then hbmLoc hsel pa else lpLoc hsel pa

/-- The home hearth of a location (R325, R330). -/
def homeHearth (loc : Nat) : Nat := if loc < lpBase then loc / 2 ^ 37 else (loc - lpBase) / 2 ^ 38

/-- The home slice of a location, 64 × its home hearth and the slice there (R325, R330). -/
def sliceOf (loc : Nat) : Nat :=
  if loc < lpBase then 64 * (loc / 2 ^ 37) + loc / 2 ^ 31 % 64
  else
    let ch := (loc - lpBase) / 2 ^ 35
    64 * (ch / 8) + 8 * (ch % 8) + (loc - lpBase) % 2 ^ 35 / 64 % 8

/-- The hearth of a core (R46). -/
def hearthOf (core : Nat) : Nat := core / 48

/-- The first n elements that satisfy p, and every element that does not: a store of n entries, newest first. -/
def limitTo {α : Type} (n : Nat) (p : α → Bool) (l : List α) : List α :=
  if l.length ≤ n then l
  else (l.foldl (fun (acc : Nat × List α) x => if p x then (if acc.1 < n then (acc.1 + 1, x :: acc.2) else acc)
    else (acc.1, x :: acc.2)) (0, [])).2.reverse

/-- The memory channel of a location, numbered as in R332. -/
def channelOf (loc : Nat) : Nat := if loc < lpBase then loc / 2 ^ 31 else 256 + (loc - lpBase) / 2 ^ 35

/-- The location lies in a DRAM tier (not the coherent window). -/
def isDram (loc : Nat) : Bool := decide (loc < cwBase)

/-- The source s of a memory-error cause for a location (R278). -/
def errSource (loc : Nat) : Nat := if loc < lpBase then 0 else if loc < cwBase then 1 else 3

/-! ## The page-table walk -/

/-- A leaf of R265 with the log2 of its page size and the location of the entry. -/
structure Leaf where
  w : Nat
  size : Nat
  at_ : Nat
  deriving DecidableEq, Repr

/-- The OWN field of a leaf (R265). -/
def Leaf.own (l : Leaf) : Nat := bits l.w 7 6
/-- RMODE. -/
def Leaf.rmode (l : Leaf) : Nat := bits l.w 48 48
/-- TIER. -/
def Leaf.tier (l : Leaf) : Nat := bits l.w 11 11
/-- The location that a virtual address of the page reaches. -/
def Leaf.loc (l : Leaf) (va : Nat) : Nat :=
  tierLoc l.tier (bits l.w 10 8) (bits l.w 47 12 * 4096 + va % 2 ^ l.size)

/-- Eight bytes at a location, little-endian (one walker read). -/
def MemSys.dword (m : MemSys) (loc : Nat) : Nat := leNat (Store.getN m.mem loc 8)

/-- The poison source of a location's line, if the line is poisoned (R278). -/
def MemSys.poisonOf (m : MemSys) (loc : Nat) : Option Nat :=
  (m.poison.find? (fun p => p.1 == loc / 64)).map (·.2)

/-- Capacity of a tier in bytes (R3). -/
def tierCap (tier : Nat) : Nat := if tier = 0 then 2 ^ 39 else 2 ^ 40

/-- A leaf's fields are legal at a level (R265, R267 kind 4): `size` is the log2 of the page. -/
def leafOk (w size : Nat) : Bool :=
  decide (w / 2 ^ 49 = 0) && decide (bits w 47 12 * 4096 % 2 ^ size = 0) &&
  decide (bits w 47 12 * 4096 + 2 ^ size ≤ tierCap (bits w 11 11)) && decide (bits w 7 6 ≠ 3) &&
  (decide (bits w 7 6 = 0) || decide (size = 21)) && (decide (bits w 5 5 = 0) || decide (size = 16))

/-- The walk of R264–R266 from a table at HBM4E offset `tab`, over the remaining levels' shifts; the error is the fault
kind of R267. -/
def walkFrom (m : MemSys) (va : Nat) : List Nat → Nat → Except Nat Leaf
  | [], _ => .error 4
  | sh :: rest, tab =>
    let idx := va / 2 ^ sh % (if sh = 48 then 256 else 512)
    let at_ := hbmLoc 0 (tab + 8 * idx)
    if (m.poisonOf at_).isSome then .error 5 else
    let e := m.dword at_
    if e % 2 = 0 then .error 0 else
    if bits e 1 1 = 0 then
      -- non-leaf: V, LF = 0 and PA only
      if e / 2 ^ 48 ≠ 0 ∨ bits e 11 5 ≠ 0 ∨ rest = [] ∨ tierCap 0 ≤ bits e 47 12 * 4096 then .error 4
      else walkFrom m va rest (bits e 47 12 * 4096)
    else if sh = 48 ∨ sh = 39 then .error 4
    else if sh = 12 ∧ bits e 5 5 = 1 then
      -- R266: a 64 KiB page takes the entry at the first index of its group of 16
      let at0 := hbmLoc 0 (tab + 8 * (idx / 16 * 16))
      if (m.poisonOf at0).isSome then .error 5 else
      let e0 := m.dword at0
      if e0 % 2 = 0 then .error 0
      else if bits e0 1 1 = 0 ∨ bits e0 5 5 = 0 ∨ !leafOk e0 16 then .error 4
      else .ok { w := e0, size := 16, at_ := at0 }
    else if leafOk e sh then .ok { w := e, size := sh, at_ := at_ } else .error 4

/-- The partition's register block; partitions are 0–7. -/
def State.part (s : State) (p : Nat) : Part := s.mgmt.parts.getD p Part.blank

/-- The whole walk for a partition (R264, R267 kinds 0, 4, 5, 7). -/
def walk (s : State) (part va : Nat) : Except Nat Leaf :=
  let r := (s.part part).ptroot.toNat
  if r % 2 = 0 then .error 7
  else walkFrom s.mem va [48, 39, 30, 21, 12] (bits r 47 12 * 4096)

/-- The locations of the table entries that a walk reads, up to the first on a poisoned line (R264–R266). -/
def tableLocs (m : MemSys) (va : Nat) : List Nat → Nat → List Nat
  | [], _ => []
  | sh :: rest, tab =>
    let idx := va / 2 ^ sh % (if sh = 48 then 256 else 512)
    let at_ := hbmLoc 0 (tab + 8 * idx)
    let e := m.dword at_
    if (m.poisonOf at_).isSome ∨ e % 2 = 0 then [at_]
    else if bits e 1 1 = 0 then at_ :: tableLocs m va rest (bits e 47 12 * 4096)
    else if sh = 12 ∧ bits e 5 5 = 1 then [at_, hbmLoc 0 (tab + 8 * (idx / 16 * 16))]
    else [at_]

/-- The source of the error that a walk of an address meets in a table line (R267, R278). -/
def walkPoison (s : State) (part va : Nat) : Option Nat :=
  (tableLocs s.mem va [48, 39, 30, 21, 12] (bits (s.part part).ptroot.toNat 47 12 * 4096)).findSome? s.mem.poisonOf

/-- The TLB entry's address space and page hold the address, and a core's accesses see it: its own TLB and its hearth's (R268). -/
def TlbEntry.serves (e : TlbEntry) (core asid va : Nat) : Bool :=
  e.asid == asid && e.va == va / 2 ^ e.size &&
    (match e.core with
     | some c => c == core
     | none => e.hearth == hearthOf core)

/-- The translation of an address that the engine instruction in view has used before (R270, R331). -/
def MemSys.pinnedPage (m : MemSys) (asid va : Nat) : Option TlbEntry :=
  m.view.bind (fun v => v.pages.find? (fun e => e.asid == asid && e.va == va / 2 ^ e.size))

/-- The entry of a rank that the engine instruction in view has used before (R381). -/
def MemSys.pinnedRank (m : MemSys) (r : Nat) : Option Nat :=
  m.view.bind (fun v => (v.ranks.find? (fun p => p.1 == r)).map (fun p => p.2.toNat))

/-- Translation through the TLB: an entry held may be used instead of a walk (R268, R270), one choice for each page of
one instruction (R269, R331). -/
def translate (s : State) (part va : Nat) : Except Nat Leaf :=
  let asid := (s.part part).asid
  match s.mem.pinnedPage asid va with
  | some e => .ok { w := e.leaf.toNat, size := e.size, at_ := e.at_ }
  | none => match s.mem.tlb.find? (fun e => e.serves s.cur.id.core asid va) with
    | some e =>
      if Config.freeBit s.freeCtr (2 ^ 60 + va / 2 ^ e.size) then .ok { w := e.leaf.toNat, size := e.size, at_ := e.at_ } else walk s part va
    | none => walk s part va

/-- The permissions an access needs (R267). -/
structure Perm where
  r : Bool
  w : Bool
  x : Bool
  deriving DecidableEq, Repr

/-- What one address of an access resolves to. -/
inductive Target where
  /-- a byte of device memory at a location, with its page's RMODE -/
  | loc (l rmode : Nat)
  /-- the eight bytes of a private access: four at each of two locations (R253) -/
  | split (l l2 rmode : Nat)
  /-- a byte of the scratchpad of the workgroup with that key -/
  | spad (wg off : Nat)
  /-- a byte on another device: rank, region, offset, and whether the scope is the job -/
  | remote (rank region off : Nat) (job : Bool)
  deriving DecidableEq, Repr

/-- The outcome of checking one address. -/
inductive Res where
  | ok (t : Target)
  | fault (cause : Nat)
  /-- waits for an ownership transfer of the region at this virtual address of the partition (R364, R365) -/
  | wait (part va : Nat)
  deriving DecidableEq, Repr

/-- The state of a host-shared region by its leaf's location (R363–R366). -/
def MemSys.ownOf (m : MemSys) (leafLoc : Nat) : Option OwnRegion := m.own.find? (fun o => o.leafLoc == leafLoc)

/-- Translation and page permission of one virtual address, with the causes of R267 for an access kind. -/
def translatePerm (s : State) (part kind : Nat) (pm : Perm) (va : Nat) : Res :=
  let c := fun f => Res.fault (0x080 + 8 * kind + f)
  match translate s part va with
  | .error f => c f
  | .ok l =>
    if pm.r && bits l.w 2 2 == 0 then c 1
    else if pm.w && bits l.w 3 3 == 0 then c 2
    else if pm.x && bits l.w 4 4 == 0 then c 3
    else
      let loc := l.loc va
      if s.mgmt.fencedChan.getLsbD (channelOf loc) then c 6
      else match s.mem.ownOf l.at_ with
        | some o =>
          if o.stuck then .fault 0x16B
          else if o.target.isSome then .wait part va
          else if l.own = 1 then .wait part va
          else .ok (.loc loc l.rmode)
        | none => if l.own = 1 then .wait part va else .ok (.loc loc l.rmode)

/-- The address translates, and its page is not host-shared (OWN 0: R363). -/
def unshared (s : State) (part va : Nat) : Bool :=
  match translate s part va with
  | .ok l => l.own == 0
  | .error _ => false

/-- The issuing path: the base path while the stack is empty, otherwise the stack entry at `issuing`. -/
def Warp.path (w : Warp) : Path :=
  match w.stack with
  | [] => w.base
  | a :: r => (a :: r).getD w.issuing a

/-- A region whose transfer starts (R364): 1 to the processor, 2 to the accelerator. -/
def OwnRegion.starting (leafLoc to_ now part asid va : Nat) : OwnRegion :=
  { leafLoc := leafLoc, target := some to_, tenure := 0, since := now, waiting := [], asked := false, due := [], stuck := false,
    part := part, asid := asid, va := va / 2 ^ 21 * 2 ^ 21 }

/-- An access from the non-owner starts a transfer of its region to the accelerator (R364). -/
def State.wantOwner (s : State) (part va : Nat) : State :=
  if 8 ≤ part then s else
  match walk s part va with
  | .error _ => s
  | .ok l =>
    if l.own ≠ 1 ∨ (s.mem.ownOf l.at_).isSome then s
    else { s with mem := { s.mem with own := s.mem.own ++ [OwnRegion.starting l.at_ 2 s.time part (s.part part).asid va] } }

/-- A waiting access is noted at its region: it is performed before the tenure that follows ends (R365). -/
def State.noteWaiter (s : State) (part va : Nat) (w : Waiter) : State :=
  if 8 ≤ part then s else
  match walk s part va with
  | .error _ => s
  | .ok l => { s with mem := { s.mem with own := s.mem.own.map (fun (o : OwnRegion) =>
      if o.leafLoc = l.at_ ∧ !o.due.contains w then { o with due := o.due ++ [w] } else o) } }

/-- Waiting accesses for which `p` holds have been performed, or wait no more. -/
def State.served (s : State) (p : Waiter → Bool) : State :=
  if s.mem.own.all (fun o => !o.due.any p) then s
  else { s with mem := { s.mem with own := s.mem.own.map (fun (o : OwnRegion) => { o with due := o.due.filter (fun w => !p w) }) } }

/-- An access of the focused warp's issuing path waits at a region (R364, R365). -/
def State.pathWaits (s : State) (part va : Nat) : State :=
  (s.wantOwner part va).noteWaiter part va (.path s.cur.id s.cur.wg s.cur.path.pid s.cur.path.pc)

/-- An access of engine work waits at a region (R364, R365). -/
def State.cmdWaits (s : State) (id part va : Nat) : State := (s.wantOwner part va).noteWaiter part va (.cmd id)

/-! ## The rank walk -/

/-- Where a rank resolves to (R375), or the cause with the access kind of R171. -/
inductive RankRes where
  | self
  | pod (slot : Nat)
  | job (coord nent : Nat)
  | fault (cause : Nat)
  deriving DecidableEq, Repr

/-- The level-2 entry of a rank by the walk of R375; `none` where the walk faults with kind 6. -/
def rankEntry (s : State) (r : Nat) : Option Nat :=
  let e1 := s.mem.dword (hbmLoc 0 ((s.mgmt.rtBase.toNat + 8 * (r / 256)) % 2 ^ 39))
  if e1 % 2 = 0 ∨ e1 / 2 ^ 48 ≠ 0 ∨ bits e1 10 1 ≠ 0 ∨ 2 ^ 39 ≤ bits e1 47 11 * 2048 then none else
  let e2 := s.mem.dword (hbmLoc 0 (bits e1 47 11 * 2048 + 8 * (r % 256)))
  if e2 % 2 = 0 ∨ e2 / 2 ^ 23 ≠ 0 ∨ 143 < bits e2 19 12 then none else some e2

/-- The entry an access uses: the cached one or the one in memory, while they differ (R381). -/
def rankEntryUsed (s : State) (r : Nat) : Option Nat :=
  match s.mem.pinnedRank r with
  | some e => some e
  | none => match s.mem.ranks.find? (fun p => p.1 == r) with
    | some p => if Config.freeBit s.freeCtr (2 ^ 40 + r) then some p.2.toNat else rankEntry s r
    | none => rankEntry s r

/-- The coordinate of a level-2 entry (R380). -/
def rankCoord (e : Nat) : Nat := 4608 * bits e 6 2 + 144 * bits e 11 7 + bits e 19 12

/-- The rank checks of R256 and R375, in the order of R169, for an access kind. -/
def rankWalk (s : State) (kind r region : Nat) : RankRes :=
  let c := fun f => RankRes.fault (0x0A0 + 8 * kind + f)
  let kept := (s.mem.pinnedRank r).isSome
  if !kept && decide (s.mgmt.nRank ≤ r) then c 6
  else if !kept && !(s.mgmt.regMask.getLsbD region) then c 7
  else match rankEntryUsed s r with
    | none => c 6
    | some e2 =>
      if bits e2 1 1 = 0 then .fault 0x124
      else if r = s.mgmt.selfRank then .self
      else
        let e := (rankEntryUsed s s.mgmt.selfRank).getD 0
        if bits e2 11 2 = bits e 11 2 then .pod (bits e2 19 12) else .job (rankCoord e2) (bits e2 22 20)

/-! ## Workgroups and scratchpads -/

/-- The workgroup with a key: the focused one or another. -/
def State.wgOf (s : State) (key : Nat) : Option Wgroup :=
  if s.wg.key = key then some s.wg else s.wgs.find? (fun g => g.key == key)

/-- Change the workgroup with a key. -/
def State.modWg (s : State) (key : Nat) (f : Wgroup → Wgroup) : State :=
  if s.wg.key = key then { s with wg := f s.wg }
  else { s with wgs := s.wgs.map (fun g => if g.key = key then f g else g) }

/-- A workgroup is on a core and neither ended nor cancelled nor saved. -/
def Wgroup.here (g : Wgroup) : Bool :=
  match g.status with
  | .resident | .stopping => true
  | _ => false

/-- Every workgroup the device holds, the focused one first. -/
def State.allWgs (s : State) : List Wgroup := s.wg :: s.wgs

/-- The resident workgroup at a position of the focused workgroup's gang (R233, R435). -/
def State.member (s : State) (pos : Nat) : Option Wgroup :=
  let base := s.wg.linear / s.wg.gangSize * s.wg.gangSize
  s.allWgs.find? (fun g => g.launch == s.wg.launch && g.linear == base + pos && g.here)

/-- The position of the focused workgroup in its gang (R233). -/
def State.gangpos (s : State) : Nat := s.wg.linear % s.wg.gangSize

/-! ## Checking one address -/

/-- What an access asks of an address. -/
structure Access where
  /-- access kind of R171 -/
  kind : Nat
  perm : Perm
  /-- space named, or `.gen` -/
  space : Space
  /-- bytes accessed -/
  size : Nat
  /-- required alignment -/
  align : Nat
  /-- scope of an atomic (R177) -/
  atomic : Option Nat
  /-- full/empty operation (R174) -/
  fe : Bool
  /-- an HFLUSH (R179) -/
  hflush : Bool
  /-- an engine access (R203): private and coherent-window addresses refused with kind 5 -/
  engine : Bool
  deriving DecidableEq, Repr

/-- The check of an atomic's scope against the location (R177): lowest accepted, pod and job rows included. -/
def atomicScopeOk (w : Win) (rr : RankRes) (sc : Nat) : Bool :=
  match w with
  | .spad _ _ => true
  | .gang _ _ => decide (1 ≤ sc)
  | .glob _ => decide (2 ≤ sc)
  | .cwin _ => decide (sc = 5)
  | .rank _ _ _ => (match rr with
    | .pod _ => decide (sc = 3 ∨ sc = 4)
    | .job _ _ => decide (sc = 4)
    | _ => decide (2 ≤ sc))
  | _ => false

/-- The arena address of a private offset of a lane (R253). -/
def arenaAddr (arena : DWord) (lane off : Nat) : Nat := (arena.toNat + 512 * (off / 4) + 4 * lane + off % 4) % 2 ^ 64

/-- The checks of R169 on one lane's address, in order, and its target. DESIGN CHOICE (log 87): a rank form under SP 1, 2, 3 or 5 takes kind 3, as
R256 has it; R169 and R171 give kind 0 where the space refuses rank form. -/
def resolve (s : State) (a : Access) (lane : Nat) (addr : DWord) : Res :=
  let c := fun f => Res.fault (0x0A0 + 8 * a.kind + f)
  let w := window addr
  let misaligned := decide (addr.toNat % a.align ≠ 0)
  -- 1, 2: the window, and the space named
  if w = .bad then c 0
  else if (match w with
    | .rank _ _ _ => (match a.space with
      | .gen | .glob => false
      | _ => true)
    | _ => false) then c 3
  else if !w.inSpace a.space then c 3
  else match w with
  | .bad => c 0
  | .glob va =>
    if !((a.atomic.map (atomicScopeOk w .self)).getD true) || a.fe then c 5
    else if misaligned then c 4
    else if va + a.size > 2 ^ 56 then .fault (0x080 + 8 * a.kind)
    else if a.hflush && unshared s s.wg.part va then c 5
    else translatePerm s s.wg.part a.kind a.perm va
  | .priv off =>
    if a.engine then c 5
    else if s.wg.kern.priv < off + a.size then c 2
    else if a.atomic.isSome || a.fe || a.hflush then c 5
    else if misaligned then c 4
    else match translatePerm s s.wg.part a.kind a.perm (arenaAddr s.cur.arena lane off) with
      | .ok (.loc l m) =>
        -- the second word of eight bytes lies in the block of the next private word
        if a.size = 8 then
          (match translatePerm s s.wg.part a.kind a.perm (arenaAddr s.cur.arena lane (off + 4)) with
           | .ok (.loc l2 _) => .ok (.split l l2 m)
           | r => r)
        else .ok (.loc l m)
      | r => r
  | .spad core off =>
    if core ≠ s.cur.id.core then c 1
    else if s.wg.kern.scratch < off + a.size then c 2
    else if a.hflush then c 5
    else if misaligned then c 4
    else .ok (.spad s.wg.key off)
  | .gang m off =>
    (match (if m < s.wg.gangSize then s.member m else none) with
     | none => c 2
     | some g =>
       if g.kern.scratch < off + a.size then c 2
       else if !((a.atomic.map (atomicScopeOk w .self)).getD true) || a.fe || a.hflush then c 5
       else if misaligned then c 4
       else .ok (.spad g.key off))
  | .cwin off =>
    if a.engine then c 5
    else if 2 ^ 22 < off + a.size then c 2
    else if !((a.atomic.map (atomicScopeOk w .self)).getD true) || a.fe then c 5
    else if misaligned then c 4
    else .ok (.loc (cwBase + off) 0)
  | .rank r region off =>
    (match rankWalk s a.kind r region with
     | .fault k => .fault k
     | .self =>
       let g := s.mgmt.regions.getD region { base := 0, len := 0, part := 0, valid := false }
       if !g.valid || g.len < off + a.size then c 2
       else if !((a.atomic.map (atomicScopeOk w .self)).getD true) || a.fe then c 5
       else if misaligned then c 4
       else if a.hflush && unshared s g.part (g.base.toNat + off) then c 5
       else translatePerm s g.part a.kind a.perm (g.base.toNat + off)
     | rr =>
       -- an operation already issued goes on (R400)
       let new := s.mem.view.isNone
       if new && ((s.part s.wg.part).disable).getLsbD 4 then .fault 0x00D
       else if new && s.mgmt.removed then .fault 0x127
       else if new && s.mgmt.quiesce then .fault 0x125
       else if !((a.atomic.map (atomicScopeOk w rr)).getD true) || a.fe || a.hflush then c 5
       else if misaligned then c 4
       else .ok (.remote r region off (match rr with
         | .job _ _ => true
         | _ => false)))

/-! ## Frozen regions -/

/-- The entry covers a location. -/
def FrzEntry.covers (e : FrzEntry) (loc : Nat) : Bool := e.ranges.any (fun r => decide (r.1 ≤ loc ∧ loc < r.1 + r.2))

/-- Installed or thawing: its bytes are frozen (R189). -/
def FrzEntry.active (e : FrzEntry) : Bool :=
  match e.state with
  | .installed | .thawing => true
  | _ => false

/-- A byte is frozen at its home (R189, R358). -/
def MemSys.frozen (m : MemSys) (loc : Nat) : Bool := m.frz.toList.any (fun e => e.active && e.covers loc)

/-- Some byte of a range is frozen. -/
def MemSys.frozenN (m : MemSys) (loc n : Nat) : Bool := (List.range n).any (fun i => m.frozen (loc + i))

/-- The tag a reply carries for a reader whose distance needs at least scope code `minSc` (R354). -/
def MemSys.tagFor (m : MemSys) (minSc loc : Nat) : Option FrzTag :=
  let cand := (List.range 64).filterMap (fun i =>
    let e := m.frz.getD i FrzEntry.blank
    if e.state = .installed ∧ e.covers loc ∧ minSc ≤ e.sc then some (i, e) else none)
  cand.foldl (fun best p => match best with
    | none => some { entry := p.1, gen := p.2.gen.toNat, sc := p.2.sc }
    | some b => if b.sc < p.2.sc then some { entry := p.1, gen := p.2.gen.toNat, sc := p.2.sc } else some b) none

/-! ## Accesses at the home -/

/-- Records parked on a counter that a write leaves at 0 become ready, behind those that are ready already (R409). -/
def wakeParked (m : Store 8) (loc n : Nat) (pool : List Parked) : List Parked :=
  let hit := fun (p : Parked) => !p.ready && decide (p.loc < loc + n ∧ loc < p.loc + 4) && leNat (Store.getN m p.loc 4) == 0
  if pool.any hit then
    pool.filter (fun p => p.ready) ++ (pool.filter hit).map (fun p => { p with ready := true }) ++
      pool.filter (fun p => !p.ready && !hit p)
  else pool

/-- The watches that a write of n bytes leaves standing (R159). -/
def keepWatches (loc n : Nat) (ws : List (WarpId × Nat)) : List (WarpId × Nat) :=
  ws.filter (fun w => !(decide (64 * w.2 < loc + n ∧ loc < 64 * w.2 + 64)))

/-- Write bytes at a location's point of coherence: the one primitive through which memory changes. Poison of a whole
line is cleared (R278); parked records may become ready (R409). -/
def State.writeLoc (s : State) (loc : Nat) (bs : List Byte) : State :=
  let m := Store.setN s.mem.mem loc bs
  { s with
    mem := { s.mem with
      mem := m
      watch := keepWatches loc bs.length s.mem.watch
      poison := if bs.length = 64 ∧ loc % 64 = 0 then s.mem.poison.filter (fun p => p.1 != loc / 64) else s.mem.poison }
    sched := { s.sched with pool := wakeParked m loc bs.length s.sched.pool } }

/-- Mark the line of a location poisoned, with the source of its cause (R278, e 1 and 5). -/
def State.poisonLine (s : State) (loc src : Nat) : State :=
  { s with mem := { s.mem with
    poison := (loc / 64, src) :: s.mem.poison.filter (fun p => p.1 != loc / 64) } }

/-- The bytes a read of a location at its point of coherence returns. -/
def State.readLoc (s : State) (loc n : Nat) : List Byte := Store.getN s.mem.mem loc n

/-- The home's record of a line. -/
def MemSys.homeLine (m : MemSys) (line : Nat) : HomeLine :=
  (m.home.find? (fun h => h.line == line)).getD { line := line, dram := none, budget := none, sharers := 0, pred := none }

/-- Replace the home's record of a line; a record that says nothing is dropped. A remote-data cache whose bit is clear holds no copy: the
invalidations of R260. -/
def MemSys.setHome (m : MemSys) (h : HomeLine) : MemSys :=
  let r := m.home.filter (fun x => x.line != h.line)
  { m with
    home := if h.dram.isNone && h.budget.isNone && h.sharers == 0 && h.pred.isNone then r else h :: r
    copies := m.copies.filter (fun c => !(c.core.isNone && c.key == .loc h.line && !h.sharers.getLsbD c.hearth)) }

/-! ### Prediction values and victims (R262). Of a cache's sets the spec gives no number: each slice, L1 and remote-data cache is taken as one
set (log 66), and `evictLine` lets any line leave at any access. -/

/-- The prediction value that an access leaves: inserted with HINT in mode 0 and with 0 in mode 1; a hit sets 0; bypass allocates nothing and
keeps the value (R262). -/
def predAfter (rmode hint : Nat) : Option Nat → Option Nat
  | some p => some (if hint = 7 then p else 0)
  | none => if hint = 7 then none else some (if rmode = 0 then hint else 0)

/-- By how much every value of a set rises before a victim is taken: 1 when no line holds 7 (R262). -/
def predRise (ps : List Nat) : Nat := if ps.any (fun p => decide (7 ≤ p)) then 0 else 1

/-- The victim of a set: of the entries with the largest prediction value, the oldest (R262). -/
def victim {α : Type} (pred : α → Nat) (l : List α) : Option α :=
  l.foldl (fun m x => match m with
    | none => some x
    | some y => if pred y ≤ pred x then some x else some y) none

/-- The copies after one of a cache has given way to another, and the key of the one that has. -/
def giveWay (mine : CacheLine → Bool) (cs : List CacheLine) : List CacheLine × Option LineKey :=
  let up := predRise ((cs.filter mine).map (fun x => x.pred))
  let cs := cs.map (fun x => if mine x then { x with pred := x.pred + up } else x)
  match victim (fun x => x.pred) (cs.filter mine) with
  | some v => (cs.filter (fun x => !(mine x && x.key == v.key)), some v.key)
  | none => (cs, none)

/-- Keep a copy, newest first: 4,096 lines of a core's L1 (256 KiB, R258), 1,048,576 of a hearth's remote-data cache (64 MiB, R260). A
remote-data cache that evicts a copy clears its bit at the home (R260). -/
def MemSys.addCopy (m : MemSys) (c : CacheLine) : MemSys :=
  let n := if c.core.isSome then 4096 else 1048576
  let mine := fun (x : CacheLine) => x.core == c.core && x.hearth == c.hearth
  if m.copies.length < n || (m.copies.filter mine).length < n then { m with copies := c :: m.copies }
  else
    let (cs, gone) := giveWay mine m.copies
    { m with
      copies := c :: cs
      home := if c.core.isSome then m.home else m.home.map (fun h =>
        if gone = some (.loc h.line) then { h with sharers := h.sharers &&& ~~~(1#4 <<< c.hearth) } else h) }

/-- Add to a channel counter (R332). -/
def State.countChannel (s : State) (ch i n : Nat) : State :=
  let old := ((s.logs.counters.find? (fun x => x.1 == ch && x.2.1 == i)).map (fun x => x.2.2)).getD 0
  let rest := s.logs.counters.filter (fun x => !(x.1 == ch && x.2.1 == i))
  { s with logs := { s.logs with counters := (ch, i, old + n) :: rest } }

/-- A 64-byte line is written to its channel (R332, bytes 40–47). -/
def State.countWritten (s : State) (line : Nat) : State := if line < cwBase / 64 then s.countChannel (channelOf (64 * line)) 4 1 else s

/-- Drop the line at its home without write-back: memory holds what the DRAM held (R263, R179). -/
def State.dropLine (s : State) (line : Nat) : State :=
  let h := s.mem.homeLine line
  let s := { s with mem := s.mem.setHome { h with dram := none, budget := none, sharers := 0, pred := none } }
  match h.dram with
  | some bs => s.writeLoc (64 * line) bs
  | none => s

/-- Write the line back: the DRAM holds the home's bytes. -/
def State.writeBack (s : State) (line : Nat) : State :=
  let h := s.mem.homeLine line
  if h.dram.isNone then s else ({ s with mem := s.mem.setHome { h with dram := none } }).countWritten line

/-- A line leaves its slice: with a budget it is dropped (R263), unless it is frozen and so keeps its value (R355, log 66); any other is written
back (R259). -/
def State.evictNow (s : State) (line : Nat) : State :=
  let h := s.mem.homeLine line
  if h.budget.isSome && !s.mem.frozen (64 * line) then s.dropLine line
  else
    let s := s.writeBack line
    { s with mem := s.mem.setHome { s.mem.homeLine line with budget := none, pred := none } }

/-- The home may evict a line at any moment (R259, R263). The coherent window is no DRAM, and nothing of it is evicted (R255). -/
def State.evictLine (s : State) (line salt : Nat) : State :=
  if line < cwBase / 64 ∧ (s.mem.homeLine line).pred.isSome ∧ Config.freeBit s.freeCtr (2 ^ 50 + salt) then s.evictNow line else s

/-- Room for a line that its slice takes in: a slice holds 32,768 lines (2 MiB, R259). -/
def State.roomHome (s : State) (line : Nat) : State :=
  let mine := fun (x : HomeLine) => x.pred.isSome && sliceOf (64 * x.line) == sliceOf (64 * line)
  if s.mem.home.length < 32768 || (s.mem.homeLine line).pred.isSome || (s.mem.home.filter mine).length < 32768 then s
  else
    let up := predRise ((s.mem.home.filter mine).map (fun x => x.pred.getD 0))
    let s := { s with mem := { s.mem with home := s.mem.home.map (fun (x : HomeLine) =>
      if mine x then { x with pred := x.pred.map (fun p => p + up) } else x) } }
    match victim (fun (x : HomeLine) => x.pred.getD 0) (s.mem.home.filter mine) with
    | some v => s.evictNow v.line
    | none => s

/-- The last read of a budget: the line is dropped without write-back, or kept without a budget where it is frozen (R263, R355, log 66). -/
def State.spendLast (s : State) (line : Nat) : State :=
  if s.mem.frozen (64 * line) then
    { s with mem := s.mem.setHome { s.mem.homeLine line with budget := none } }
  else s.dropLine line

/-- A remote-data cache holds a copy of a local line (R260). -/
def MemSys.inRdc (m : MemSys) (hearth line : Nat) : Bool :=
  m.copies.any (fun c => c.core.isNone && c.hearth == hearth && c.key == .loc line)

/-- A copy has been hit (R262). -/
def MemSys.hitCopy (m : MemSys) (core : Option Nat) (hearth : Nat) (key : LineKey) : MemSys :=
  { m with copies := m.copies.map (fun c => if c.core = core ∧ c.hearth = hearth ∧ c.key = key then { c with pred := 0 } else c) }

/-- Clear a hearth's sharer bit of a line: its remote-data cache has evicted its copy (R260). -/
def MemSys.unshare (m : MemSys) (hearth line : Nat) : MemSys :=
  let h := m.homeLine line
  m.setHome { h with sharers := h.sharers &&& ~~~(1#4 <<< hearth) }

/-- A remote-data cache may evict its copy of a line at any moment (R260). -/
def State.evictRdc (s : State) (hearth line : Nat) : State :=
  if s.mem.inRdc hearth line ∧ Config.freeBit s.freeCtr (2 ^ 42 + line) then { s with mem := s.mem.unshare hearth line } else s

/-- A read from another hearth than the home's fills its remote-data cache and sets its bit (R260); bypass fills nothing (R262). -/
def State.fillRdc (s : State) (hearth line rmode hint : Nat) (bs : List Byte) : State :=
  if hearth = homeHearth (64 * line) ∨ hint = 7 then s
  else
    let h := s.mem.homeLine line
    let m := s.mem.setHome { h with sharers := h.sharers ||| (1#4 <<< hearth) }
    if m.inRdc hearth line then { s with mem := m }
    else { s with mem := m.addCopy { core := none, hearth := hearth, key := .loc line, bytes := bs, tag := none,
                                     pred := if rmode = 0 then hint else 0 } }

/-- One read of a line performed at its home by a reader of a hearth (R263): its bytes, and the budgets spent. -/
def State.homeRead (s : State) (line rmode hint hearth : Nat) : List Byte × State :=
  if line ≥ cwBase / 64 then (s.readLoc (64 * line) 64, s) else
  let s := s.evictLine line (2 * line)
  let s := s.evictRdc hearth line
  let bs := s.readLoc (64 * line) 64
  -- a remote-data cache of another hearth serves the read, uncounted (R260, R263)
  if s.mem.inRdc hearth line then (bs, if hint = 7 then s else { s with mem := s.mem.hitCopy none hearth (.loc line) })
  else
    let s := if hint = 7 then s else s.roomHome line
    let h := s.mem.homeLine line
    let b := match h.budget with
      | some b => some b
      | none => if rmode = 1 ∧ 1 ≤ hint ∧ hint ≤ 6 then some hint else none
    let keep := fun (b : Option Nat) =>
      ({ s with mem := s.mem.setHome { h with budget := b, pred := predAfter rmode hint h.pred } }).fillRdc hearth line rmode hint bs
    match b with
    | none => (bs, keep none)
    | some 0 => (bs, s.spendLast line)
    | some 1 => (bs, s.spendLast line)
    | some (n + 1) => (bs, keep (some n))

/-- A cached copy in the L1 of a core. -/
def MemSys.l1 (m : MemSys) (core : Nat) (key : LineKey) : Option CacheLine :=
  m.copies.find? (fun c => c.core == some core && c.key == key)

/-- Drop a line from one core's L1, frozen or not: an eviction. -/
def MemSys.evictL1 (m : MemSys) (core : Nat) (key : LineKey) : MemSys :=
  { m with copies := m.copies.filter (fun c => !(c.core == some core && c.key == key)) }

/-- The line of a load as the issuing core obtains it (R173, R257, R258): from its L1 where a copy stands that the scope may use (any
copy at SC 0, a copy filled under a tag at every scope, R354) and is not evicted; otherwise from the home, with an L1
copy made at SC 0 unless the hint is bypass. -/
def State.loadLine (s : State) (core line rmode hint sc : Nat) : List Byte × State :=
  let fill := fun (s : State) =>
    let (bs, s) := s.homeRead line rmode hint (hearthOf core)
    if sc = 0 ∧ hint ≠ 7 ∧ line < cwBase / 64 then
      let tag := (s.mem.tagFor 2 (64 * line)).map (fun t => (s.mgmt.selfRank, t))
      (bs, { s with mem := s.mem.addCopy { core := some core, hearth := hearthOf core, key := .loc line, bytes := bs, tag := tag,
                                           pred := if rmode = 0 then hint else 0 } })
    else (bs, s)
  match s.mem.l1 core (.loc line) with
  | some c =>
    if sc = 0 ∨ c.tag.isSome then
      (if Config.freeBit s.freeCtr (2 ^ 43 + line) then
         (c.bytes, if hint = 7 then s else { s with mem := s.mem.hitCopy (some core) (hearthOf core) (.loc line) })
       else fill { s with mem := s.mem.evictL1 core (.loc line) })
    else s.homeRead line rmode hint (hearthOf core)
  | none => fill s

/-- Bytes `off …` of a 64-byte line replaced. -/
def patch (line : List Byte) (off : Nat) (bs : List Byte) : List Byte :=
  line.take off ++ bs ++ line.drop (off + bs.length)

/-- The host's dirty data of a line are performed at its point of coherence; poisoned data (no bytes) mark the line (R362, R366). -/
def State.takeHostLine (s : State) (loc : Nat) (bs : List Byte) : State :=
  if bs.length = 64 then s.writeLoc loc bs else s.poisonLine loc 4

/-- The home's snoop of a host-cached coherent-window line before a device write (R362): the host's dirty data merges. -/
def State.snoopHost (s : State) (loc : Nat) : State :=
  if loc < cwBase then s else
  match s.mem.hostLines.find? (fun p => p.1 == loc / 64) with
  | none => s
  | some p =>
    let s := { s with mem := { s.mem with hostLines := s.mem.hostLines.filter (fun q => q.1 != loc / 64) } }
    match p.2 with
    | some bs => s.takeHostLine (64 * (loc / 64)) bs
    | none => s

/-- A write of bytes within one line performed at the home, by a core or by none: dirties the line, sets or removes its
budget (R263: `hint` 0 for atomics and engines), updates the writing core's own L1 copy (R258). -/
def State.homeWrite (s : State) (core : Option Nat) (loc rmode hint : Nat) (bs : List Byte) : State :=
  let s := s.snoopHost loc
  let line := loc / 64
  let s := s.evictLine line (2 * loc + 1)
  let s := if hint = 7 ∨ cwBase ≤ loc then s else s.roomHome line
  let h := s.mem.homeLine line
  let h := if loc < cwBase then
      { h with
        -- a bypass store whose line is absent at the home is written to DRAM (R262)
        dram := if hint = 7 ∧ h.pred = none then none else some (h.dram.getD (s.readLoc (64 * line) 64))
        budget := if rmode = 1 ∧ 1 ≤ hint ∧ hint ≤ 6 then some hint else none
        sharers := 0
        pred := predAfter rmode hint h.pred }
    else h
  let s := { s with mem := s.mem.setHome h }
  let s := match core with
    | some c => { s with mem := { s.mem with copies := s.mem.copies.map (fun (x : CacheLine) =>
        -- a copy that holds an uncorrectable error stands without bytes
        if x.core = some c ∧ x.key = LineKey.loc line ∧ x.tag.isNone ∧ x.bytes ≠ [] then { x with bytes := patch x.bytes (loc % 64) bs } else x) } }
    | none => s
  s.writeLoc loc bs

/-- Change the record of what the host caches of the coherent window. -/
def State.modHostLines (s : State) (f : List (Nat × Option (List Byte)) → List (Nat × Option (List Byte))) : State :=
  { s with mem := { s.mem with hostLines := f s.mem.hostLines } }

/-- Drop the non-frozen L1 lines of a core (R178: an acquire at .gang or wider). -/
def State.acquireL1 (s : State) (core : Nat) : State :=
  { s with mem := { s.mem with copies := s.mem.copies.filter (fun c => c.core != some core || c.tag.isSome) } }

/-- The host's dirty lines of the coherent window are performed at the SRAM: what a device acquire at .host makes visible (R351). -/
def State.mergeHostLines (s : State) : State :=
  (s.mem.hostLines.foldl (fun (s : State) p => match p.2 with
    | some bs => s.takeHostLine (64 * p.1) bs
    | none => s) s).modHostLines (fun ls => ls.map (fun p => (p.1, none)))

/-- An acquire on a core at a scope code (R178, R258, R351). -/
def State.acquireOn (s : State) (core sc : Nat) : State :=
  let s := if 1 ≤ sc then s.acquireL1 core else s
  if sc = 5 ∧ s.mem.hostLines ≠ [] then s.mergeHostLines else s

/-- Drop one line from one core's L1, unless the copy is frozen (R179, R349). -/
def State.dropL1 (s : State) (core : Nat) (line : Nat) : State :=
  { s with mem := { s.mem with copies := s.mem.copies.filter (fun c =>
      !(c.core == some core && c.key == .loc line && c.tag.isNone)) } }

/-- Drop every copy of a line from every cache of the device, unless frozen (R179, R212). -/
def State.dropCopies (s : State) (line : Nat) : State :=
  { s with mem := { s.mem with copies := s.mem.copies.filter (fun c => !(c.key == .loc line && c.tag.isNone)) } }

end Sys2Proof.Machine
end

