-- ==== Sys2Proof/Machine/Context.lean ====
section
/-! DEFINITION. The bytes of a saved context in the area at CTXBASE (R416, R421, R434). The spec gives the area's place and size and what it
holds; the order of the parts in it is the model's own (log 43). -/
namespace Sys2Proof.Machine

/-- Eight bytes of a number. -/
def le8 (n : Nat) : List Byte := leBytes 8 n

/-- A list with its length before it. -/
def leList (xs : List Nat) : List Byte := le8 xs.length ++ xs.flatMap le8

/-- An optional number: 0, or 1 more than it. -/
def optNat (o : Option Nat) : Nat := (o.map (· + 1)).getD 0

/-- A path of the divergence stack. -/
def Path.context (p : Path) : List Byte :=
  leBytes 8 p.pc.toNat ++ leBytes 8 p.rpc.toNat ++ leBytes 16 p.mask.toNat ++ leBytes 16 p.creation.toNat ++
  le8 ((if p.isRec then 1 else 0) + (if p.storedRec then 2 else 0) + 4 * p.pid) ++ le8 (optNat (p.arr.map (·.toNat)))

/-- A port (R320). -/
def Port.context (p : Port) : List Byte :=
  let mode := match p.mode with
    | .inp => 0
    | .out => 1
    | .qin => 2
    | .qout => 3
  let flag := fun (b : Bool) => if b then 1 else 0
  leList ([mode, p.width, flag p.packed, p.base.toNat, p.recAddr.toNat, p.hint, p.endP, p.k, p.pos, flag p.endSeen, p.peerWarp, p.peerPort,
      flag p.closed, flag p.discard, flag p.gone, p.epc.toNat, p.pid] ++ p.queue.map (·.toNat)) ++
    leList (p.part.flatMap (fun e => [e.1, e.2.1.toNat, e.2.2]))

/-- What a wait after issue still needs (R415). -/
def Hold.context : Hold → List Nat
  | .none => [0]
  | .waitk m => [1, m.toNat]
  | .bar i p sc => [2, i, p, sc]
  | .barg i p sc => [3, i, p, sc]
  | .syscall d sb => [4, d, sb]
  | .sleep _ _ _ => [0]
  | .yield _ _ => [0]

/-- The first 576 bytes of a warp's part: k and s. -/
def Warp.ctxHead (w : Warp) : List Byte := w.k.toList.flatMap (fun x => leBytes 4 x.toNat) ++ w.s.toList.flatMap (fun x => leBytes 4 x.toNat)

/-- The rest of a warp's part: v up to VREGS, p, em with the on-chip stack, X, trap mode, the trap registers, pending faults, ports, an open
region, its barrier records and its wait. -/
def Warp.ctxTail (vregs : Nat) (w : Warp) : List Byte :=
  (w.v.toList.take vregs).flatMap (fun r => r.toList.flatMap (fun x => leBytes 4 x.toNat)) ++
  w.p.toList.flatMap (fun m => leBytes 16 m.toNat) ++ leBytes 16 w.exited.toNat ++
  le8 w.stack.length ++ (w.base :: w.stack).flatMap Path.context ++
  leList [w.spilled, w.issuing, w.nextPid, if w.trapMode then 1 else 0, w.cause.toNat, w.epc.toNat, w.fault.toNat] ++
  leList (w.pendFaults.flatMap (fun f => [f.cause, f.epc.toNat, f.addr.toNat, f.pid, f.since])) ++
  w.ports.toList.flatMap (fun o => match o with
    | some p => le8 1 ++ p.context
    | none => le8 0) ++
  leList (match w.region with
    | some r => [r.area.toNat, r.slot.toNat, r.d, optNat r.failed]
    | none => []) ++
  leList (w.barRec.toList.map optNat ++ w.bargRec.toList.map optNat) ++ leList w.hold.context

/-- A workgroup's part: scratchpad with full bits, allocated slots with their flags, live tiles, barriers, and its stopped anvil operations and
copy remainders in received order. -/
def Wgroup.ctxTail (g : Wgroup) (e : Engines) : List Byte :=
  Store.getN g.spad 0 g.kern.scratch ++ leList g.full ++ Store.getN g.slots 0 (20480 * g.kern.oslots) ++ leList g.claimed ++
  leList (g.order.flatMap (fun a => [a.seq, a.slot, if a.write then 1 else 0, a.lo, a.hi])) ++
  leList g.live ++ (g.live.flatMap (fun t => (List.range 16384).flatMap (fun i => leBytes 4 (Store.get g.tiles (16384 * t + i)).toNat))) ++
  leList (g.bars.toList.flatMap (fun b => [b.phase, b.count, optNat b.n])) ++
  leList ((e.anvil.filter (fun a => a.wg == g.key)).flatMap (fun a => [a.id, a.warp.slot, a.tile, a.step, a.epc.toNat, a.pid])) ++
  leList ((e.cmds.filter (fun c => c.wg == g.key)).flatMap (fun c => [c.id, c.warp.slot, c.k, c.epc.toNat, c.pid, c.todo.length] ++ c.todo))

/-- The context of a workgroup with its warps: their heads come first. -/
def ctxBytes (g : Wgroup) (ws : List Warp) (e : Engines) : List Byte :=
  ws.flatMap Warp.ctxHead ++ ws.flatMap (Warp.ctxTail g.kern.vregs) ++ g.ctxTail e

/-- Write bytes of the area of a core of a partition, by lines at their homes (R416, R434: HSEL 0). -/
def State.ctxWrite (s : State) (part core off : Nat) (bs : List Byte) : State :=
  (List.range ((bs.length + 63) / 64)).foldl (fun (s : State) i =>
    s.homeWrite none (hbmLoc 0 (((s.part part).ctxBase.toNat + 4718592 * core + off + 64 * i) % 2 ^ 39)) 0 0 ((bs.drop (64 * i)).take 64)) s

/-- The heads of a saved workgroup's warps are written again, after a change of theirs while it is saved (R415, R416). -/
def State.ctxRefresh (s : State) (key : Nat) : State :=
  match s.sched.saved.find? (fun p => p.1.key == key) with
  | none => s
  | some (g, ws) => match g.ctx with
    | none => s
    | some off => s.ctxWrite g.part g.core off (ws.flatMap Warp.ctxHead)

end Sys2Proof.Machine
end

