-- ==== Sys2Proof/Machine/Ops.lean ====
section
/-! DEFINITION. The named operations over warps: paths and masks (R143–R145), registers and results not yet certain (R81,
R82), count registers (R42), events and interrupts (R283, R425, R426), cancellation (R413), the divergence stack with its
spills and fills (R44, R45, R243), taking a trap (R162, R279, R280) and returning from one (R163). -/
namespace Sys2Proof.Machine

/-! ## Warps and workgroups -/

/-- Change the focused warp. -/
def State.modCur (s : State) (f : Warp → Warp) : State := { s with cur := f s.cur }

/-- The warp at a place. -/
def State.warpAt (s : State) (id : WarpId) : Option Warp :=
  if s.cur.id = id then some s.cur else s.warps.find? (fun w => w.id == id)

/-- Change the warp at a place. -/
def State.modWarp (s : State) (id : WarpId) (f : Warp → Warp) : State :=
  if s.cur.id = id then { s with cur := f s.cur }
  else { s with warps := s.warps.map (fun w => if w.id = id then f w else w) }

/-- Change every warp for which `p` holds. -/
def State.modWarps (s : State) (p : Warp → Bool) (f : Warp → Warp) : State :=
  { s with cur := if p s.cur then f s.cur else s.cur
           warps := s.warps.map (fun w => if p w then f w else w) }

/-- Every warp the device holds, the focused one first. -/
def State.allWarps (s : State) : List Warp := s.cur :: s.warps

/-- Bring the workgroup with a key into focus. -/
def State.focusWg (s : State) (key : Nat) : State :=
  if s.wg.key = key then s
  else match s.wgs.find? (fun g => g.key == key) with
    | some g => { s with wg := g, wgs := s.wg :: s.wgs.filter (fun x => x.key != key) }
    | none => s

/-- Bring the warp at a place into focus, with its workgroup. -/
def State.focusOn (s : State) (id : WarpId) : State :=
  if s.cur.id = id then s.focusWg s.cur.wg
  else match s.warps.find? (fun w => w.id == id) with
    | some w => { s with cur := w, warps := s.cur :: s.warps.filter (fun x => x.id != id) }.focusWg w.wg
    | none => s

/-- A warp issues instructions. -/
def Warp.running (w : Warp) : Bool := decide (w.status = .running)

/-! ## Paths -/

/-- Two live paths: the top two entries are path entries with one reconvergence PC (R143). -/
def Warp.twoLive (w : Warp) : Bool :=
  match w.stack with
  | a :: b :: _ => !a.isRec && !b.isRec && a.rpc == b.rpc
  | _ => false

/-- Change the issuing path. -/
def Warp.modPath (w : Warp) (f : Path → Path) : Warp :=
  match w.stack with
  | [] => { w with base := f w.base }
  | a :: r => { w with stack := (a :: r).modify (if w.issuing < (a :: r).length then w.issuing else 0) f }

/-- em as read: the current mask of the issuing path (R143). -/
def Warp.em (w : Warp) : Mask := w.path.mask

/-- The slot address of the instruction being issued. -/
def State.pc (s : State) : DWord := s.cur.path.pc

/-- Full convergence (R153, R245): one live path, and every lane not in X active. -/
def State.converged (s : State) (act : Mask) : Bool := !s.cur.twoLive && act == ~~~s.cur.exited

/-! ## Registers -/

/-- Is a pending result still uncertain to a reader (R81, R82)? -/
def Pend.uncertain (p : Pend) : Bool :=
  match p.lat with
  | .fixed _ dist lat => decide (dist < lat)
  | .var _ done => !done

/-- A salt for the free choice of one lane of a register. -/
def PReg.salt : PReg → Nat
  | .v n => 128 * n
  | .s n => 128 * (240 + n)
  | .p n => 128 * (368 + n)

/-- Blend a pending old value into a register's value: in each uncertain lane the old value or the new one, a free
choice (R81, R82). -/
def blend (ctr : Nat) (x : VReg) (p : Pend) : VReg :=
  Vector.ofFn (fun l : Fin 128 =>
    if p.mask.getLsbD l && Config.freeBit ctr (p.reg.salt + l) then p.old[l] else x[l])

/-- What a read of a register returns, given its stored value (R81, R82). -/
def Warp.seen (w : Warp) (ctr : Nat) (r : PReg) (x : VReg) : VReg :=
  (w.pend.filter (fun p => p.reg == r && p.uncertain)).foldl (blend ctr) x

/-- Read a vector register in every lane. DESIGN CHOICE (log 81): of a lane of the other live path, R123 allows any value held since the
branch; it is read as it stands at the issue. -/
def State.readV (s : State) (n : Nat) : VReg :=
  s.cur.seen s.freeCtr (.v n) (s.cur.v.getD n (Vector.replicate 128 0))

/-- Read a uniform register. -/
def State.readS (s : State) (n : Nat) : Word :=
  let x := s.cur.s.getD n 0
  if s.cur.pend.any (fun p => p.reg == .s n && p.uncertain)
  then (s.cur.seen s.freeCtr (.s n) (Vector.replicate 128 x)).getD 0 0 else x

/-- A uniform pair (R40): the even register holds bits [31:0]. -/
def State.readS2 (s : State) (n : Nat) : DWord := s.readS (n + 1) ++ s.readS n

/-- Read a predicate in every lane; p31 is true everywhere (R41). -/
def State.readP (s : State) (n : Nat) : Mask :=
  if n = 31 then Mask.full else
  let m := s.cur.p.getD n 0
  (s.cur.pend.filter (fun p => p.reg == .p n && p.uncertain)).foldl (fun m p =>
    (List.range 128).foldl (fun m l =>
      if p.mask.getLsbD l && Config.freeBit s.freeCtr (p.reg.salt + l)
      then (if (p.old.getD l 0) = 0 then m &&& ~~~(1#128 <<< l) else m ||| (1#128 <<< l)) else m) m) m

/-- The lanes active for a guard (R6): in em, and the guard true. -/
def State.active (s : State) (h : Hdr) : Mask :=
  s.cur.em &&& (if h.pn then ~~~(s.readP h.pg) else s.readP h.pg)

/-- A value stored over an uncertain one: in each lane where an earlier result is uncertain, either stands (R81). -/
def settleWrite (w : Warp) (ctr : Nat) (r : PReg) (cur new : VReg) (mask : Mask) : VReg :=
  let unc := w.pend.filter (fun p => p.reg == r && p.uncertain)
  Vector.ofFn (fun l : Fin 128 =>
    if mask.getLsbD l then
      (if unc.any (fun p => p.mask.getLsbD l) && Config.freeBit ctr (2 ^ 17 + r.salt + l) then cur[l] else new[l])
    else cur[l])

/-- Write a vector register in the lanes of a mask, with the latency of its producer. -/
def State.writeV (s : State) (n : Nat) (mask : Mask) (x : VReg) (lat : Lat) : State :=
  let old := s.cur.v.getD n (Vector.replicate 128 0)
  let new := settleWrite s.cur s.freeCtr (.v n) old x mask
  s.modCur (fun w => { w with v := w.v.setIfInBounds n new, pend := { reg := .v n, old := old, mask := mask, lat := lat, path := s.cur.path.pid, epc := s.pc } :: w.pend })

/-- Write a uniform register. -/
def State.writeS (s : State) (n : Nat) (x : Word) (lat : Lat) : State :=
  let old := s.cur.s.getD n 0
  let new := (settleWrite s.cur s.freeCtr (.s n) (Vector.replicate 128 old) (Vector.replicate 128 x) Mask.full).getD 0 0
  s.modCur (fun w => { w with
    s := w.s.setIfInBounds n new
    pend := { reg := .s n, old := Vector.replicate 128 old, mask := Mask.full, lat := lat, path := s.cur.path.pid, epc := s.pc } :: w.pend })

/-- Write a uniform pair (R40). -/
def State.writeS2 (s : State) (n : Nat) (x : DWord) (lat : Lat) : State :=
  (s.writeS n (x.setWidth 32) lat).writeS (n + 1) ((x >>> 32).setWidth 32) lat

/-- A mask as lane values 0 and 1. -/
def maskReg (m : Mask) : VReg := Vector.ofFn (fun l : Fin 128 => if m.getLsbD l then 1 else 0)

/-- Write a predicate in the lanes of a mask; a write to p31 is discarded (R41). -/
def State.writeP (s : State) (n : Nat) (mask x : Mask) (lat : Lat) : State :=
  if n = 31 then s else
  let old := s.cur.p.getD n 0
  let new := settleWrite s.cur s.freeCtr (.p n) (maskReg old) (maskReg x) mask
  let newM := (List.range 128).foldl (fun m l => if (new.getD l 0) = 0 then m else m ||| (1#128 <<< l)) (0 : Mask)
  s.modCur (fun w => { w with
    p := w.p.setIfInBounds n (if s.cur.pend.any (fun q => q.reg == .p n && q.uncertain) then newM
      else (old &&& ~~~mask) ||| (x &&& mask))
    pend := { reg := .p n, old := maskReg old, mask := mask, lat := lat, path := s.cur.path.pid, epc := s.pc } :: w.pend })

/-- Every fixed-latency result of the warp is complete (R93). -/
def Warp.settle (w : Warp) : Warp :=
  { w with pend := w.pend.filter (fun p => match p.lat with
      | .fixed _ _ _ => false
      | .var _ _ => true) }

/-- Add to a count register (R42): the new 32-bit value, or `none` where it would lie from 2^31 + 1 to 2^32 − 1, or where the sum is no
32-bit value at all (cause 0x028). -/
def countAdd (k : Word) (d : Int) : Option Word :=
  let x := (k.toNat : Int) + d
  if -(2 ^ 31) ≤ x ∧ x < 2 ^ 32 ∧ x % 2 ^ 32 ≤ 2 ^ 31 then some (BitVec.ofInt 32 x) else none

/-! ## Events -/

/-- Raise interrupt `i` of a partition (R425). -/
def State.interrupt (s : State) (part i : Nat) : State :=
  let p := s.part part
  let s := { s with mgmt := { s.mgmt with parts := s.mgmt.parts.setIfInBounds part { p with intStat := p.intStat ||| (1#4 <<< i) } } }
  if p.intMask.getLsbD i then { s with logs := { s.logs with out := s.logs.out ++ [.msix (8 + 4 * part + i)] } } else s

/-- Send MSI-X vector 0 for a device event, or vector 1 for the service ring (R425). -/
def State.msix (s : State) (v : Nat) : State := { s with logs := { s.logs with out := s.logs.out ++ [.msix v] } }

/-- Write one event to the black box (R426), and raise the interrupt of classes 6, 9 and 11 (R283). -/
def State.event (s : State) (kind cause part core slot : Nat) (epc addr : DWord) : State :=
  let e : BbEvent := { time := s.time, cause := cause, kind := kind, part := part, core := core, slot := slot, epc := epc, addr := addr }
  let s := { s with logs := { s.logs with events := (e :: s.logs.events).take 4096, bbHead := s.logs.bbHead + 1 } }
  if part < 8 then
    (match cause / 32 with
     | 6 => s.interrupt part 0
     | 9 => s.interrupt part 1
     | 11 => s.interrupt part 2
     | _ => s)
  else s

/-- An event of the device as a whole, class 9 (R283): it is logged, and each enabled partition's driver is told. -/
def State.deviceEvent (s : State) (cause : Nat) : State :=
  (List.range 8).foldl (fun (s : State) p => if (s.part p).enable then s.interrupt p 1 else s) (s.event 0 cause 255 255 255 0 0)

/-- An event of the focused warp. -/
def State.warpEvent (s : State) (kind cause : Nat) (epc addr : DWord) : State :=
  s.event kind cause s.wg.part s.cur.id.core s.cur.id.slot epc addr

/-- The virtual addresses, each with its partition, that an access of a warp to a generic address may have walked (R252, R253). -/
def State.walked (s : State) (arena : DWord) (part : Nat) (addr : DWord) : List (Nat × Nat) :=
  match window addr with
  | .glob va => [(part, va)]
  | .rank _ region off =>
    let g := s.mgmt.regions.getD region { base := 0, len := 0, part := 0, valid := false }
    [(g.part, g.base.toNat + off)]
  | .priv off => (List.range 128).flatMap (fun l => [(part, arenaAddr arena l off), (part, arenaAddr arena l (off + 4))])
  | _ => []

/-- The log of a walk of one of some addresses that has met a poisoned table line, with the source of its error (R267, R278, e 7). -/
def State.logTable (s : State) (part core slot : Nat) (epc addr : DWord) (vas : List (Nat × Nat)) : State :=
  match vas.findSome? (fun p => walkPoison s p.1 p.2) with
  | some src => s.event 0 (0x0C7 + 8 * min src 3) part core slot epc addr
  | none => s

/-- Fault kind 5 of a translation (R267). -/
def isWalkError (cause : Nat) : Bool := decide (0x080 ≤ cause ∧ cause < 0x0A0 ∧ cause % 8 = 5)

/-- A walk that met a poisoned table line is logged where the fault kind 5 of the access is detected (R267, R278). -/
def State.logWalk (s : State) (id : WarpId) (cause : Nat) (epc addr : DWord) : State :=
  if isWalkError cause then
    let w := (s.warpAt id).getD s.cur
    let part := ((s.wgOf w.wg).map (fun g => g.part)).getD s.wg.part
    s.logTable part id.core id.slot epc addr (s.walked w.arena part addr)
  else s

/-! ## Barriers -/

/-- The warps of a workgroup that have not ended. -/
def State.aliveIn (s : State) (key : Nat) : Nat :=
  (s.allWarps.filter (fun w => w.wg == key && w.running)).length

/-- The expected number of a workgroup barrier (R155). -/
def Barrier.expected (b : Barrier) (alive : Nat) : Nat := match b.n with
  | some (n + 1) => n + 1
  | _ => alive

/-- Complete the phase of a barrier when its arrivals reach the expected number (R155). -/
def Barrier.tick (b : Barrier) (alive : Nat) : Barrier :=
  if 0 < b.count ∧ b.expected alive ≤ b.count then { phase := (b.phase + 1) % 65536, count := 0, n := none } else b

/-- Complete every phase of a workgroup's barriers that its arrivals now reach (R155, R156). -/
def State.tickBars (s : State) (key : Nat) : State :=
  let alive := s.aliveIn key
  s.modWg key (fun g => { g with bars := g.bars.map (fun b => b.tick alive) })

/-- The index of a workgroup's gang in its launch (R233). -/
def Wgroup.gang (g : Wgroup) : Nat := g.linear / g.gangSize

/-- The warps of a gang that have not ended. -/
def State.aliveGang (s : State) (launch gang : Nat) : Nat :=
  (s.allWgs.filter (fun g => g.launch == launch && g.gang == gang && g.here)).foldl (fun n g => n + s.aliveIn g.key) 0

/-- Complete every phase of a gang's barriers that its arrivals now reach (R155, R156). -/
def State.tickGang (s : State) (launch gang : Nat) : State :=
  let alive := s.aliveGang launch gang
  { s with sched := { s.sched with gangs := s.sched.gangs.map (fun x =>
      if x.launch = launch ∧ x.index = gang then { x with bars := x.bars.map (fun b => b.tick alive) } else x) } }

/-! ## Ends, kills and cancellation -/

/-- The queue peers of a warp that ends without closing see it gone (R318, R319). A producer goes on filling the room that the queue has left,
so it keeps what the queue held. -/
def Warp.seeGone (w : Warp) (dead : Warp) : Warp :=
  { w with ports := w.ports.map (fun o => o.map (fun p =>
      if (p.mode = .qin ∨ p.mode = .qout) ∧ p.peerWarp = dead.index then
        { p with gone := true, queue := if p.mode = .qout then ((dead.ports.getD p.peerPort none).map (fun q => q.queue)).getD [] else p.queue }
      else p)) }

/-- Stop a warp that is killed or cancelled: it closes nothing (R319). -/
def Warp.stop (w : Warp) : Warp :=
  { w with status := .killed, ports := Vector.replicate 8 none, hold := .none, fence := none }

/-- Cancel a launch with a cause, 0 for none (R413): no further workgroup dispatches and every resident warp stops. -/
def State.cancelLaunch (s : State) (key cause : Nat) : State :=
  let mark := fun (l : Launch) =>
    if l.key = key ∧ !l.cancelled then { l with cancelled := true, cause := if l.cause = 0 then cause else l.cause } else l
  let mine := fun (g : Wgroup) => g.launch == key && g.here
  let keys := (s.allWgs.filter mine).map (·.key)
  let s := s.modWarps (fun w => keys.contains w.wg && w.running) Warp.stop
  -- saved members of the launch are gone, and count as cancelled without a core
  let lost := s.sched.saved.filter (fun p => p.1.launch == key)
  let gone := lost.map (fun p => ({ p.1 with status := .cancelled, endCause := cause, kern := Kernel.blank, wgsize := 0 } : Wgroup))
  let kept := fun (wg : Nat) => !(gone.any (fun g => g.key == wg))
  let s := lost.foldl (fun (s : State) p => p.2.foldl (fun (s : State) (w : Warp) => w.pendFaults.foldl (fun (s : State) f =>
    s.event 5 f.cause p.1.part w.id.core w.id.slot f.epc f.addr) s) s) s
  let s := if lost = [] then s else { s with eng := { s.eng with
    cmds := s.eng.cmds.filter (fun c => kept c.wg)
    anvil := s.eng.anvil.filter (fun a => kept a.wg)
    contribs := s.eng.contribs.filter (fun c => kept c.wg) } }
  -- its ordered reductions end with it (R300)
  let done := fun (c : Contrib) => c.launch == key && c.ord.isSome
  let s := if s.eng.contribs.any done then { s with eng := { s.eng with
      cmds := s.eng.cmds.filter (fun d => !(s.eng.contribs.any (fun c => done c && c.id == d.id)))
      contribs := s.eng.contribs.filter (fun c => !done c) } } else s
  let s := { s with
    wg := if mine s.wg then { s.wg with status := .cancelled, endCause := cause, endId := s.eng.nextId } else s.wg
    wgs := s.wgs.map (fun g => if mine g then { g with status := .cancelled, endCause := cause, endId := s.eng.nextId } else g) ++ gone
    sched := { s.sched with launches := s.sched.launches.map mark, saved := s.sched.saved.filter (fun p => p.1.launch != key) } }
  s

/-- Cancel one workgroup without its launch (R413, LV 0 and 1): it counts into WGCC as cancelled. -/
def State.cancelWg (s : State) (key : Nat) : State :=
  let s := s.modWarps (fun w => w.wg == key && w.running) Warp.stop
  let s := s.modWg key (fun g => if g.here then { g with status := .cancelled, endId := s.eng.nextId } else g)
  match s.wgOf key with
  | some g => s.tickGang g.launch g.gang
  | none => s

/-- End the focused warp and cancel its launch with a cause: the cancellation is one event (R271, R280, R283). -/
def State.endWith (s : State) (cause : Nat) (epc addr : DWord) : State :=
  let dead := s.cur
  let s := s.modCur Warp.stop
  let key := s.wg.key
  let s := s.modWarps (fun w => w.wg == key) (fun w => w.seeGone dead)
  (s.cancelLaunch s.wg.launch cause).warpEvent 2 cause epc addr

/-- Kill the focused warp with a cause and cancel its launch (R271, R280): the kill is an event of its own. -/
def State.kill (s : State) (cause : Nat) (epc addr : DWord) : State :=
  (s.warpEvent 1 cause epc addr).endWith cause epc addr

/-! ## Spilled entries -/

/-- An access of the store kind to lane 0's private memory (R44, R243). -/
def spillAccess (write : Bool) : Access :=
  { kind := if write then 1 else 0, perm := ⟨!write, write, false⟩, space := .priv, size := 4, align := 4,
    atomic := none, fe := false, hflush := false, engine := false }

/-- Why a spill or a fill does not go on: it fails with a cause and an address, or it waits for an ownership transfer (R365). -/
inductive SpillStop where
  | fault (cause : Nat) (a : DWord)
  | wait (part va : Nat)
  deriving DecidableEq, Repr

/-- The locations of the twelve words of spilled entry `j`: 0x06C with the lowest private address that failed, a store refused at a frozen
byte and a load from a poisoned line among the failures (R243, R277); a store onto a poisoned line goes on (R278). -/
def spillLocs (s : State) (write : Bool) (j : Nat) : Except SpillStop (List (Nat × Nat)) :=
  (List.range 12).foldr (fun i acc =>
    let a : DWord := BitVec.ofNat 64 (0x7C * 2 ^ 56 + 48 * j + 4 * i)
    match acc, resolve s (spillAccess write) 0 a with
    | _, .fault c => .error (.fault (if c = 0x16B then c else 0x06C) a)
    | .error (.fault c e), .wait _ _ => .error (.fault c e)
    | _, .wait p va => .error (.wait p va)
    | .error e, .ok (.loc l _) =>
      if (if write then s.mem.frozenN l 4 else (s.mem.poisonOf l).isSome) then .error (.fault 0x06C a) else .error e
    | .ok ls, .ok (.loc l m) =>
      if (if write then s.mem.frozenN l 4 else (s.mem.poisonOf l).isSome) then .error (.fault 0x06C a) else .ok ((l, m) :: ls)
    | _, .ok _ => .error (.fault 0x06C a)) (.ok [])

/-- The log of a spill's or fill's walk that met a poisoned table line (R243, R267). -/
def State.logSpill (s : State) (cause : Nat) (epc a : DWord) : State :=
  if cause = 0x06C then (match resolve s (spillAccess false) 0 a with
    | .fault c => s.logWalk s.cur.id c epc a
    | _ => s)
  else s

/-- The 48 bytes of a spilled entry (R44). -/
def Path.spillBytes (e : Path) : List Byte :=
  leBytes 8 e.pc.toNat ++ leBytes 8 (e.rpc.toNat % 2 ^ 63 + (if e.isRec then 2 ^ 63 else 0)) ++
  leBytes 16 e.mask.toNat ++ leBytes 16 e.creation.toNat

/-- The entry of 48 spilled bytes, with the lanes of X removed (R151, R243). -/
def Path.ofSpill (bs : List Byte) (exited : Mask) (pid : Nat) : Path :=
  let r := recField bs 8 8
  { isRec := decide (r / 2 ^ 63 = 1), pc := BitVec.ofNat 64 (recField bs 0 8), rpc := BitVec.ofNat 64 (r % 2 ^ 63),
    mask := BitVec.ofNat 128 (recField bs 16 16) &&& ~~~exited,
    creation := BitVec.ofNat 128 (recField bs 32 16) &&& ~~~exited,
    line := none, arr := none, refilled := true, storedRec := decide (r / 2 ^ 63 = 1), pid := pid }

/-- Write words at resolved locations, as ordinary stores of the focused warp's core. -/
def State.writeWords (s : State) : List (Nat × Nat) → List Byte → State
  | [], _ => s
  | (l, m) :: ls, bs => (s.homeWrite (some s.cur.id.core) l m 0 (bs.take 4)).writeWords ls (bs.drop 4)

/-- Push one entry on the focused warp's stack; the 33rd on-chip entry spills (R243). -/
def State.push (s : State) (e : Path) : Except SpillStop State :=
  if s.cur.stack.length < 32 then .ok (s.modCur (fun w => { w with stack := e :: w.stack }))
  else match s.cur.stack.getLast? with
    | none => .ok s
    | some b =>
      match spillLocs s true s.cur.spilled with
      | .error e => .error e
      | .ok ls =>
        let s := s.writeWords ls b.spillBytes
        .ok (s.modCur (fun w => { w with stack := e :: w.stack.dropLast, spilled := w.spilled + 1 }))

/-- The depth after `n` more pushes is allowed (R45). -/
def State.roomFor (s : State) (n : Nat) : Bool :=
  let d := s.cur.stack.length + s.cur.spilled + n
  decide (d ≤ 32 + s.wg.kern.dspill ∧ d ≤ 1024)

/-- Fill spilled entries while fewer than 32 stand on chip (R243): 0x06D is the cause of an entry whose current mask leaves its creation
mask, which stays spilled (R277). -/
def State.fill (s : State) : Nat → Except SpillStop State
  | 0 => .ok s
  | n + 1 =>
    if s.cur.stack.length < 32 ∧ 0 < s.cur.spilled then
      match spillLocs s false (s.cur.spilled - 1) with
      | .error e => .error e
      | .ok ls =>
        let bs := (ls.map (fun p => s.readLoc p.1 4)).flatten
        let e := Path.ofSpill bs s.cur.exited s.cur.nextPid
        if e.mask &&& ~~~e.creation ≠ 0 then .error (.fault 0x06D 0)
        else (s.modCur (fun w => { w with stack := w.stack ++ [e], spilled := w.spilled - 1, nextPid := w.nextPid + 1 })).fill n
    else .ok s

/-! ## Taking a trap and returning from it -/

/-- The trap marker of R144. -/
def trapMark : DWord := 0x7FFFFFFFFFFFFFFE#64
/-- The call marker of R144. -/
def callMark : DWord := 0x7FFFFFFFFFFFFFFD#64
/-- The value "none" of R144. -/
def noneMark : DWord := 0x7FFFFFFFFFFFFFFF#64

/-- Bring the issuing path to the top: a live path beneath the top is exchanged with it (R279). -/
def Warp.issuingOnTop (w : Warp) : Warp :=
  match w.issuing, w.stack with
  | 1, a :: b :: r => { w with stack := b :: a :: r, issuing := 0 }
  | _, _ => { w with issuing := 0 }

/-- TAKING A TRAP (R162, R279, R280): on the issuing path, with the cause, sr.epc and sr.fault that the cause sets. The error is the
region whose ownership transfer the handler's push waits for (R243, R365). -/
def State.enter (s : State) (cause : Nat) (epc addr : DWord) : Except (Nat × Nat) State :=
  let s := s.modCur Warp.settle
  if s.wg.kern.handler = 0 then
    -- no handler: the launch is cancelled with the cause, the warp ends
    .ok ((s.cancelLaunch s.wg.launch cause).warpEvent 2 cause epc addr)
  else if s.cur.trapMode then
    -- double fault: both causes recorded
    .ok (((s.warpEvent 3 s.cur.cause.toNat s.cur.epc s.cur.fault).warpEvent 4 cause epc addr).endWith cause epc addr)
  else
    let s := s.modCur Warp.issuingOnTop
    let e := s.cur.path
    let hp : Path := { isRec := false, pc := s.wg.kern.handler, rpc := trapMark, mask := e.mask, creation := e.mask,
                       line := none, arr := some 0, refilled := false, storedRec := false, pid := s.cur.nextPid }
    if !s.roomFor 1 then .ok (s.kill 0x06E epc addr)
    else match s.push hp with
      | .error (.fault c a) => .ok ((s.logSpill c epc a).kill c epc a)
      | .error (.wait p va) => .error (p, va)
      | .ok s => .ok (s.modCur (fun w => { w with
          cause := BitVec.ofNat 9 cause, epc := epc, fault := addr, trapMode := true, nextPid := w.nextPid + 1 }))

/-- Take a trap at its detection, or leave the warp where it stands while the handler's push waits. -/
def State.trap (s : State) (cause : Nat) (epc addr : DWord) : State :=
  match ((s.logWalk s.cur.id cause epc addr).logSpill cause epc addr).enter cause epc addr with
  | .ok t => t
  | .error (p, va) => s.pathWaits p va

/-- A precise trap at the instruction being issued (R271, R272). -/
def State.precise (s : State) (cause : Nat) (addr : DWord) : State := s.trap cause s.pc addr

/-- A fault that arrives for a warp that has ended: it is logged, and its launch is cancelled with the cause (R274). -/
def State.lateFault (s : State) (g : Wgroup) (id : WarpId) (cause : Nat) (epc addr : DWord) : State :=
  let s := s.event 0 cause g.part id.core id.slot epc addr
  if s.sched.launches.any (fun l => l.key == g.launch && !l.cancelled) then
    (s.cancelLaunch g.launch cause).event 2 cause g.part id.core id.slot epc addr
  else s

/-- Hold one more fault pending (R273, R274). -/
def Warp.addFault (w : Warp) (cause : Nat) (epc addr : DWord) (pid now : Nat) : Warp :=
  { w with pendFaults := w.pendFaults ++ [{ cause := cause, epc := epc, addr := addr, pid := pid, since := now, late := false }] }

/-- Hold an imprecise fault pending on a warp (R273, R274): a ninth kills it with its own cause. -/
def State.post (s : State) (id : WarpId) (cause : Nat) (epc addr : DWord) (pid : Nat) : State :=
  let s := s.logWalk id cause epc addr
  match s.warpAt id with
  | none => s.event 0 cause 255 id.core id.slot epc addr
  | some w =>
    match w.status with
    | .running =>
      if w.pendFaults.length < 8 then
        s.modWarp id (fun w => w.addFault cause epc addr pid s.time)
      else
        let back := s.cur.id
        ((s.focusOn id).kill cause epc addr).focusOn back
    | .ended =>
      (match s.wgOf w.wg with
       | some g => s.lateFault g id cause epc addr
       | none => s.event 0 cause 255 id.core id.slot epc addr)
    | _ => s.event 0 cause ((s.wgOf w.wg).map (·.part) |>.getD 255) id.core id.slot epc addr

/-- Lower (or raise) a count register of a warp by an engine event: a value past 2^31 keeps the register and posts the
imprecise cause 0x028 (R42). -/
def State.countDown (s : State) (id : WarpId) (k d : Nat) (epc : DWord) (pid : Nat) : State :=
  match s.warpAt id with
  | none => s
  | some w =>
    -- a slot that holds no warp has no register
    if w.status = .free then s else
    match countAdd (w.k.getD k 0) (-(d : Int)) with
    | some x => s.modWarp id (fun w => { w with k := w.k.setIfInBounds k x })
    | none => s.post id 0x028 epc 0 pid

/-- Change a warp of a saved workgroup (R416). -/
def State.modSaved (s : State) (id : WarpId) (wg : Nat) (f : Warp → Warp) : State :=
  { s with sched := { s.sched with saved := s.sched.saved.map (fun (p : Wgroup × List Warp) =>
    if p.1.key = wg then (p.1, p.2.map (fun (w : Warp) => if w.id = id then f w else w)) else p) } }

/-- A warp of a saved workgroup, with its workgroup. -/
def State.savedWarp (s : State) (id : WarpId) (wg : Nat) : Option (Wgroup × Warp) :=
  (s.sched.saved.find? (fun p => p.1.key == wg)).bind (fun p => (p.2.find? (fun w => w.id == id)).map (fun w => (p.1, w)))

/-- Post an imprecise fault to a warp of a workgroup, resident or saved (R274): a ninth kills a saved warp as it does a resident one; a
workgroup that is gone takes none. -/
def State.postOwned (s : State) (id : WarpId) (wg cause : Nat) (epc addr : DWord) (pid : Nat) : State :=
  if s.allWarps.any (fun w => w.id == id && w.wg == wg) then s.post id cause epc addr pid
  else match s.savedWarp id wg with
    | none => s
    | some (g, w) =>
      if !w.running then s.lateFault g id cause epc addr
      else if w.pendFaults.length < 8 then s.modSaved id wg (fun w => w.addFault cause epc addr pid s.time)
      else ((s.event 1 cause g.part id.core id.slot epc addr).cancelLaunch g.launch cause).event 2 cause g.part id.core id.slot epc addr

/-- Lower a count register of a warp of a workgroup, which a save may have taken off its core (R42, R416). -/
def State.countOwned (s : State) (id : WarpId) (wg k d : Nat) (epc : DWord) (pid : Nat) : State :=
  if s.allWarps.any (fun w => w.id == id && w.wg == wg) then s.countDown id k d epc pid
  else match s.savedWarp id wg with
    | none => s
    | some (_, w) => match countAdd (w.k.getD k 0) (-(d : Int)) with
      | some x => (s.modSaved id wg (fun w => { w with k := w.k.setIfInBounds k x })).ctxRefresh wg
      | none => s.postOwned id wg 0x028 epc 0 pid

/-! ## Time -/

/-- Device time moves on: crossing a window boundary counts in the fences and pending freezes that wait for one (R178, R347). -/
def State.passTime (s : State) (t : Nat) : State :=
  let n := t / 2 ^ s.mgmt.logW - s.time / 2 ^ s.mgmt.logW
  if n = 0 then { s with time := t }
  else
    let count := fun (w : Warp) => ({ w with fence := w.fence.map (fun f => { f with boundaries := f.boundaries + n }) } : Warp)
    let s := s.modWarps (fun w => w.fence.isSome) count
    { s with time := t, sched := { s.sched with saved := s.sched.saved.map (fun (p : Wgroup × List Warp) => (p.1, p.2.map count)) }, mem := { s.mem with frz := s.mem.frz.map (fun e => if e.state = .pending then { e with since := e.since + n } else e) } }

/-- RETURNING FROM A TRAP (R163): pop the handler path, leave trap mode, and the path beneath goes to sr.epc, an arrival
named by the RETT's slot. -/
def State.rett (s : State) : State :=
  let at_ := s.pc
  let s := s.modCur (fun w => { w with stack := w.stack.drop 1, trapMode := false, issuing := 0 })
  s.modCur (fun w => (w.modPath (fun p => { p with pc := w.epc, arr := some at_, line := none })))

/-! ## The tidying of R145 -/

/-- A path entry that tidying removes: at its reconvergence PC, an arrival there having been checked (R73), or empty. -/
def Path.finished (p : Path) : Bool := !p.isRec && ((p.pc == p.rpc && p.arr.isNone) || p.mask == 0)

/-- One case of the tidying (R145, R164), if one applies. A reconvergence entry resumes once every fixed-latency result is complete (R93).
DESIGN CHOICE (log 82): a base path that was spilled comes back with the creation mask of its refilled bytes, which a store may have changed;
R143 gives every lane not exited. -/
def Warp.tidy1 (w : Warp) : Option Warp :=
  match w.stack with
  | [] => none
  | a :: r =>
    if a.finished then
      -- a handler path that leaves the stack ends trap mode (R164)
      some { w with stack := r, trapMode := if a.rpc = trapMark then false else w.trapMode }
    else if w.twoLive && (match r with
      | b :: _ => b.finished
      | [] => false) then some { w with stack := a :: r.drop 1 }
    else if a.isRec then
      if a.mask = 0 then some { w with stack := r, trapMode := if a.rpc = trapMark then false else w.trapMode }
      else some { w.settle with stack := { a with isRec := false } :: r }
    else if a.rpc = noneMark ∧ !a.isRec ∧ r = [] ∧ w.spilled = 0 then
      some { w with stack := [], base := { a with isRec := false } }
    else none

/-- The tidying, repeated until no case applies; each case removes or resumes one entry. -/
def Warp.tidyN (w : Warp) : Nat → Warp
  | 0 => w
  | n + 1 => match w.tidy1 with
    | some w' => w'.tidyN n
    | none => w

/-- Tidy what stands on chip. -/
def Warp.tidy (w : Warp) : Warp := { w.tidyN (2 * w.stack.length + 2) with issuing := 0 }

/-! ## Advancing -/

/-- Go to the next slot in sequence (R70). -/
def State.advance (s : State) : State := s.modCur (fun w => w.modPath (fun p => { p with pc := p.pc + 1 }))

/-- Go to a slot by an arrival (R73), named by the slot of the transferring instruction. -/
def State.arrive (s : State) (pc2 : DWord) : State :=
  let at_ := s.pc
  s.modCur (fun w => w.modPath (fun p => { p with pc := pc2, arr := some at_, line := none }))

/-- The next free value (log 4). -/
def State.draw (s : State) : State := { s with freeCtr := s.freeCtr + 1 }

end Sys2Proof.Machine
end

