-- ==== Sys2Proof/Machine/Operands.lean ====
section
/-! DEFINITION. Operands: what each instruction reads, writes and names (`uses`), the operand checks of R50 with their causes,
and the registers the checking scoreboard covers (R83). -/
namespace Sys2Proof.Machine

/-- One operand of an instruction, by its field kind (R49). -/
inductive Use where
  /-- vector source of n registers -/
  | vsrc (o : Opd) (n : Nat)
  /-- vector destination of n registers; whether an s code is allowed -/
  | vdst (o : Opd) (n : Nat) (sOk : Bool)
  /-- n consecutive v registers read or written (pack, unpack, ACCRD) -/
  | vread (o : Opd) (n : Nat)
  | vwrite (o : Opd) (n : Nat)
  /-- compare and new values of CAS: n registers, index a multiple of n -/
  | vquad (o : Opd) (n : Nat)
  /-- uniform source or destination of n registers, index a multiple of n -/
  | usrc (o : Opd) (n : Nat)
  | udst (o : Opd) (n : Nat)
  /-- address pair: per-lane codes allowed -/
  | apair (o : Opd)
  /-- address pair: s pair or vz only -/
  | aunif (o : Opd)
  /-- a pair of SPACE or CVTA: v or s; `sOnly` when D is an s code -/
  | pair (o : Opd) (sOnly : Bool)
  | psrc (n : Nat)
  | pdst (n : Nat)
  /-- every predicate read, or written -/
  | pread | pwrite
  /-- operand slots o … o + n − 1 -/
  | slots (o n : Nat)
  /-- tiles t … t + n − 1 -/
  | tiles (t n : Nat)
  /-- a port named by number -/
  | port (p : Nat)
  /-- a special-register index of MOVSR or SETSR -/
  | sreg (idx : Nat) (write : Bool)
  /-- the registers of the checkpoint of RBEGIN (R192) -/
  | ckpt
  deriving DecidableEq, Repr

/-- The types whose operands are 64 bits wide (R99, R124). -/
def Ty.wide : Ty → Bool
  | .b64 | .i64 | .f64 => true
  | _ => false

/-- Registers an operand of a type takes. -/
def tyRegs (t : Ty) : Nat := if Ty.wide t then 2 else 1

/-- Registers an access size takes (R172). -/
def szRegs (z : Size) : Nat := if z = .w64 then 2 else 1

/-- Registers of a scalar conversion kind (R133). -/
def kindRegs (k : Nat) : Nat := if k = 2 ∨ k = 3 ∨ k = 9 then 2 else 1

/-- The source use of a CVT (R135). -/
def cvtSrc (dk sk : Nat) (a : Opd) : Use :=
  if sk = 8 ∧ kindElems dk ≠ 0 then .vread a (kindElems dk) else .vsrc a (kindRegs sk)

/-- The destination use of a CVT (R135). -/
def cvtDst (dk sk : Nat) (d : Opd) : Use :=
  if dk = 8 ∧ kindElems sk ≠ 0 then .vwrite d (kindElems sk) else .vdst d (kindRegs dk) false

/-- The cause of a v or s register range: beyond its file (0x022), or an odd base of a pair (0x023). -/
def rangeCauses (n count lim align : Nat) : List Nat :=
  (if lim < n + count then [0x022] else []) ++ (if n % align ≠ 0 then [0x023] else [])

/-- The causes of R50 that one operand breaks, under the kernel's limits. A q code as ACCRD's D takes 0x021 (`vwrite`), as SLOTWR's source takes
0x002 in the decoder: no rule gives the first, which is the model's choice (log 9). -/
def Use.causes (k : Kernel) : Use → List Nat
  | .vsrc o n => match o with
    | .v r => rangeCauses r n k.vregs n
    | .s r => rangeCauses r n k.sregs n
    | .q p => if k.ports.getLsbD p then [] else [0x025]
    | _ => []
  | .vdst o n sOk => match o with
    | .v r => rangeCauses r n k.vregs n
    | .s r => if sOk then rangeCauses r n k.sregs n else [0x021]
    | .q p => if k.ports.getLsbD p then [] else [0x025]
    | _ => [0x021]
  | .vread o n => match o with
    | .v r => rangeCauses r n k.vregs 1
    | _ => []
  | .vwrite o n => match o with
    | .v r => rangeCauses r n k.vregs 1
    | .s _ => [0x021]
    | .vz => [0x021]
    | .vlane => [0x021]
    | .q _ => [0x021]
  | .vquad o n => match o with
    | .v r => rangeCauses r n k.vregs n
    | .s r => rangeCauses r n k.sregs n
    | _ => []
  | .usrc o n => match o with
    | .s r => rangeCauses r n k.sregs n
    | _ => [0x024]
  | .udst o n => match o with
    | .s r => rangeCauses r n k.sregs n
    | _ => [0x024]
  | .apair o => match o with
    | .v r => rangeCauses r 2 k.vregs 2
    | .s r => rangeCauses r 2 k.sregs 2
    | .q _ => [0x024]
    | _ => []
  | .aunif o => match o with
    | .s r => rangeCauses r 2 k.sregs 2
    | .vz => []
    | _ => [0x024]
  | .pair o sOnly => match o with
    | .v r => if sOnly then [0x024] else rangeCauses r 2 k.vregs 2
    | .s r => rangeCauses r 2 k.sregs 2
    | .q _ => [0x024]
    | _ => if sOnly then [0x024] else []
  | .slots o n => if k.oslots < o + n then [0x026] else []
  | .tiles t n => if k.atiles < t + n then [0x027] else []
  | .port p => if k.ports.getLsbD p then [] else [0x025]
  | .sreg i _ => if 15 ≤ i then [0x020] else []
  | _ => []

/-- The SETSR check of R47: outside trap mode, or a register that only reads. -/
def Use.srCause (trapMode : Bool) : Use → List Nat
  | .sreg i true => if !trapMode || i < 12 then [0x029] else []
  | _ => []

/-- The lowest cause of a list. -/
def lowest (l : List Nat) : Option Nat := l.foldl (fun m c => match m with
  | none => some c
  | some x => some (min x c)) none

/-- Element width of a bound port, in registers (R305): 64-bit elements take two. -/
def Port.regs (p : Port) : Nat := if p.width = 64 then 2 else 1

/-- The ports an instruction's operand names, as a source, a destination or by number (R74). -/
def Use.ports : Use → List Nat
  | .vsrc (.q p) _ => [p]
  | .vdst (.q p) _ _ => [p]
  | .port p => [p]
  | _ => []

/-- The port a vector operand names, with the registers its position takes. -/
def Use.portUse : Use → List (Nat × Nat)
  | .vsrc (.q p) n => [(p, n)]
  | .vdst (.q p) n _ => [(p, n)]
  | _ => []

/-- The operand faults of R50 of an instruction, lowest first (R98, step 4), then a port of the wrong width (R305). -/
def opFault (s : State) (us : List Use) : Option Nat :=
  match lowest (us.flatMap (fun u => u.causes s.wg.kern ++ u.srCause s.cur.trapMode)) with
  | some c => some c
  | none =>
    if us.any (fun u => u.portUse.any (fun pn => match s.cur.ports.getD pn.1 none with
      | some p => decide (p.regs ≠ pn.2)
      | none => false)) then some 0x105 else none

/-- The registers of a v or s code and the ones after it. -/
def opdRegs (o : Opd) (n : Nat) : List PReg :=
  match o with
  | .v r => (List.range n).map (fun i => .v (r + i))
  | .s r => (List.range n).map (fun i => .s (r + i))
  | _ => []

/-- Registers an operand reads (R83). -/
def Use.reads : Use → List PReg
  | .vsrc o n => opdRegs o n
  | .vread o n => opdRegs o n
  | .vquad o n => opdRegs o n
  | .usrc o n => opdRegs o n
  | .apair o => opdRegs o 2
  | .aunif o => opdRegs o 2
  | .pair o _ => opdRegs o 2
  | .psrc n => if n = 31 then [] else [.p n]
  | .pread => (List.range 31).map .p
  | .ckpt => (List.range 31).map .p ++ (List.range 128).map .s ++ (List.range 32).map .v
  | _ => []

/-- Registers an operand writes (R83). -/
def Use.writes : Use → List PReg
  | .vdst o n _ => opdRegs o n
  | .vwrite o n => opdRegs o n
  | .udst o n => opdRegs o n
  | .pdst n => if n = 31 then [] else [.p n]
  | .pwrite => (List.range 31).map .p
  | _ => []

/-- Registers an instruction reads, its guard among them. -/
def readRegs (h : Hdr) (us : List Use) : List PReg := (Use.psrc h.pg).reads ++ us.flatMap Use.reads

/-- Registers an instruction writes. -/
def writeRegs (us : List Use) : List PReg := us.flatMap Use.writes

/-- The end predicates that the pops of an instruction's sources write (R311). -/
def endPreds (w : Warp) (us : List Use) : List PReg :=
  us.flatMap (fun u => match u with
    | .vsrc (.q p) _ => (match w.ports.getD p none with
      | some q => if q.endP = 31 then [] else [.p q.endP]
      | none => [])
    | _ => [])

/-- A breach of R83 by an instruction of a path with header `h`, the end predicates that its pops write included (R311). A uniform register
that the other live path wrote may be read without one (R81). -/
def stallBreach (w : Warp) (h : Hdr) (us : List Use) : Bool :=
  let rs := readRegs h us
  let ws := writeRegs us ++ endPreds w us
  let apart := fun (p : Pend) => (match p.reg with
    | .s _ => w.twoLive && p.path != w.path.pid && (w.stack.take 2).any (fun e => e.pid == p.path)
    | _ => false)
  w.pend.any (fun p => match p.lat with
    | .fixed pid dist lat => pid == w.path.pid && decide (dist < lat) && (rs.contains p.reg || ws.contains p.reg)
    | .var sb _ => (sb == 0 || !(h.wm.getLsbD (sb - 1))) && ((rs.contains p.reg && !apart p) || ws.contains p.reg))

/-- Count registers an instruction changes or reads: those it names, and all of them for RBEGIN, which saves them (R192). What counts as
reading a k register is the model's choice (log 9): adding to one counts. -/
def kNames : Instr → List Nat
  | .waitk _ m => (List.range 16).filter (fun i => m.getLsbD i)
  | .kadd _ k _ => [k]
  | .kaddImm _ k _ => [k]
  | .ownreq _ _ k _ => [k]
  | .frz _ _ k _ _ _ => [k]
  | .thaw _ k _ => [k]
  | .copy _ _ _ _ k _ _ _ => [k]
  | .copyg _ _ _ k _ _ _ => [k]
  | .copygSlot _ _ _ _ _ k _ _ _ => [k]
  | .copym _ _ _ _ _ _ k _ _ _ => [k]
  | .rowcpy _ k _ _ _ => [k]
  | .rowzero _ k _ _ => [k]
  | .rank _ _ _ k _ _ _ => [k]
  | .tgen _ _ k _ _ _ _ => [k]
  | .mma _ _ hk _ _ _ _ _ k => if hk then [k] else []
  | .mmas _ _ hk _ _ _ _ _ _ k => if hk then [k] else []
  | .accld _ _ k _ _ => [k]
  | .accst _ _ k _ _ => [k]
  | .accred _ _ _ _ k _ _ => [k]
  | .rbegin _ _ _ => List.range 16
  | _ => []

/-- Count registers an instruction writes. -/
def kWrites : Instr → List Nat
  | .waitk _ _ => []
  | .rbegin _ _ _ => []
  | i => kNames i

/-- The instruction may write em (R75, R143): MOVEM.wr, EXIT, RET and BREAK, the calls, and a branch that may divide its path. That a call or
a branch counts by its form, whatever its lanes do, is the model's choice (log 9). -/
def writesEm : Instr → Bool
  | .movemWr _ _ => true
  | .exit _ => true
  | .ret _ _ _ => true
  | .breakp _ _ _ _ => true
  | .call _ _ => true
  | .callInd _ _ => true
  | .bra _ u _ _ _ rcv => !u && rcv != 0
  | .brx _ u _ _ _ _ rcv => !u && rcv != 0
  | _ => false

/-- The instruction reads em: MOVEM.rd, and RBEGIN, which saves it (R192). That only these count, and not every instruction's lanes, is the
model's choice (log 9). -/
def readsEm : Instr → Bool
  | .movemRd _ _ => true
  | .rbegin _ _ _ => true
  | _ => false

/-- What each instruction reads, writes and names, by the field kinds of its row in the spec. An event row names nothing. -/
def uses : Instr → List Use
  | .nop _ => []
  | .mov _ ty d a => [.vdst d (tyRegs ty) false, .vsrc a (tyRegs ty)]
  | .movImm _ ty d _ => [.vdst d (tyRegs ty) false]
  | .iadd _ ty _ _ _ d a b => [.vdst d (tyRegs ty) false, .vsrc a (tyRegs ty), .vsrc b (tyRegs ty)]
  | .iaddImm _ ty _ d a _ => [.vdst d (tyRegs ty) false, .vsrc a (tyRegs ty)]
  | .isub _ ty _ d a b => [.vdst d (tyRegs ty) false, .vsrc a (tyRegs ty), .vsrc b (tyRegs ty)]
  | .isubImm _ ty _ d a _ => [.vdst d (tyRegs ty) false, .vsrc a (tyRegs ty)]
  | .iaddc _ ty ci pd d a b => [.pdst pd, .vdst d (tyRegs ty) false, .vsrc a (tyRegs ty), .vsrc b (tyRegs ty), .psrc ci]
  | .iaddcImm _ ty ci pd d a _ => [.pdst pd, .vdst d (tyRegs ty) false, .vsrc a (tyRegs ty), .psrc ci]
  | .imul _ ty _ d a b => [.vdst d (tyRegs ty) false, .vsrc a (tyRegs ty), .vsrc b (tyRegs ty)]
  | .imulImm _ ty _ d a _ => [.vdst d (tyRegs ty) false, .vsrc a (tyRegs ty)]
  | .imulh _ ty d a b => [.vdst d (tyRegs ty) false, .vsrc a (tyRegs ty), .vsrc b (tyRegs ty)]
  | .imulhImm _ ty d a _ => [.vdst d (tyRegs ty) false, .vsrc a (tyRegs ty)]
  | .imad _ ty _ _ d a b c => [.vdst d (tyRegs ty) false, .vsrc a (tyRegs ty), .vsrc b (tyRegs ty), .vsrc c (tyRegs ty)]
  | .imadImm _ ty _ d a _ => [.vdst d (tyRegs ty) false, .vsrc a (tyRegs ty), .vsrc d (tyRegs ty)]
  | .imadw _ _ _ d a b c => [.vdst d (2) false, .vsrc a (1), .vsrc b (1), .vsrc c (2)]
  | .imadwImm _ _ _ d a _ => [.vdst d (2) false, .vsrc a (1), .vsrc d (2)]
  | .imin _ ty d a b => [.vdst d (tyRegs ty) false, .vsrc a (tyRegs ty), .vsrc b (tyRegs ty)]
  | .iminImm _ ty d a _ => [.vdst d (tyRegs ty) false, .vsrc a (tyRegs ty)]
  | .imax _ ty d a b => [.vdst d (tyRegs ty) false, .vsrc a (tyRegs ty), .vsrc b (tyRegs ty)]
  | .imaxImm _ ty d a _ => [.vdst d (tyRegs ty) false, .vsrc a (tyRegs ty)]
  | .iabs _ ty _ d a => [.vdst d (tyRegs ty) false, .vsrc a (tyRegs ty)]
  | .iabsImm _ ty _ d _ => [.vdst d (tyRegs ty) false]
  | .shl _ ty _ d a b => [.vdst d (tyRegs ty) false, .vsrc a (tyRegs ty), .vsrc b (1)]
  | .shlImm _ ty _ d a _ => [.vdst d (tyRegs ty) false, .vsrc a (tyRegs ty)]
  | .shr _ ty d a b => [.vdst d (tyRegs ty) false, .vsrc a (tyRegs ty), .vsrc b (1)]
  | .shrImm _ ty d a _ => [.vdst d (tyRegs ty) false, .vsrc a (tyRegs ty)]
  | .sar _ ty d a b => [.vdst d (tyRegs ty) false, .vsrc a (tyRegs ty), .vsrc b (1)]
  | .sarImm _ ty d a _ => [.vdst d (tyRegs ty) false, .vsrc a (tyRegs ty)]
  | .and _ ty _ _ d a b => [.vdst d (tyRegs ty) false, .vsrc a (tyRegs ty), .vsrc b (tyRegs ty)]
  | .andImm _ ty d a _ => [.vdst d (tyRegs ty) false, .vsrc a (tyRegs ty)]
  | .or _ ty _ _ d a b => [.vdst d (tyRegs ty) false, .vsrc a (tyRegs ty), .vsrc b (tyRegs ty)]
  | .orImm _ ty d a _ => [.vdst d (tyRegs ty) false, .vsrc a (tyRegs ty)]
  | .xor _ ty _ _ d a b => [.vdst d (tyRegs ty) false, .vsrc a (tyRegs ty), .vsrc b (tyRegs ty)]
  | .xorImm _ ty d a _ => [.vdst d (tyRegs ty) false, .vsrc a (tyRegs ty)]
  | .lut3 _ ty _ d a b c => [.vdst d (tyRegs ty) false, .vsrc a (tyRegs ty), .vsrc b (tyRegs ty), .vsrc c (tyRegs ty)]
  | .lut3Imm _ ty _ _ d a _ => [.vdst d (tyRegs ty) false, .vsrc a (tyRegs ty), .vsrc d (tyRegs ty)]
  | .popc _ ty d a => [.vdst d (1) false, .vsrc a (tyRegs ty)]
  | .clz _ ty d a => [.vdst d (1) false, .vsrc a (tyRegs ty)]
  | .bfe _ ty d a b => [.vdst d (tyRegs ty) false, .vsrc a (tyRegs ty), .vsrc b (1)]
  | .bfeImm _ ty d a _ => [.vdst d (tyRegs ty) false, .vsrc a (tyRegs ty)]
  | .bfi _ ty d a b c => [.vdst d (tyRegs ty) false, .vsrc a (tyRegs ty), .vsrc b (1), .vsrc c (tyRegs ty)]
  | .bfiImm _ ty d a _ => [.vdst d (tyRegs ty) false, .vsrc a (tyRegs ty), .vsrc d (tyRegs ty)]
  | .bpick _ d a b c => [.vdst d (1) false, .vsrc a (1), .vsrc b (1), .vsrc c (1)]
  | .bpickImm _ d a _ => [.vdst d (1) false, .vsrc a (1), .vsrc d (1)]
  | .sel _ ty pr _ d a b => [.psrc pr, .vdst d (tyRegs ty) false, .vsrc a (tyRegs ty), .vsrc b (tyRegs ty)]
  | .selImm _ ty pr _ d a _ => [.psrc pr, .vdst d (tyRegs ty) false, .vsrc a (tyRegs ty)]
  | .icmp _ ty _ pd a b => [.pdst pd, .vsrc a (tyRegs ty), .vsrc b (tyRegs ty)]
  | .icmpImm _ ty _ pd a _ => [.pdst pd, .vsrc a (tyRegs ty)]
  | .lea _ ty _ d a b => [.vdst d (tyRegs ty) false, .vsrc a (1), .vsrc b (tyRegs ty)]
  | .leaImm _ ty _ d a _ => [.vdst d (tyRegs ty) false, .vsrc a (1)]
  | .idot4 _ _ _ _ _ d a b c => [.vdst d (1) false, .vsrc a (1), .vsrc b (1), .vsrc c (1)]
  | .umov _ ty d a => [.udst d (tyRegs ty), .usrc a (tyRegs ty)]
  | .umovImm _ ty d _ => [.udst d (tyRegs ty)]
  | .uadd _ ty _ _ _ d a b => [.udst d (tyRegs ty), .usrc a (tyRegs ty), .usrc b (tyRegs ty)]
  | .uaddImm _ ty _ d a _ => [.udst d (tyRegs ty), .usrc a (tyRegs ty)]
  | .usub _ ty _ d a b => [.udst d (tyRegs ty), .usrc a (tyRegs ty), .usrc b (tyRegs ty)]
  | .usubImm _ ty _ d a _ => [.udst d (tyRegs ty), .usrc a (tyRegs ty)]
  | .umul _ ty _ d a b => [.udst d (tyRegs ty), .usrc a (tyRegs ty), .usrc b (tyRegs ty)]
  | .umulImm _ ty _ d a _ => [.udst d (tyRegs ty), .usrc a (tyRegs ty)]
  | .umad _ ty _ _ d a b c => [.udst d (tyRegs ty), .usrc a (tyRegs ty), .usrc b (tyRegs ty), .usrc c (tyRegs ty)]
  | .umadImm _ ty _ d a _ => [.udst d (tyRegs ty), .usrc a (tyRegs ty), .usrc d (tyRegs ty)]
  | .umin _ ty d a b => [.udst d (tyRegs ty), .usrc a (tyRegs ty), .usrc b (tyRegs ty)]
  | .uminImm _ ty d a _ => [.udst d (tyRegs ty), .usrc a (tyRegs ty)]
  | .umax _ ty d a b => [.udst d (tyRegs ty), .usrc a (tyRegs ty), .usrc b (tyRegs ty)]
  | .umaxImm _ ty d a _ => [.udst d (tyRegs ty), .usrc a (tyRegs ty)]
  | .ushl _ ty _ d a b => [.udst d (tyRegs ty), .usrc a (tyRegs ty), .usrc b (1)]
  | .ushlImm _ ty _ d a _ => [.udst d (tyRegs ty), .usrc a (tyRegs ty)]
  | .ushr _ ty d a b => [.udst d (tyRegs ty), .usrc a (tyRegs ty), .usrc b (1)]
  | .ushrImm _ ty d a _ => [.udst d (tyRegs ty), .usrc a (tyRegs ty)]
  | .usar _ ty d a b => [.udst d (tyRegs ty), .usrc a (tyRegs ty), .usrc b (1)]
  | .usarImm _ ty d a _ => [.udst d (tyRegs ty), .usrc a (tyRegs ty)]
  | .uand _ ty _ _ d a b => [.udst d (tyRegs ty), .usrc a (tyRegs ty), .usrc b (tyRegs ty)]
  | .uandImm _ ty d a _ => [.udst d (tyRegs ty), .usrc a (tyRegs ty)]
  | .uor _ ty _ _ d a b => [.udst d (tyRegs ty), .usrc a (tyRegs ty), .usrc b (tyRegs ty)]
  | .uorImm _ ty d a _ => [.udst d (tyRegs ty), .usrc a (tyRegs ty)]
  | .uxor _ ty _ _ d a b => [.udst d (tyRegs ty), .usrc a (tyRegs ty), .usrc b (tyRegs ty)]
  | .uxorImm _ ty d a _ => [.udst d (tyRegs ty), .usrc a (tyRegs ty)]
  | .ucmp _ ty _ pd a b => [.pdst pd, .usrc a (tyRegs ty), .usrc b (tyRegs ty)]
  | .ucmpImm _ ty _ pd a _ => [.pdst pd, .usrc a (tyRegs ty)]
  | .ulea _ ty _ d a b => [.udst d (tyRegs ty), .usrc a (1), .usrc b (tyRegs ty)]
  | .uleaImm _ ty _ d a _ => [.udst d (tyRegs ty), .usrc a (1)]
  | .plut3 _ _ _ _ _ pd pa pb pc => [.pdst pd, .psrc pa, .psrc pb, .psrc pc]
  | .pmovTov _ _ d pa => [.vdst d (1) false, .psrc pa]
  | .pmovFromv _ pd a => [.pdst pd, .vsrc a (1)]
  | .pmovSave _ d => [.vdst d 1 false, .pread]
  | .pmovLoad _ a => [.vsrc a 1, .pwrite]
  | .vote _ _ _ pd pa => [.pdst pd, .psrc pa]
  | .ballot _ _ d pa => [.udst d 4, .psrc pa]
  | .lget _ _ _ ty pd d a b => [.pdst pd, .vdst d (tyRegs ty) false, .vsrc a (tyRegs ty), .vsrc b (1)]
  | .pswap _ _ _ ty d a => [.vdst d (tyRegs ty) false, .vsrc a (tyRegs ty)]
  | .matchv _ ty pd d a => [.pdst pd, .vdst d (1) false, .vsrc a (tyRegs ty)]
  | .lred _ _ _ ty d a => [.vdst d (tyRegs ty) true, .vsrc a (tyRegs ty)]
  | .scan _ _ _ _ ty d a => [.vdst d (tyRegs ty) false, .vsrc a (tyRegs ty)]
  | .readl _ ty d a b => [.udst d (tyRegs ty), .vsrc a (tyRegs ty), .usrc b 1]
  | .readlFirst _ ty d a => [.udst d (tyRegs ty), .vsrc a (tyRegs ty)]
  | .fadd _ ty _ _ _ _ d a b => [.vdst d (tyRegs ty) false, .vsrc a (tyRegs ty), .vsrc b (tyRegs ty)]
  | .faddImm _ ty _ _ d a _ => [.vdst d (tyRegs ty) false, .vsrc a (tyRegs ty)]
  | .fmul _ ty _ _ _ _ d a b => [.vdst d (tyRegs ty) false, .vsrc a (tyRegs ty), .vsrc b (tyRegs ty)]
  | .fmulImm _ ty _ _ d a _ => [.vdst d (tyRegs ty) false, .vsrc a (tyRegs ty)]
  | .ffma _ ty _ _ _ _ _ d a b c => [.vdst d (tyRegs ty) false, .vsrc a (tyRegs ty), .vsrc b (tyRegs ty), .vsrc c (tyRegs ty)]
  | .ffmaImm _ ty _ _ d a _ => [.vdst d (tyRegs ty) false, .vsrc a (tyRegs ty), .vsrc d (tyRegs ty)]
  | .fmin _ ty _ _ d a b => [.vdst d (tyRegs ty) false, .vsrc a (tyRegs ty), .vsrc b (tyRegs ty)]
  | .fminImm _ ty d a _ => [.vdst d (tyRegs ty) false, .vsrc a (tyRegs ty)]
  | .fmax _ ty _ _ d a b => [.vdst d (tyRegs ty) false, .vsrc a (tyRegs ty), .vsrc b (tyRegs ty)]
  | .fmaxImm _ ty d a _ => [.vdst d (tyRegs ty) false, .vsrc a (tyRegs ty)]
  | .fcmp _ ty _ _ _ pd a b => [.pdst pd, .vsrc a (tyRegs ty), .vsrc b (tyRegs ty)]
  | .fcmpImm _ ty _ pd a _ => [.pdst pd, .vsrc a (tyRegs ty)]
  | .fclass _ ty d a => [.vdst d (1) false, .vsrc a (tyRegs ty)]
  | .fclassTest _ ty pd a b => [.pdst pd, .vsrc a (tyRegs ty), .vsrc b 1]
  | .frnd _ ty _ d a => [.vdst d (tyRegs ty) false, .vsrc a (tyRegs ty)]
  | .ffrac _ ty d a => [.vdst d (tyRegs ty) false, .vsrc a (tyRegs ty)]
  | .fscale _ ty _ _ d a b => [.vdst d (tyRegs ty) false, .vsrc a (tyRegs ty), .vsrc b (1)]
  | .cvt _ ty sel sk _ _ d a => [cvtDst (cvtKind ty sel) sk d, cvtSrc (cvtKind ty sel) sk a]
  | .cvtq _ tk sk _ _ d a b c => [.vdst d 1 false, .vsrc a (tyRegs sk), .vsrc b 1] ++ (if tk.grouped then [.vsrc c 1] else [])
  | .dq _ ty kind _ _ d a b c => [.vdst d (tyRegs ty) false, .vsrc a 1, .vsrc b 1] ++ (if kind.grouped then [.vsrc c 1] else [])
  | .rcp _ ty _ d a => [.vdst d (tyRegs ty) false, .vsrc a (tyRegs ty)]
  | .rsq _ ty _ d a => [.vdst d (tyRegs ty) false, .vsrc a (tyRegs ty)]
  | .sqrt _ ty _ _ d a => [.vdst d (tyRegs ty) false, .vsrc a (tyRegs ty)]
  | .exp2 _ ty _ d a => [.vdst d (tyRegs ty) false, .vsrc a (tyRegs ty)]
  | .log2 _ ty _ d a => [.vdst d (tyRegs ty) false, .vsrc a (tyRegs ty)]
  | .sinr _ ty _ d a => [.vdst d (tyRegs ty) false, .vsrc a (tyRegs ty)]
  | .cosr _ ty _ d a => [.vdst d (tyRegs ty) false, .vsrc a (tyRegs ty)]
  | .bra _ _ pr _ _ _ => [.psrc pr]
  | .brx _ _ vv pr _ a _ => [.psrc pr, (if vv then .apair a else .usrc a 2)]
  | .call _ _ => []
  | .callInd _ a => [.usrc a 2]
  | .ret _ pr _ => [.psrc pr]
  | .exit _ => []
  | .breakp _ pr _ _ => [.psrc pr]
  | .movemRd _ d => [.udst d 4]
  | .movemWr _ a => [.usrc a 4]
  | .bar _ _ _ _ _ => []
  | .barg _ _ _ _ => []
  | .launch _ pr a b => [.pdst pr, .apair a, .vsrc b 1]
  | .cancel _ _ => []
  | .cancelId _ _ a => [.usrc a 2]
  | .yieldw _ => []
  | .sleep _ _ => []
  | .sleepWatch _ a _ => [.usrc a 2]
  | .syscall _ d a _ => [.udst d 1, .usrc a 2]
  | .trap _ _ => []
  | .rett _ => []
  | .idend _ => []
  | .time _ _ d => [.udst d 2]
  | .movsr _ idx d => [.udst d (if idx = 13 ∨ idx = 14 then 2 else 1), .sreg idx false]
  | .setsr _ idx a => [.usrc a (if idx = 13 ∨ idx = 14 then 2 else 1), .sreg idx true]
  | .ld _ _ sz _ _ _ _ d a => [.vdst d (szRegs sz) false, .apair a]
  | .st _ _ sz _ _ _ a b => [.apair a, .vsrc b (szRegs sz)]
  | .ldu _ _ sz _ _ _ d a => [.udst d (szRegs sz), .aunif a]
  | .atom _ _ _ sz _ _ d a b => [.vdst d (szRegs sz) false, .apair a, .vsrc b (szRegs sz)]
  | .cas _ _ sz _ _ d a b => [.vdst d (szRegs sz) false, .apair a, .vquad b (2 * szRegs sz)]
  | .red _ _ _ sz _ _ a b => [.apair a, .vsrc b (szRegs sz)]
  | .fence _ _ _ => []
  | .pref _ _ _ _ _ a => [.apair a]
  | .cflush _ _ _ a => [.aunif a]
  | .cinv _ _ _ _ a => [.aunif a]
  | .space _ d a => [.vdst d 1 true, .pair a (match d with | .s _ => true | _ => false)]
  | .cvta _ _ _ d a => [.vdst d 2 true, .pair a (match d with | .s _ => true | _ => false)]
  | .gwin _ d a b => [.udst d 2, .usrc a 1, .usrc b 1]
  | .gwinSelf _ d b => [.udst d 2, .usrc b 1]
  | .spfe _ mode _ d a => [.usrc a 1] ++ (if mode.isTest then [.udst d 1] else [])
  | .hflush _ _ _ a => [.aunif a]
  | .ownreq _ _ _ a => [.usrc a 2]
  | .frz _ _ _ d a b => [.udst d 1, .usrc a 2, .usrc b 2]
  | .thaw _ _ a => [.usrc a 1]
  | .frzq _ d a => [.udst d 2, .usrc a 2]
  | .rbegin _ d a => [.udst d 1, .usrc a 2, .ckpt]
  | .rcommit _ => []
  | .strbIn _ port _ _ _ a b => [.port port, .usrc a 2, .usrc b 2]
  | .strbOut _ port _ _ _ a b => [.port port, .usrc a 2, .usrc b 2]
  | .strbQin _ port _ _ _ _ => [.port port]
  | .strbQout _ port _ _ _ => [.port port]
  | .strstat _ port d => [.port port, .udst d 2]
  | .strflush _ port => [.port port]
  | .strclose _ port => [.port port]
  | .copy _ _ _ _ _ d a b => [.aunif d, .aunif a, .aunif b]
  | .copyg _ _ _ _ d a b => [.aunif d, .aunif a, .aunif b]
  | .copygSlot _ slot _ _ _ _ _ a b => [.slots slot 1, .aunif a, .aunif b]
  | .copym _ slot _ _ _ _ _ _ a b => [.slots slot 1, .aunif a, .aunif b]
  | .waitk _ _ => []
  | .kadd _ _ a => [.usrc a 1]
  | .kaddImm _ _ _ => []
  | .rowcpy _ _ d a c => [.aunif d, .aunif a, .usrc c 1]
  | .rowzero _ _ d c => [.aunif d, .usrc c 1]
  | .rank _ _ _ _ d a b => [.aunif d, .aunif a, .aunif b]
  | .route _ pd d a b c => [.vdst d 2 false, .pdst pd, .vsrc a 2, .vsrc b 1, .vsrc c 1]
  | .tgen _ _ _ d a b c => [.aunif d, .aunif a, .aunif b, .usrc c 2]
  | .claimo _ o n1 => [.slots o (n1 + 1)]
  | .relo _ o n1 => [.slots o (n1 + 1)]
  | .claima _ t n1 => [.tiles t (n1 + 1)]
  | .rela _ t n1 => [.tiles t (n1 + 1)]
  | .mma _ _ _ _ _ t oa ob _ => [.tiles t 1, .slots oa 1, .slots ob 1]
  | .mmas _ _ _ _ _ t oa ob om _ => [.tiles t 1, .slots oa 1, .slots ob 1, .slots om 1]
  | .accz _ t => [.tiles t 1]
  | .accld _ t _ d a => [.tiles t 1, .usrc d 1, .aunif a]
  | .accst _ t _ d a => [.tiles t 1, .usrc d 1, .aunif a]
  | .accred _ _ _ t _ d a => [.tiles t 1, .usrc d 2, .aunif a]
  | .accrd _ t n1 d a => [.tiles t 1, .vwrite d (n1 + 1), .usrc a 1]
  | .slotwr _ _ o d a => [.slots o 1, .vsrc d 1, .usrc a 1]
  | .slotrd _ _ o d a => [.slots o 1, .vdst d 1 false, .usrc a 1]
  | .quadrantIssue _ _ => []
  | .fixedLatencyWriteback _ _ _ => []
  | .variableResultDone _ _ _ => []
  | .sleepWake _ _ => []
  | .yieldExpire _ _ => []
  | .warpSlotFree _ _ => []
  | .trapEntry _ _ _ _ _ => []
  | .impreciseFaultTaken _ _ => []
  | .pendingFaultTimeout _ _ _ => []
  | .remoteRollback _ _ => []
  | .pageWalk _ _ => []
  | .engineWriteLands _ _ => []
  | .copyBlockFetch _ _ => []
  | .copyLateFault _ _ => []
  | .followOnHandoff _ => []
  | .rowBlockWritten _ _ => []
  | .rowSourceWriteback _ => []
  | .rankRowWritten _ _ => []
  | .tgenDone _ => []
  | .anvilOpStart _ _ => []
  | .anvilOpComplete _ => []
  | .accredContributionArrive _ _ => []
  | .accredRoomFreed _ _ => []
  | .tongsPrefetch _ _ _ _ => []
  | .streamBeatWrite _ => []
  | .queueBeatSend _ _ _ => []
  | .freezeInstall _ => []
  | .generationRetirement _ _ _ _ => []
  | .retirementAck _ _ => []
  | .thawOverdue _ => []
  | .launchQueueFront _ => []
  | .launchDispatch => []
  | .dispatchReservation _ => []
  | .workgroupEnd _ => []
  | .launchComplete _ => []
  | .timeLimitExpiry _ => []
  | .preemptRequest _ _ => []
  | .contextSave _ => []
  | .contextRestore _ => []
  | .syscallServiceRun _ => []
  | .serviceDone _ _ => []
  | .serviceTimeout _ => []
  | .tlbInvalidate _ _ _ => []
  | .cancelLaunchCmd _ => []
  | .setJobWindow _ => []
  | .hostCopy _ _ _ => []
  | .unknownCommand _ => []
  | .cxlMemAccess _ _ _ => []
  | .hostCwinAccess _ _ _ _ => []
  | .ownershipTransfer _ _ => []
  | .tenureExpiry _ => []
  | .backinvTimeout _ => []
  | .hostLinkDown _ => []
  | .podFlitReceive _ _ => []
  | .podAckTimer _ => []
  | .podNackTimer _ => []
  | .podResendTimer _ _ => []
  | .planeDark _ _ _ => []
  | .linkSummarySend => []
  | .jobPacketReceive _ => []
  | .jobCompletionReceive _ _ => []
  | .jobRetransmitTimer _ _ _ => []
  | .landingCounterDeadline _ _ _ => []
  | .ethernetPortDown _ => []
  | .windowBoundary => []
  | .ptpSync _ => []
  | .preciseTimeLoss => []
  | .channelCounterSnapshot => []
  | .unitFence _ => []
  | .thermalThrottle _ => []
  | .thermalTrip _ => []
  | .supplyFault _ => []
  | .watchdogExpiry _ => []
  | .coldReset _ => []
  | .spdmRequest _ => []
  | .warmReset => []
  | .partitionReset _ => []
  | .partitionEnable _ _ => []
  | .devstatErrClear => []
  | .rtinvWrite _ => []
  | .planeenWrite _ _ => []
  | .quiesceWrite _ => []
  | .qdoorPush _ _ => []
  | .queueClose _ => []
  | .intmaskWrite _ _ => []
  | .intstatClear _ _ => []
  | .logringEnable _ _ => []
  | .registerWrite _ _ => []
  | .jobResponseReceive _ => []
  | .podFlitSend _ => []
  | .warmResetRetirementTimeout => []

/-- The header of an instruction row. -/
def hdrOf : Instr → Option Hdr
  | .nop h => some h
  | .mov h _ _ _ => some h
  | .movImm h _ _ _ => some h
  | .iadd h _ _ _ _ _ _ _ => some h
  | .iaddImm h _ _ _ _ _ => some h
  | .isub h _ _ _ _ _ => some h
  | .isubImm h _ _ _ _ _ => some h
  | .iaddc h _ _ _ _ _ _ => some h
  | .iaddcImm h _ _ _ _ _ _ => some h
  | .imul h _ _ _ _ _ => some h
  | .imulImm h _ _ _ _ _ => some h
  | .imulh h _ _ _ _ => some h
  | .imulhImm h _ _ _ _ => some h
  | .imad h _ _ _ _ _ _ _ => some h
  | .imadImm h _ _ _ _ _ => some h
  | .imadw h _ _ _ _ _ _ => some h
  | .imadwImm h _ _ _ _ _ => some h
  | .imin h _ _ _ _ => some h
  | .iminImm h _ _ _ _ => some h
  | .imax h _ _ _ _ => some h
  | .imaxImm h _ _ _ _ => some h
  | .iabs h _ _ _ _ => some h
  | .iabsImm h _ _ _ _ => some h
  | .shl h _ _ _ _ _ => some h
  | .shlImm h _ _ _ _ _ => some h
  | .shr h _ _ _ _ => some h
  | .shrImm h _ _ _ _ => some h
  | .sar h _ _ _ _ => some h
  | .sarImm h _ _ _ _ => some h
  | .and h _ _ _ _ _ _ => some h
  | .andImm h _ _ _ _ => some h
  | .or h _ _ _ _ _ _ => some h
  | .orImm h _ _ _ _ => some h
  | .xor h _ _ _ _ _ _ => some h
  | .xorImm h _ _ _ _ => some h
  | .lut3 h _ _ _ _ _ _ => some h
  | .lut3Imm h _ _ _ _ _ _ => some h
  | .popc h _ _ _ => some h
  | .clz h _ _ _ => some h
  | .bfe h _ _ _ _ => some h
  | .bfeImm h _ _ _ _ => some h
  | .bfi h _ _ _ _ _ => some h
  | .bfiImm h _ _ _ _ => some h
  | .bpick h _ _ _ _ => some h
  | .bpickImm h _ _ _ => some h
  | .sel h _ _ _ _ _ _ => some h
  | .selImm h _ _ _ _ _ _ => some h
  | .icmp h _ _ _ _ _ => some h
  | .icmpImm h _ _ _ _ _ => some h
  | .lea h _ _ _ _ _ => some h
  | .leaImm h _ _ _ _ _ => some h
  | .idot4 h _ _ _ _ _ _ _ _ => some h
  | .umov h _ _ _ => some h
  | .umovImm h _ _ _ => some h
  | .uadd h _ _ _ _ _ _ _ => some h
  | .uaddImm h _ _ _ _ _ => some h
  | .usub h _ _ _ _ _ => some h
  | .usubImm h _ _ _ _ _ => some h
  | .umul h _ _ _ _ _ => some h
  | .umulImm h _ _ _ _ _ => some h
  | .umad h _ _ _ _ _ _ _ => some h
  | .umadImm h _ _ _ _ _ => some h
  | .umin h _ _ _ _ => some h
  | .uminImm h _ _ _ _ => some h
  | .umax h _ _ _ _ => some h
  | .umaxImm h _ _ _ _ => some h
  | .ushl h _ _ _ _ _ => some h
  | .ushlImm h _ _ _ _ _ => some h
  | .ushr h _ _ _ _ => some h
  | .ushrImm h _ _ _ _ => some h
  | .usar h _ _ _ _ => some h
  | .usarImm h _ _ _ _ => some h
  | .uand h _ _ _ _ _ _ => some h
  | .uandImm h _ _ _ _ => some h
  | .uor h _ _ _ _ _ _ => some h
  | .uorImm h _ _ _ _ => some h
  | .uxor h _ _ _ _ _ _ => some h
  | .uxorImm h _ _ _ _ => some h
  | .ucmp h _ _ _ _ _ => some h
  | .ucmpImm h _ _ _ _ _ => some h
  | .ulea h _ _ _ _ _ => some h
  | .uleaImm h _ _ _ _ _ => some h
  | .plut3 h _ _ _ _ _ _ _ _ => some h
  | .pmovTov h _ _ _ => some h
  | .pmovFromv h _ _ => some h
  | .pmovSave h _ => some h
  | .pmovLoad h _ => some h
  | .vote h _ _ _ _ => some h
  | .ballot h _ _ _ => some h
  | .lget h _ _ _ _ _ _ _ => some h
  | .pswap h _ _ _ _ _ => some h
  | .matchv h _ _ _ _ => some h
  | .lred h _ _ _ _ _ => some h
  | .scan h _ _ _ _ _ _ => some h
  | .readl h _ _ _ _ => some h
  | .readlFirst h _ _ _ => some h
  | .fadd h _ _ _ _ _ _ _ _ => some h
  | .faddImm h _ _ _ _ _ _ => some h
  | .fmul h _ _ _ _ _ _ _ _ => some h
  | .fmulImm h _ _ _ _ _ _ => some h
  | .ffma h _ _ _ _ _ _ _ _ _ _ => some h
  | .ffmaImm h _ _ _ _ _ _ => some h
  | .fmin h _ _ _ _ _ _ => some h
  | .fminImm h _ _ _ _ => some h
  | .fmax h _ _ _ _ _ _ => some h
  | .fmaxImm h _ _ _ _ => some h
  | .fcmp h _ _ _ _ _ _ _ => some h
  | .fcmpImm h _ _ _ _ _ => some h
  | .fclass h _ _ _ => some h
  | .fclassTest h _ _ _ _ => some h
  | .frnd h _ _ _ _ => some h
  | .ffrac h _ _ _ => some h
  | .fscale h _ _ _ _ _ _ => some h
  | .cvt h _ _ _ _ _ _ _ => some h
  | .cvtq h _ _ _ _ _ _ _ _ => some h
  | .dq h _ _ _ _ _ _ _ _ => some h
  | .rcp h _ _ _ _ => some h
  | .rsq h _ _ _ _ => some h
  | .sqrt h _ _ _ _ _ => some h
  | .exp2 h _ _ _ _ => some h
  | .log2 h _ _ _ _ => some h
  | .sinr h _ _ _ _ => some h
  | .cosr h _ _ _ _ => some h
  | .bra h _ _ _ _ _ => some h
  | .brx h _ _ _ _ _ _ => some h
  | .call h _ => some h
  | .callInd h _ => some h
  | .ret h _ _ => some h
  | .exit h => some h
  | .breakp h _ _ _ => some h
  | .movemRd h _ => some h
  | .movemWr h _ => some h
  | .bar h _ _ _ _ => some h
  | .barg h _ _ _ => some h
  | .launch h _ _ _ => some h
  | .cancel h _ => some h
  | .cancelId h _ _ => some h
  | .yieldw h => some h
  | .sleep h _ => some h
  | .sleepWatch h _ _ => some h
  | .syscall h _ _ _ => some h
  | .trap h _ => some h
  | .rett h => some h
  | .idend h => some h
  | .time h _ _ => some h
  | .movsr h _ _ => some h
  | .setsr h _ _ => some h
  | .ld h _ _ _ _ _ _ _ _ => some h
  | .st h _ _ _ _ _ _ _ => some h
  | .ldu h _ _ _ _ _ _ _ => some h
  | .atom h _ _ _ _ _ _ _ _ => some h
  | .cas h _ _ _ _ _ _ _ => some h
  | .red h _ _ _ _ _ _ _ => some h
  | .fence h _ _ => some h
  | .pref h _ _ _ _ _ => some h
  | .cflush h _ _ _ => some h
  | .cinv h _ _ _ _ => some h
  | .space h _ _ => some h
  | .cvta h _ _ _ _ => some h
  | .gwin h _ _ _ => some h
  | .gwinSelf h _ _ => some h
  | .spfe h _ _ _ _ => some h
  | .hflush h _ _ _ => some h
  | .ownreq h _ _ _ => some h
  | .frz h _ _ _ _ _ => some h
  | .thaw h _ _ => some h
  | .frzq h _ _ => some h
  | .rbegin h _ _ => some h
  | .rcommit h => some h
  | .strbIn h _ _ _ _ _ _ => some h
  | .strbOut h _ _ _ _ _ _ => some h
  | .strbQin h _ _ _ _ _ => some h
  | .strbQout h _ _ _ _ => some h
  | .strstat h _ _ => some h
  | .strflush h _ => some h
  | .strclose h _ => some h
  | .copy h _ _ _ _ _ _ _ => some h
  | .copyg h _ _ _ _ _ _ => some h
  | .copygSlot h _ _ _ _ _ _ _ _ => some h
  | .copym h _ _ _ _ _ _ _ _ _ => some h
  | .waitk h _ => some h
  | .kadd h _ _ => some h
  | .kaddImm h _ _ => some h
  | .rowcpy h _ _ _ _ => some h
  | .rowzero h _ _ _ => some h
  | .rank h _ _ _ _ _ _ => some h
  | .route h _ _ _ _ _ => some h
  | .tgen h _ _ _ _ _ _ => some h
  | .claimo h _ _ => some h
  | .relo h _ _ => some h
  | .claima h _ _ => some h
  | .rela h _ _ => some h
  | .mma h _ _ _ _ _ _ _ _ => some h
  | .mmas h _ _ _ _ _ _ _ _ _ => some h
  | .accz h _ => some h
  | .accld h _ _ _ _ => some h
  | .accst h _ _ _ _ => some h
  | .accred h _ _ _ _ _ _ => some h
  | .accrd h _ _ _ _ => some h
  | .slotwr h _ _ _ _ => some h
  | .slotrd h _ _ _ _ => some h
  | .quadrantIssue _ _ => none
  | .fixedLatencyWriteback _ _ _ => none
  | .variableResultDone _ _ _ => none
  | .sleepWake _ _ => none
  | .yieldExpire _ _ => none
  | .warpSlotFree _ _ => none
  | .trapEntry _ _ _ _ _ => none
  | .impreciseFaultTaken _ _ => none
  | .pendingFaultTimeout _ _ _ => none
  | .remoteRollback _ _ => none
  | .pageWalk _ _ => none
  | .engineWriteLands _ _ => none
  | .copyBlockFetch _ _ => none
  | .copyLateFault _ _ => none
  | .followOnHandoff _ => none
  | .rowBlockWritten _ _ => none
  | .rowSourceWriteback _ => none
  | .rankRowWritten _ _ => none
  | .tgenDone _ => none
  | .anvilOpStart _ _ => none
  | .anvilOpComplete _ => none
  | .accredContributionArrive _ _ => none
  | .accredRoomFreed _ _ => none
  | .tongsPrefetch _ _ _ _ => none
  | .streamBeatWrite _ => none
  | .queueBeatSend _ _ _ => none
  | .freezeInstall _ => none
  | .generationRetirement _ _ _ _ => none
  | .retirementAck _ _ => none
  | .thawOverdue _ => none
  | .launchQueueFront _ => none
  | .launchDispatch => none
  | .dispatchReservation _ => none
  | .workgroupEnd _ => none
  | .launchComplete _ => none
  | .timeLimitExpiry _ => none
  | .preemptRequest _ _ => none
  | .contextSave _ => none
  | .contextRestore _ => none
  | .syscallServiceRun _ => none
  | .serviceDone _ _ => none
  | .serviceTimeout _ => none
  | .tlbInvalidate _ _ _ => none
  | .cancelLaunchCmd _ => none
  | .setJobWindow _ => none
  | .hostCopy _ _ _ => none
  | .unknownCommand _ => none
  | .cxlMemAccess _ _ _ => none
  | .hostCwinAccess _ _ _ _ => none
  | .ownershipTransfer _ _ => none
  | .tenureExpiry _ => none
  | .backinvTimeout _ => none
  | .hostLinkDown _ => none
  | .podFlitReceive _ _ => none
  | .podAckTimer _ => none
  | .podNackTimer _ => none
  | .podResendTimer _ _ => none
  | .planeDark _ _ _ => none
  | .linkSummarySend => none
  | .jobPacketReceive _ => none
  | .jobCompletionReceive _ _ => none
  | .jobRetransmitTimer _ _ _ => none
  | .landingCounterDeadline _ _ _ => none
  | .ethernetPortDown _ => none
  | .windowBoundary => none
  | .ptpSync _ => none
  | .preciseTimeLoss => none
  | .channelCounterSnapshot => none
  | .unitFence _ => none
  | .thermalThrottle _ => none
  | .thermalTrip _ => none
  | .supplyFault _ => none
  | .watchdogExpiry _ => none
  | .coldReset _ => none
  | .spdmRequest _ => none
  | .warmReset => none
  | .partitionReset _ => none
  | .partitionEnable _ _ => none
  | .devstatErrClear => none
  | .rtinvWrite _ => none
  | .planeenWrite _ _ => none
  | .quiesceWrite _ => none
  | .qdoorPush _ _ => none
  | .queueClose _ => none
  | .intmaskWrite _ _ => none
  | .intstatClear _ _ => none
  | .logringEnable _ _ => none
  | .registerWrite _ _ => none
  | .jobResponseReceive _ => none
  | .podFlitSend _ => none
  | .warmResetRetirementTimeout => none

/-- A breach of R75 between the instruction of slot j and that of slot j + 1, whichever registers of v, s, p, k and em
they read and write. -/
def pairBreach (w : Warp) (i j : Instr) : Bool :=
  match hdrOf j with
  | none => false
  | some hj =>
    let wi := writeRegs (uses i) ++ endPreds w (uses i)
    let wj := writeRegs (uses j) ++ endPreds w (uses j)
    wi.any (fun r => (readRegs hj (uses j)).contains r || wj.contains r) ||
    (kWrites i).any (fun k => (kNames j).contains k) || (writesEm i && readsEm j)

end Sys2Proof.Machine
end

