-- ==== Sys2Proof/Machine/FmtSlot.lean ====
section
/-! DEFINITION. Format slots (R28–R31) and the slots an MMA reads by them (R219, R288–R290). -/
namespace Sys2Proof.Machine

/-- A format slot, read (R28). -/
structure FSlot where
  af : Nat
  bf : Nat
  gs : Nat
  sk : Nat
  sl : Nat
  zw : Nat
  spn : Nat
  spo : Nat
  deriving DecidableEq, Repr

/-- The fields of a descriptor (R28). -/
def fslotOf (d : DWord) : FSlot :=
  let n := d.toNat
  { af := bits n 3 0, bf := bits n 7 4, gs := bits n 9 8, sk := bits n 11 10, sl := bits n 12 12, zw := bits n 14 13,
    spn := bits n 21 15, spo := bits n 22 22 }

/-- A format slot passes R28 to R30, or is empty (R31). -/
def fslotOk (d : DWord) : Bool :=
  let f := fslotOf d
  d == 0 || (decide (d.toNat / 2 ^ 23 = 0 ∧ f.gs ≠ 3 ∧ f.sk ≠ 3 ∧ f.zw ≠ 3 ∧ (f.spn = 0 ∨ f.spn = 32) ∧
      (f.sk = 0 → f.sl = 0) ∧ (f.spn = 0 → f.spo = 0)) &&
    (match f.af, f.bf with
     | 1, 1 | 1, 2 | 2, 1 | 2, 2 | 5, 5 | 8, 8 | 9, 9 => decide (f.sk = 0 ∧ f.gs = 0 ∧ f.zw = 0)
     | 4, 4 | 3, 3 => decide (f.sk = 1 ∧ f.gs = 0 ∧ f.zw = 0)
     | 1, 6 => decide (f.sk = 2 ∧ f.zw ≤ 1)
     | 1, 7 => decide (f.sk = 2 ∧ (f.zw = 0 ∨ f.zw = 2))
     | _, _ => false))

/-- Bits of an element of a format code (R29). -/
def fmtBits : Nat → Nat
  | 3 => 4
  | 6 => 4
  | 8 => 16
  | 9 => 16
  | _ => 8

/-- The dense K of one instruction (R219): doubled for MMAS. -/
def FSlot.k (f : FSlot) : Nat :=
  (if f.af = 3 ∨ f.bf = 6 then 256 else if f.af = 8 ∨ f.af = 9 then 64 else 128) * (if f.spn = 32 then 2 else 1)

/-- Group size (R28). -/
def FSlot.g (f : FSlot) : Nat := 32 * 2 ^ f.gs
/-- A grouped pair. -/
def FSlot.grouped (f : FSlot) : Bool := f.sk == 2
/-- A block-scaled pair. -/
def FSlot.blocked (f : FSlot) : Bool := f.sk == 1

/-- The unit U (R32). -/
def FSlot.unit (f : FSlot) (sg : Nat) : Nat :=
  if f.grouped then (match sg with
    | 0 => f.g
    | 1 => min f.g 64
    | 2 => 32
    | _ => 16)
  else if sg = 3 then 16 else 32

/-- The operand is the sparse one: `b` for operand B. -/
def FSlot.isSparse (f : FSlot) (b : Bool) : Bool := decide (f.spn = 32) && (f.spo == if b then 1 else 0)

/-- Data slots of an operand (R219, R288): 128 bytes of each packed row to a slot. -/
def FSlot.dataSlots (f : FSlot) (b : Bool) : Nat :=
  let k := if f.isSparse b then f.k / 2 else f.k
  (k * fmtBits (if b then f.bf else f.af) / 8 + 127) / 128

/-- The operand has scales of its own. -/
def FSlot.hasSide (f : FSlot) (b : Bool) : Bool := f.blocked || (f.grouped && b)

/-- The slot whose side area holds an operand's scales (R28, R289). -/
def FSlot.sideSlot (f : FSlot) (b : Bool) (o : Nat) : Nat := if f.sl = 0 then o else o + f.dataSlots b

/-- Metadata slots (R290). -/
def FSlot.metaSlots (f : FSlot) : Nat := (f.k + 255) / 256

/-- Every slot that an MMA or MMAS reads (R216, R219). -/
def FSlot.reads (f : FSlot) (oa ob om : Nat) : List Nat :=
  let one := fun (b : Bool) (o : Nat) => (List.range (f.dataSlots b)).map (fun i => o + i) ++
    (if f.hasSide b then [f.sideSlot b o] else [])
  (one false oa ++ one true ob ++ (if f.spn = 32 then (List.range f.metaSlots).map (fun i => om + i) else [])).eraseDups

/-- Scales and zero points fit the side area (R219). -/
def FSlot.sideFits (f : FSlot) : Bool :=
  if f.grouped then
    let n := 128 * (f.k / f.g)
    decide (2 * n ≤ 2048) && decide ((if f.zw = 0 then 0 else if f.zw = 1 then n / 2 else n) ≤ 2048)
  else if f.blocked then decide (128 * (f.k / 32) ≤ 2048) else true

/-- The operand slots that an instruction reads without naming them, where its format slot gives them (R216). -/
def implicitUses (g : Wgroup) : Instr → List Use
  | .mma _ _ _ _ fs _ oa ob _ =>
    let d := g.fs.getD fs 0
    if d = 0 ∨ (fslotOf d).spn ≠ 0 then [] else ((fslotOf d).reads oa ob 0).map (fun o => .slots o 1)
  | .mmas _ _ _ _ fs _ oa ob om _ =>
    let d := g.fs.getD fs 0
    if d = 0 ∨ (fslotOf d).spn ≠ 32 then [] else ((fslotOf d).reads oa ob om).map (fun o => .slots o 1)
  | _ => []

end Sys2Proof.Machine
end

