-- ==== Sys2Proof/Machine/Exec.lean ====
section
/-! DEFINITION. The frame every instruction's meaning runs in: the checks of R98 after decoding (operands, scoreboard, pair
independence), the effect, and what issuing leaves behind (scoreboard counts, counted distances, the next slot). -/
namespace Sys2Proof.Machine

/-- What an instruction's effect comes to. -/
inductive Eff where
  /-- done: the path goes on at the next slot -/
  | ok (s : State)
  /-- a precise trap: nothing of the effect stands (R272) -/
  | trap (cause : Nat) (addr : DWord)
  /-- a precise trap that first records where a stream's deferred fault stands (R316) -/
  | trapIn (s : State) (cause : Nat) (addr : DWord)
  /-- held at issue: the instruction has not issued (R240) -/
  | hold (s : State)
  /-- done, and the effect has itself placed the path (a transfer, a trap with partial effects, an end) -/
  | moved (s : State)

/-- The instruction's class, OP[9:7] (R94), from its word. -/
def opClass (i : Instr) : Nat := encode i % 1024 / 128

/-- The disable group of R277 (0x009–0x00F) an instruction belongs to by its opcode or scope. -/
def disableGroup (i : Instr) : Option Nat :=
  let op := encode i % 1024
  if op / 128 = 6 then some 0
  else if op = 0x280 ∨ op = 0x281 ∨ op = 0x282 then some 1
  else if op = 0x285 ∨ op = 0x286 ∨ op = 0x287 then some 2
  else match i with
    | .launch _ _ _ _ => some 3
    | .cancelId _ _ _ => some 3
    | .frz _ _ _ _ _ _ => some 5
    | .thaw _ _ _ => some 5
    | .syscall _ _ _ _ => some 6
    | .ld _ _ _ sc _ _ _ _ _ => if sc = .pod ∨ sc = .job then some 4 else none
    | .ldu _ _ _ sc _ _ _ _ => if sc = .pod ∨ sc = .job then some 4 else none
    | .atom _ _ _ _ sc _ _ _ _ => if sc = .pod ∨ sc = .job then some 4 else none
    | .cas _ _ _ sc _ _ _ _ => if sc = .pod ∨ sc = .job then some 4 else none
    | .red _ _ _ _ sc _ _ _ => if sc = .pod ∨ sc = .job then some 4 else none
    | .fence _ _ sc => if sc = .pod ∨ sc = .job then some 4 else none
    | _ => none

/-- An FRZ at .pod or .job is in two groups: 0x00D is reported first (log 9). -/
def disabledCause (s : State) (i : Instr) : Option Nat :=
  let d := (s.part s.wg.part).disable
  let remote := match i with
    | .frz _ sc _ _ _ _ => decide (sc = .pod ∨ sc = .job)
    | _ => false
  if remote && d.getLsbD 4 then some 0x00D
  else match disableGroup i with
    | some g => if d.getLsbD g then some (0x009 + g) else none
    | none => none

/-- The line word's PT bit of the slot being issued, and the instruction of the next slot of its line (R72, R75). -/
def State.paired (s : State) : Option Instr :=
  let j := s.pc.toNat % 5
  match s.cur.path.line with
  | some (_, bs) =>
    if j < 4 ∧ bits (recField bs 60 4) (5 + j) (5 + j) = 1 then
      match decodeWord (leNat ((bs.drop (12 * (j + 1))).take 12)) with
      | .ok i => some i
      | .error _ => none
    else none
  | none => none

/-- The PT bit of the slot being issued. -/
def State.ptBit (s : State) : Bool :=
  let j := s.pc.toNat % 5
  match s.cur.path.line with
  | some (_, bs) => decide (j < 4 ∧ bits (recField bs 60 4) (5 + j) (5 + j) = 1)
  | none => false

/-- The first failing check of an instruction that has passed decoding: disabled groups, operands (R50), 0x007 (R83, where the launch checks, R242),
0x008 (R75), in that order (R98, log 9). -/
def issueCause (s : State) (i : Instr) (h : Hdr) : Option Nat :=
  match disabledCause s i with
  | some c => some c
  | none => match opFault s (uses i ++ implicitUses s.wg i) with
    | some c => some c
    | none =>
      if s.wg.check && stallBreach s.cur h (uses i) then some 0x007
      else if s.wg.check && (match s.paired with
        | some j => pairBreach s.cur i j
        | none => false) then some 0x008
      else none

/-- Results whose entry the instruction waits on are done (R82); a class 3 instruction finds every fixed-latency result
complete (R93). -/
def Warp.waited (w : Warp) (h : Hdr) (cls3 : Bool) : Warp :=
  { w with pend := w.pend.filter (fun p => match p.lat with
      | .fixed _ _ _ => !cls3
      | .var sb _ => sb == 0 || !(h.wm.getLsbD (sb - 1))) }

/-- The counted distance an instruction adds (R81). -/
def countOf (pt : Bool) (h : Hdr) : Nat := if pt && h.st == 0 then 0 else max 1 h.st

/-- Advance the counted distances of a path, dropping fixed-latency results that are complete (R81). -/
def Warp.countUp (w : Warp) (pid c : Nat) : Warp :=
  { w with pend := w.pend.filterMap (fun p => match p.lat with
      | .fixed q dist lat =>
        if q = pid then (if dist + c < lat then some { p with lat := .fixed q (dist + c) lat } else none) else some p
      | .var _ _ => some p) }

/-- Count an issued instruction in its scoreboard entry (R82). -/
def Warp.countSb (w : Warp) (e : Nat) : Warp :=
  if e = 0 then w else { w with sb := w.sb.setIfInBounds (e - 1) (w.sb.getD (e - 1) 0 + 1) }

/-- What issuing leaves behind besides the next slot: the scoreboard count and the counted distances. -/
def State.issued (s : State) (h : Hdr) (pt : Bool) (pid : Nat) : State :=
  s.modCur (fun w => (w.countSb h.sb).countUp pid (countOf pt h))

/-- An access that waits for a transfer which the silent host has stopped (0x16B), or that reads poisoned host data (0x16D): the warp takes
the cause imprecisely, and the instruction goes on waiting (R366, R277). -/
def State.hostSilent (s : State) (cause : Nat) (a : DWord) : State :=
  if s.cur.pendFaults.any (fun f => f.cause == cause && f.epc == s.pc) then s else s.post s.cur.id cause s.pc a s.cur.path.pid

/-- A fault of an instruction that has had no effect: taken at once, but for the imprecise 0x16B and 0x16D. -/
def State.stopAt (s : State) (cause : Nat) (a : DWord) : State :=
  if cause = 0x16B ∨ cause = 0x16D then s.hostSilent cause a else s.precise cause a

/-- The fault stands recorded against a prefetched element of a port (R316), so that its walk error has been logged. -/
def State.recorded (s : State) (cause : Nat) (a : DWord) : Bool :=
  s.cur.ports.toList.any (fun o => match o with
    | some p => p.pre.any (fun e => e.fault == some (cause, a))
    | none => false)

/-- A fault of a pop is taken; a walk error that the tongs met is logged no second time (R278). -/
def State.popFault (s t : State) (cause : Nat) (a : DWord) : State :=
  if isWalkError cause && s.recorded cause a then (match t.enter cause t.pc a with
    | .ok u => u
    | .error (p, va) => t.pathWaits p va)
  else t.stopAt cause a

/-- THE FRAME OF AN INSTRUCTION: its checks in the order of R98, its effect on the active lanes, and its issue. DESIGN CHOICE (log 83): R75
speaks of lanes of registers; a k register or em that slot j writes and slot j + 1 reads under PT gives the new value, with checking off too. -/
def run (i : Instr) (h : Hdr) (eff : State → Mask → Eff) (s : State) : Host.Outcome State Fault Refusal :=
  let pt := s.ptBit
  let pid := s.cur.path.pid
  let s1 := s.modCur (fun w => if opClass i = 3 then w.settle else w)
  match issueCause s1 i h with
  | some c => .next (s1.precise c 0)
  | none =>
    let s2 := (s1.modCur (fun w => w.waited h (opClass i = 3))).draw
    match eff s2 (s2.active h) with
    | .ok t => .next ((t.issued h pt pid).advance)
    | .trap c a => .next (s2.stopAt c a)
    | .trapIn t c a => .next (s2.popFault t c a)
    | .hold t => .next t
    | .moved t => .next (t.issued h pt pid)

/-- A result of fixed latency (R81). -/
def State.fixed (s : State) (n : Nat) : Lat := .fixed s.cur.path.pid 0 n

/-- A result of variable latency (R82). -/
def varLat (h : Hdr) : Lat := .var h.sb false

end Sys2Proof.Machine
end

