-- ==== Sys2Proof/Machine/Layout.lean ====
section
/-! DEFINITION. Layout records (R65, R292), the order in which their elements are visited (R293, R294), the swizzle (R295), and
the byte accesses of the engines and the tongs at the point of coherence (R203, R296, R315). -/
namespace Sys2Proof.Machine

/-- A layout record, read (R65). -/
structure Lay where
  mode : Nat
  esz : Nat
  ndim : Nat
  swz : Nat
  ibx : Nat
  iby : Nat
  ext : List Nat
  stride : List Int
  fill : Nat
  pad : List Nat
  deriving DecidableEq, Repr

/-- A 64-bit field as a signed number. -/
def signed64 (n : Nat) : Int := if n < 2 ^ 63 then n else (n : Int) - 2 ^ 64

/-- The fields of 64 record bytes (R65). -/
def layOf (r : List Byte) : Lay :=
  let b0 := recField r 0 1
  { mode := b0 % 16, esz := b0 / 16 % 8, ndim := recField r 1 1, swz := recField r 2 1 % 8,
    ibx := recField r 4 2, iby := recField r 6 2,
    ext := (List.range 4).map (fun d => recField r (8 + 4 * d) 4),
    stride := (List.range 4).map (fun d => signed64 (recField r (24 + 8 * d) 8)),
    fill := recField r 56 4, pad := (List.range 4).map (fun i => recField r (60 + i) 1) }

/-- Extent of dimension d: 1 at or above NDIM (R293). -/
def Lay.e (l : Lay) (d : Nat) : Nat := if d < l.ndim then l.ext.getD d 0 else 1
/-- Stride of dimension d. -/
def Lay.st (l : Lay) (d : Nat) : Int := l.stride.getD d 0
/-- Low padding of dimension 1 or 2, and high padding. -/
def Lay.low (l : Lay) (d : Nat) : Nat := l.pad.getD (2 * (d - 1)) 0
/-- High padding. -/
def Lay.high (l : Lay) (d : Nat) : Nat := l.pad.getD (2 * (d - 1) + 1) 0

/-- The record meets R65 and R292. -/
def recordOk (r : List Byte) : Bool :=
  let l := layOf r
  let dims := List.range 4
  decide (recField r 0 1 / 128 = 0 ∧ l.mode ≤ 2 ∧ l.esz ≤ 4 ∧ 1 ≤ l.ndim ∧ l.ndim ≤ 4 ∧ recField r 2 1 / 8 = 0 ∧
    recField r 3 1 = 0) &&
  dims.all (fun d => if d < l.ndim then decide (1 ≤ l.ext.getD d 0) else decide (l.ext.getD d 0 = 0 ∧ l.st d = 0)) &&
  (match l.mode with
   | 0 => decide (l.ibx = 0 ∧ l.iby = 0)
   | 1 => decide (1 ≤ l.ibx ∧ l.ibx ≤ 128 ∧ 1 ≤ l.iby ∧ l.iby ≤ 128 ∧ 2 ≤ l.ndim ∧ l.e 0 % l.ibx = 0 ∧ l.e 1 % l.iby = 0)
   | _ => decide (1 ≤ l.ibx ∧ l.ibx ≤ 128 ∧ 1 ≤ l.iby ∧ l.iby ≤ 128 ∧ 3 ≤ l.ndim ∧ l.e 1 % l.ibx = 0 ∧ l.e 2 % l.iby = 0 ∧
       l.low 1 + l.high 1 ≤ l.e 1 ∧ l.low 2 + l.high 2 ≤ l.e 2)) &&
  (decide (l.mode = 2) || decide (recField r 60 4 = 0)) &&
  (decide (l.esz ≠ 0) || decide (l.st 0 = 0 ∧ l.e 0 % 2 = 0 ∧ (l.mode ≠ 1 ∨ l.ibx % 2 = 0)))

/-- Bits of an element: 4, 8, 16, 32, 64. -/
def Lay.width (l : Lay) : Nat := 4 * 2 ^ l.esz
/-- Elements in all. -/
def Lay.count (l : Lay) : Nat := l.e 0 * l.e 1 * l.e 2 * l.e 3
/-- Bytes of the contiguous side (T of R206). -/
def Lay.bytes (l : Lay) : Nat := (l.count * l.width + 7) / 8
/-- Elements of one inner block (R294). -/
def Lay.blockElems (l : Lay) : Nat :=
  match l.mode with
  | 0 => l.e 0
  | 1 => l.ibx * l.iby
  | _ => l.ibx * l.iby * l.e 0
/-- Inner blocks in all. -/
def Lay.blocks (l : Lay) : Nat := l.count / l.blockElems

/-- Where the j-th element visited lies relative to the base (R293): byte offset and nibble; `none` for a FILL element. -/
def Lay.visit (l : Lay) (j : Nat) : Option (Int × Nat) :=
  let b := j / l.blockElems
  let r := j % l.blockElems
  let at_ := fun (i0 i1 i2 i3 : Nat) =>
    let off : Int := i1 * l.st 1 + i2 * l.st 2 + i3 * l.st 3
    if l.esz = 0 then (off + (i0 / 2 : Nat), i0 % 2) else (off + i0 * l.st 0, 0)
  match l.mode with
  | 0 => some (at_ r (b % l.e 1) (b / l.e 1 % l.e 2) (b / l.e 1 / l.e 2))
  | 1 =>
    let nx := l.e 0 / l.ibx
    let ny := l.e 1 / l.iby
    some (at_ (b % nx * l.ibx + r % l.ibx) (b / nx % ny * l.iby + r / l.ibx) (b / nx / ny % l.e 2) (b / nx / ny / l.e 2))
  | _ =>
    let nx := l.e 1 / l.ibx
    let ny := l.e 2 / l.iby
    let i1 := b % nx * l.ibx + r / l.e 0 % l.ibx
    let i2 := b / nx % ny * l.iby + r / l.e 0 / l.ibx
    if l.low 1 ≤ i1 ∧ i1 < l.e 1 - l.high 1 ∧ l.low 2 ≤ i2 ∧ i2 < l.e 2 - l.high 2
    then some (at_ (r % l.e 0) (i1 - l.low 1) (i2 - l.low 2) (b / nx / ny)) else none

/-- The bytes of the j-th element: its first address, byte count and nibble; `none` for FILL. -/
def Lay.elem (l : Lay) (base : DWord) (j : Nat) : Option (DWord × Nat × Nat) :=
  (l.visit j).map (fun p => (base + BitVec.ofInt 64 p.1, max 1 (l.width / 8), p.2))

/-- The swizzled offset of a contiguous position (R295). -/
def swizzle (swz o : Nat) : Nat :=
  if swz = 0 then o
  else
    let c := o / 16 % 8
    let c' := Nat.xor c (o / 128 / 2 ^ (swz - 1) % 8)
    o - 16 * c + 16 * c'

/-! ## Byte accesses of engines -/

/-- The access of one byte by an engine or the tongs: `kind` 0 read, 1 write, 2 ACCRED. -/
def engAccess (kind : Nat) : Access :=
  { kind := kind, perm := ⟨decide (kind ≠ 1), decide (kind ≠ 0), false⟩, space := .gen, size := 1, align := 1,
    atomic := none, fe := false, hflush := false, engine := true }

/-- What reading or checking the bytes of an element comes to. -/
inductive EngRes (α : Type) where
  | ok (x : α)
  | fault (cause : Nat) (addr : DWord)
  /-- waits for an ownership transfer at a virtual address of a partition; partition 8: for another device -/
  | wait (part va : Nat)
  deriving Repr

/-- The targets of n consecutive bytes, each checked and translated. -/
def engTargets (s : State) (kind : Nat) (a : DWord) : Nat → EngRes (List Target)
  | 0 => .ok []
  | n + 1 =>
    match resolve s (engAccess kind) 0 a with
    | .fault c => .fault c a
    | .wait p va => .wait p va
    | .ok t => match engTargets s kind (a + 1) n with
      | .ok ts => .ok (t :: ts)
      | r => r

/-- Go on with what a read gave. -/
def EngRes.andThen {α β : Type} (x : EngRes α) (f : α → EngRes β) : EngRes β :=
  match x with
  | .ok v => f v
  | .fault c a => .fault c a
  | .wait p va => .wait p va

/-- A target on another device. -/
def Target.isRemote : Target → Bool
  | .remote _ _ _ _ => true
  | _ => false

/-- The scope code that a target on another device needs: 3 in the pod, 4 in the job; 0 for a local one (R202). -/
def Target.scope : Target → Nat
  | .remote _ _ _ job => if job then 4 else 3
  | _ => 0

/-- The cause of a memory error for a target's line, for the access code e of R278. -/
def State.memError (s : State) (e : Nat) : Target → Option Nat
  | .loc l _ => (s.mem.poisonOf l).map (fun src => if src = 4 then 0x16D else 0x0C0 + 8 * src + e)
  | .split l l2 _ => ((s.mem.poisonOf l).orElse (fun _ => s.mem.poisonOf l2)).map (fun src => if src = 4 then 0x16D else 0x0C0 + 8 * src + e)
  | .spad wg off => if (s.wgOf wg).elim false (fun g => g.bad.contains (off / 64)) then some (0x0D0 + e) else none
  | .remote _ _ _ _ => none

/-- One byte of a local target, read at its point of coherence as one access with HINT (R262). -/
def State.engByte (s : State) (hint : Nat) (core : Nat) (seen : List Nat) : Target → Byte × State
  | .loc l m =>
    if seen.contains (l / 64) then ((s.readLoc l 1).headD 0, s)
    else
      let (bs, s) := s.homeRead (l / 64) m hint (hearthOf core)
      (bs.getD (l % 64) 0, s)
  | .spad wg off => ((s.wgOf wg).elim 0 (fun g => g.spad.get off), s)
  -- no byte of an engine access is private (R203)
  | .split l _ _ => ((s.readLoc l 1).headD 0, s)
  | .remote _ _ _ _ => (0, s)

/-- The line a target lies in, for counting one read of each line (R263). -/
def Target.line : Target → List Nat
  | .loc l _ => [l / 64]
  | .split l l2 _ => [l / 64, l2 / 64]
  | _ => []

/-- Bytes of local targets, each line read once; `seen` are the lines already read. -/
def State.engBytes (s : State) (hint core : Nat) : List Nat → List Target → List Byte × State
  | _, [] => ([], s)
  | seen, t :: ts =>
    let (b, s) := s.engByte hint core seen t
    let (bs, s) := State.engBytes s hint core (t.line ++ seen) ts
    (b :: bs, s)

/-- Write one byte of a local target as an engine does, no core: HINT 0, but for a port's pushes, whose binding gives it (R307). -/
def State.engWrite (s : State) (hint : Nat) (t : Target) (b : Byte) : State :=
  match t with
  | .loc l m => s.homeWrite none l m hint [b]
  | .spad wg off => s.modWg wg (fun g => { g with spad := g.spad.set off b })
  | .split l _ m => s.homeWrite none l m hint [b]
  | .remote _ _ _ _ => s

/-- A target's bytes are frozen at their home (R189). -/
def State.frozenAt (s : State) : Target → Bool
  | .loc l _ => s.mem.frozen l
  | .split l l2 _ => s.mem.frozen l || s.mem.frozen l2
  | _ => false

/-- The machine as the engine work of a warp sees it: the warp's place and its workgroup in focus (R203). -/
def State.engView (s : State) (id : WarpId) (wg : Nat) : State :=
  { s with cur := if s.cur.id = id then s.cur else ((s.warps.find? (fun w => w.id == id)).getD { Warp.blank with id := id })
           wg := (s.wgOf wg).getD s.wg }

/-- The 64 bytes of a layout record at an address, or the cause of a load of it (R66): window 0x00 only. DESIGN CHOICE (log 73): one whose address
is not a multiple of 64 is read as it stands. -/
def readRecord (s : State) (a : DWord) : EngRes (List Byte × State) :=
  match window a with
  | .bad => .fault 0x0A0 a
  | .rank _ _ _ => .fault 0x0A0 a
  | .glob _ => (match engTargets s 0 a 64 with
    | .ok ts => (match ts.findSome? (s.memError 0) with
      | some c => .fault c a
      | none => .ok (s.engBytes 0 s.cur.id.core [] ts))
    | .fault c b => .fault c b
    | .wait p va => .wait p va)
  | _ => .fault 0x0A3 a

end Sys2Proof.Machine
end

