-- ==== Sys2Proof/Machine/Streams.lean ====
section
/-! DEFINITION. Stream ports as operands: lockstep and packed pops (R301, R309–R312), pushes (R302, R313, R314), queues (R318),
deferred faults (R316), closing (R198, R319), and the reading and writing of vector operands that may be ports. -/
namespace Sys2Proof.Machine

/-- One 64-bit value for each lane. -/
abbrev Lanes := Vector DWord 128

/-- Change a port of a warp. -/
def Warp.setPort (w : Warp) (n : Nat) (p : Option Port) : Warp := { w with ports := w.ports.setIfInBounds n p }

/-- A port of the focused warp. -/
def State.port (s : State) (n : Nat) : Option Port := s.cur.ports.getD n none

/-- The stream's length L in elements (R309). -/
def Port.len (p : Port) : Nat := (layOf p.record).count

/-- The low bits of an element (R305). -/
def Port.clip (p : Port) (x : DWord) : DWord := BitVec.ofNat 64 (x.toNat % 2 ^ p.width)

/-- A queue port. -/
def Port.isQueue (p : Port) : Bool := decide (p.mode = .qin) || decide (p.mode = .qout)

/-- The warp of a workgroup with an index. -/
def State.peerWarp (s : State) (wg idx : Nat) : Option Warp :=
  s.allWarps.find? (fun w => w.wg == wg && w.index == idx && w.running)

/-- A queue port whose other end has closed: it is no longer open to a join (R198, R301). -/
def Port.finished (p : Port) : Bool := p.closed || p.discard

/-- The other end of a joined queue (R196): the peer's port when each end names the other. -/
def State.joined (s : State) (w : Warp) (n : Nat) : Option (Warp × Port) :=
  match w.ports.getD n none with
  | some p =>
    if !p.isQueue then none else
    (match s.peerWarp w.wg p.peerWarp with
     | some v => (match v.ports.getD p.peerPort none with
       | some q =>
         if q.isQueue && q.mode != p.mode && q.peerWarp == w.index && q.peerPort == n && !p.finished && !q.finished then some (v, q) else none
       | none => none)
     | none => none)
  | none => none

/-- Send the full beats of a producer's port that fit (R318). -/
def State.pump (s : State) (id : WarpId) (n : Nat) : State :=
  match s.warpAt id with
  | none => s
  | some w =>
    match w.ports.getD n none, s.joined w n with
    | some p, some (v, q) =>
      if p.mode = .qout ∧ 128 ≤ p.part.length ∧ q.queue.length + 128 ≤ 512 ∧ (p.part.take 128).all (fun e => e.2.2 == 0) then
        (s.modWarp id (fun w => w.setPort n (some { p with part := p.part.drop 128 }))).modWarp v.id
          (fun v => v.setPort p.peerPort (some { q with queue := q.queue ++ (p.part.take 128).map (·.2.1) }))
      else s
    | some p, none =>
      -- the consumer is gone: its queue takes the beats it has room for (R318)
      if p.mode = .qout ∧ p.gone ∧ 128 ≤ p.part.length ∧ p.queue.length + 128 ≤ 512 ∧ (p.part.take 128).all (fun e => e.2.2 == 0) then
        s.modWarp id (fun w => w.setPort n (some { p with part := p.part.drop 128, queue := p.queue ++ (p.part.take 128).map (·.2.1) }))
      else s
    | _, _ => s

/-! ## Pops -/

/-- What reading one element comes to. -/
abbrev ElemRes := EngRes (DWord × State)

/-- The element of an input port at a position (R309, R315): prefetched, FILL, or read now with the HINT of the port. `seen` are the lines that
the instruction, or the tongs for the beat, have read: one read of a line is one read (R263). -/
def elemAt (s : State) (p : Port) (seen : List Nat) (j : Nat) : ElemRes :=
  match p.pre.find? (fun e => e.pos == j) with
  | some e => (match e.fault with
    | some (c, a) => .fault c a
    | none => .ok (e.val, s))
  | none =>
    match (layOf p.record).elem p.base j with
    | none => .ok (p.clip (BitVec.ofNat 64 (layOf p.record).fill), s)
    | some (a, n, nib) =>
      match engTargets s 0 a n with
      -- a fault names the element, whichever of its bytes fails (R316)
      | .fault c _ => .fault c a
      | .wait p va => .wait p va
      | .ok ts =>
        if ts.any Target.isRemote then .wait 8 0
        else match ts.findSome? (s.memError 6) with
          | some c => .fault c a
          | none =>
            let (bs, s) := s.engBytes p.hint s.cur.id.core seen ts
            .ok (BitVec.ofNat 64 (leNat bs / 2 ^ (4 * nib) % 2 ^ p.width), s)

/-- What a pop gives: a value for each lane that took an element, the active lanes left without one, and the end
predicate's lanes (predicate, lanes written, lanes true). -/
structure Popped where
  vals : List (Nat × DWord)
  dead : Mask
  ends : List (Nat × Mask × Mask)
  /-- the lines that the pops of the instruction have read so far (R263) -/
  seen : List Nat
  s : State
  deriving Repr

/-- The outcome of pops. -/
inductive PopRes where
  | ok (r : Popped)
  | trap (s : State) (cause : Nat) (addr : DWord)
  /-- held; a transfer that the pop waits for has started (R364) -/
  | hold (s : State)
  deriving Repr

/-- The lines in which the element at a position lies. -/
def elemLines (s : State) (p : Port) (j : Nat) : List Nat :=
  match (layOf p.record).elem p.base j with
  | none => []
  | some (a, n, _) => match engTargets s 0 a n with
    | .ok ts => (ts.flatMap Target.line).eraseDups
    | _ => []

/-- Deliver elements to lanes in order, reading each; stops at the first that faults or waits. -/
def takeElems (s : State) (p : Port) (seen : List Nat) : List (Nat × Nat) → EngRes (List (Nat × DWord) × List Nat × State) × Nat
  | [] => (.ok ([], seen, s), 0)
  | (l, j) :: r =>
    match elemAt s p seen j with
    | .fault c a => (.fault c a, j)
    | .wait q va => (.wait q va, j)
    | .ok (x, s) =>
      match takeElems s p ((elemLines s p j ++ seen).eraseDups) r with
      | (.ok (xs, seen, s), k) => (.ok ((l, x) :: xs, seen, s), k)
      | e => e

/-- Read the record again at the first use after a restore (R320): the port, or cause 0x107. -/
def reRead (s : State) (p : Port) : EngRes (Port × State) :=
  if !p.reread then .ok (p, s)
  else match readRecord s p.recAddr with
    | .fault c a => .fault c a
    | .wait q va => .wait q va
    | .ok (r, s) => if recordOk r then .ok ({ p with record := r, reread := false }, s) else .fault 0x107 0

/-- The lanes of a list as a mask. -/
def lanesMask (ls : List Nat) : Mask := ls.foldl (fun m l => m ||| (1#128 <<< l)) 0

/-- Pop a pattern port (R301, R309). The pop clears a recorded fault, and what was fetched at or beyond it is fetched again (R316). -/
def popPattern (s : State) (n : Nat) (p : Port) (act : Mask) (seen : List Nat) : PopRes :=
  let lanes := Mask.lanes act
  let L := p.len
  let p := { p with deferred := none, pre := match p.deferred with
    | some d => p.pre.filter (fun e => e.pos < d.1)
    | none => p.pre }
  let want := if p.packed then (lanes.zipIdx.map (fun x => (x.1, p.pos + x.2))) else lanes.map (fun l => (l, p.pos + l))
  let got := want.filter (fun x => decide (x.2 < L))
  let out := want.filter (fun x => decide (L ≤ x.2))
  if p.endP = 31 ∧ (if p.packed then out ≠ [] else L ≤ p.pos) then .trap s (0x108 + n) 0
  else
    let pos := if p.packed then p.pos + got.length else min (p.pos + 128) L
    if 2 ^ 48 ≤ pos then .trap s 0x106 0
    else match takeElems s p (((got.filter (fun x => p.pre.any (fun e => e.pos == x.2))).flatMap (fun x => elemLines s p x.2)) ++ seen) got with
      | (.wait q va, _) => .hold (s.pathWaits q va)
      | (.fault c a, j) =>
        -- the port records the fault, and drops what was fetched at or beyond it (R316)
        .trap (s.modCur (fun w => w.setPort n (some { p with deferred := some (j, a), pre := p.pre.filter (fun e => e.pos < j) }))) c a
      | (.ok (xs, seen, s), _) =>
        let fill := p.clip (BitVec.ofNat 64 (layOf p.record).fill)
        let ended := lanesMask (out.map (·.1))
        let p := { p with pos := pos, endSeen := p.endSeen || decide (pos = L), pre := p.pre.filter (fun e => pos ≤ e.pos) }
        .ok { vals := if p.packed then xs else xs ++ out.map (fun x => (x.1, fill))
              dead := if p.packed then ended else 0
              ends := if p.endP = 31 then [] else [(p.endP, act, ended)]
              seen := seen
              s := s.modCur (fun w => w.setPort n (some p)) }

/-- Pop a queue port (R301, R318). -/
def popQueue (s : State) (n : Nat) (p : Port) (act : Mask) (seen : List Nat) : PopRes :=
  let s := match s.joined s.cur n with
    | some (v, _) => s.pump v.id p.peerPort
    | none => s
  let p := (s.port n).getD p
  let lanes := Mask.lanes act
  if p.queue.length < lanes.length ∧ !p.closed then
    (if p.gone then .trap s (0x110 + n) 0 else .hold s)
  else
    let got := lanes.zip p.queue
    let out := lanes.drop p.queue.length
    if out ≠ [] ∧ p.endP = 31 then .trap s (0x108 + n) 0
    else if 2 ^ 48 ≤ p.pos + got.length then .trap s 0x106 0
    else
      let q := p.queue.drop lanes.length
      let p := { p with pos := p.pos + got.length, queue := q, endSeen := p.closed && q.isEmpty }
      .ok { vals := got, dead := lanesMask out, ends := if p.endP = 31 then [] else [(p.endP, act, lanesMask out)]
            seen := seen
            s := s.modCur (fun w => w.setPort n (some p)) }

/-- One pop of a port by the active lanes (R306, R309–R312, R318). -/
def State.pop (s : State) (n : Nat) (act : Mask) (seen : List Nat) : PopRes :=
  if act = 0 then .ok { vals := [], dead := 0, ends := [], seen := seen, s := s }
  else match s.port n with
    | none => .trap s 0x103 0
    | some p =>
      match p.mode with
      | .qin => popQueue s n p act seen
      | .inp => (match reRead s p with
        | .fault c a => .trap s c a
        | .wait q va => .hold (s.pathWaits q va)
        | .ok (p, s) => popPattern s n p act seen)
      | _ => .trap s 0x103 0

/-! ## Vector operands -/

/-- Lane values from a list. -/
def lanesOf (xs : List (Nat × DWord)) : Lanes := xs.foldl (fun v x => v.setIfInBounds x.1 x.2) (Vector.replicate 128 0)

/-- A vector operand that is not a port, in every lane (R49, R99): `n` registers. -/
def State.readVec (s : State) (o : Opd) (n : Nat) : Lanes :=
  match o with
  | .v r =>
    let lo := s.readV r
    if n = 2 then
      let hi := s.readV (r + 1)
      Vector.ofFn (fun l : Fin 128 => hi[l] ++ lo[l])
    else lo.map (fun x => x.setWidth 64)
  | .s r => Vector.replicate 128 (if n = 2 then s.readS2 r else (s.readS r).setWidth 64)
  | .vlane => Vector.ofFn (fun l : Fin 128 => BitVec.ofNat 64 l)
  | _ => Vector.replicate 128 0

/-- The values of several sources, and the lanes left without an element. -/
structure Pulled where
  vals : List Lanes
  dead : Mask
  ends : List (Nat × Mask × Mask)
  s : State
  deriving Repr

/-- The outcome of reading sources. -/
inductive PullRes where
  | ok (p : Pulled)
  | trap (s : State) (cause : Nat) (addr : DWord)
  | hold (s : State)
  deriving Repr

/-- Read the sources of an instruction in the order A, B, C; each port appearance pops once (R310). -/
def pullFrom (s : State) (act : Mask) (seen : List Nat) : List (Opd × Nat) → PullRes
  | [] => .ok { vals := [], dead := 0, ends := [], s := s }
  | (o, n) :: r =>
    match o with
    | .q p =>
      (match s.pop p act seen with
       | .trap t c a => .trap t c a
       | .hold t => .hold t
       | .ok x => match pullFrom x.s act x.seen r with
         | .ok y => .ok { vals := lanesOf x.vals :: y.vals, dead := x.dead ||| y.dead, ends := x.ends ++ y.ends, s := y.s }
         | e => e)
    | _ =>
      (match pullFrom s act seen r with
       | .ok y => .ok { y with vals := s.readVec o n :: y.vals }
       | e => e)

/-- Read the sources of an instruction, whose pops have read no line yet. -/
def pull (s : State) (act : Mask) (srcs : List (Opd × Nat)) : PullRes := pullFrom s act [] srcs

/-- Of an instruction that is held nothing stands but the transfers that it waits for (R240, R364). -/
def State.keepWaits (s t : State) : State := { s with mem := { s.mem with own := t.mem.own } }

/-- What a faulting pop leaves behind of its instruction, which otherwise has no effect (R272, R316): each port that recorded a deferred fault
keeps it, and drops what was fetched at or beyond it. -/
def State.keepDeferred (s t : State) : State :=
  (List.range 8).foldl (fun s n => match s.port n, (t.port n).bind (fun q => q.deferred) with
    | some p, some d => s.modCur (fun w => w.setPort n (some { p with deferred := some d, pre := p.pre.filter (fun e => e.pos < d.1) }))
    | _, _ => s) s

/-- Write the end predicates after the instruction's own results; two ports naming one predicate are combined (R311). -/
def State.writeEnds (s : State) (ends : List (Nat × Mask × Mask)) (lat : Lat) : State :=
  ends.foldl (fun s e =>
    let all := ends.filter (fun x => x.1 == e.1)
    s.writeP e.1 e.2.1 (all.foldl (fun m x => m ||| x.2.2) 0) lat) s

/-! ## Pushes -/

/-- The bytes of an element pushed at a position (R313): none for a position that maps to no address. -/
def pushBytes (p : Port) (j : Nat) (x : DWord) : List (LandDest × DWord × Byte) :=
  match (layOf p.record).elem p.base j with
  | none => []
  | some (a, n, _) => (leBytes n x.toNat).zipIdx.map (fun b => (LandDest.addr, a + BitVec.ofNat 64 b.2, b.1))

/-- A push's command: its pieces land by STREAM_BEAT_WRITE (R314). -/
def pushCmd (s : State) (p : Port) (pieces : List Piece) (todo : List Nat) : Cmd :=
  { id := s.eng.nextId, kind := .push (p.width / 8), warp := s.cur.id, wg := s.wg.key, core := s.cur.id.core, k := p.k, epc := s.pc,
    pid := s.cur.path.pid, hint := p.hint, part := s.wg.part, todo := todo, pieces := pieces, wroteBack := false,
    refused := none, failed := none, slotSeq := 0, follow := none, dup := false, lines := [], copyg := none,
    remote := decide (p.base.toNat / 2 ^ 63 = 1), inRegion := s.cur.region.isSome, pins := ⟨[], []⟩ }

/-- Add a command. -/
def State.addCmd (s : State) (c : Cmd) : State :=
  { s with eng := { s.eng with cmds := s.eng.cmds ++ [c], nextId := s.eng.nextId + 1 } }

/-- Change a command. -/
def State.modCmd (s : State) (id : Nat) (f : Cmd → Cmd) : State :=
  { s with eng := { s.eng with cmds := s.eng.cmds.map (fun c => if c.id = id then f c else c) } }

/-- Send the first `n` collected elements of a packed output port: each command gets the piece of its own elements. -/
def State.sendBeat (s : State) (p : Port) (n : Nat) : State :=
  let es := p.part.take n
  let ids := (es.map (·.2.2)).eraseDups
  ids.foldl (fun s id =>
    let mine := es.filter (fun e => e.2.2 == id)
    let bs := mine.flatMap (fun e => pushBytes p e.1 e.2.1)
    s.modCmd id (fun c => { c with
      pieces := c.pieces ++ [{ idx := (mine.head?.map (·.1)).getD 0, bytes := bs, mem := 0, drop := mine.length * (p.width / 8) }]
      todo := c.todo.filter (fun j => !(mine.any (fun e => e.1 == j))) })) s

/-- Add to the focused warp's count register at issue; `none` where it would pass 2^31 (cause 0x028). -/
def State.countUp (s : State) (k : Nat) (d : Nat) : Option State :=
  (countAdd (s.cur.k.getD k 0) d).map (fun x => s.modCur (fun w => { w with k := w.k.setIfInBounds k x }))

/-- Send full beats of a packed output port while 128 elements stand collected. -/
def State.sendFull (s : State) (p : Port) : Nat → State × Port
  | 0 => (s, p)
  | n + 1 => if 128 ≤ p.part.length then (s.sendBeat p 128).sendFull { p with part := p.part.drop 128 } n else (s, p)

/-- Push to an output port (R302, R313, R314). -/
def pushOut (s : State) (n : Nat) (p : Port) (act : Mask) (x : Lanes) : Eff :=
  let lanes := Mask.lanes act
  let at_ := if p.packed then lanes.zipIdx.map (fun y => (y.1, p.pos + y.2)) else lanes.map (fun l => (l, p.pos + l))
  let pos := if p.packed then p.pos + lanes.length else p.pos + 128
  if at_.any (fun y => decide (p.len ≤ y.2)) then .trap (0x118 + n) 0
  else if 2 ^ 48 ≤ pos then .trap 0x106 0
  else match s.countUp p.k (lanes.length * (p.width / 8)) with
    | none => .trap 0x028 0
    | some s =>
      let els := at_.map (fun y => (y.2, x.getD y.1 0))
      if p.packed then
        let id := s.eng.nextId
        let s := s.addCmd (pushCmd s p [] (els.map (·.1)))
        let (s, p) := s.sendFull { p with pos := pos, part := p.part ++ els.map (fun e => (e.1, e.2, id)) } 2
        .ok (s.modCur (fun w => w.setPort n (some p)))
      else
        let piece : Piece := { idx := p.pos, bytes := els.flatMap (fun e => pushBytes p e.1 e.2), mem := 0, drop := lanes.length * (p.width / 8) }
        let s := s.addCmd (pushCmd s p [piece] [])
        .ok (s.modCur (fun w => w.setPort n (some { p with pos := pos })))

/-- Push to a queue port (R302, R318). `marks` gives the tag + 1 of the result an element waits for, 0 for none. -/
def pushQueue (s : State) (n : Nat) (p : Port) (act : Mask) (x : Lanes) (marks : Nat → Nat) : Eff :=
  let lanes := Mask.lanes act
  if p.discard then .ok (s.modCur (fun w => w.setPort n (some { p with pos := p.pos + lanes.length })))
  else
    let s := s.pump s.cur.id n
    let p := (s.port n).getD p
    let room := match s.joined s.cur n with
      | some (_, q) => decide (p.part.length + lanes.length < 128) ||
          decide (p.part.length < 128 ∧ q.queue.length + 128 ≤ 512)
      -- the partly filled beat still takes what does not fill it, and the queue what it has room for (R318)
      | none => p.gone && (decide (p.part.length + lanes.length < 128) || decide (p.part.length < 128 ∧ p.queue.length + 128 ≤ 512))
    if !room then (if p.gone then .trap (0x110 + n) 0 else .hold s)
    else if 2 ^ 48 ≤ p.pos + lanes.length then .trap 0x106 0
    else
      let els := lanes.zipIdx.map (fun y => (p.pos + y.2, p.clip (x.getD y.1 0), marks y.1))
      .ok ((s.modCur (fun w => w.setPort n (some { p with pos := p.pos + lanes.length, part := p.part ++ els }))).pump s.cur.id n)

/-- One push of lane values to a port by the lanes of a mask (R306, R312, R313, R318). -/
def State.push1 (s : State) (n : Nat) (act : Mask) (x : Lanes) (marks : Nat → Nat) : Eff :=
  if act = 0 then .ok s
  else match s.port n with
    | none => .trap 0x103 0
    | some p =>
      match p.mode with
      | .qout => pushQueue s n p act x marks
      | .out => (match reRead s p with
        | .fault c a => .trap c a
        | .wait q va => .hold (s.pathWaits q va)
        | .ok (p, s) => pushOut s n p act x)
      | _ => .trap 0x103 0

/-- Write a vector destination of `n` registers in the lanes of a mask (R99, R124): registers, or a push. -/
def State.putVec (s : State) (d : Opd) (n : Nat) (mask : Mask) (x : Lanes) (lat : Lat) : Eff :=
  match d with
  | .v r =>
    let s := s.writeV r mask (x.map (fun (y : DWord) => y.setWidth 32)) lat
    .ok (if n = 2 then s.writeV (r + 1) mask (x.map (fun (y : DWord) => (y >>> 32).setWidth 32)) lat else s)
  | .q p => s.push1 p mask x (fun _ => 0)
  | _ => .ok s

/-- THE FRAME OF A VECTOR COMPUTATION: read the sources, popping ports; do the rest on the lanes that have every element;
write the end predicates last (R310, R311). -/
def withSrcs (srcs : List (Opd × Nat)) (lat : State → Lat) (f : State → Mask → List Lanes → Eff) (s : State) (act : Mask) : Eff :=
  match pull s act srcs with
  | .trap t c a => .trapIn (s.keepDeferred t) c a
  | .hold t => .hold (s.keepWaits t)
  | .ok p =>
    match f p.s (act &&& ~~~p.dead) p.vals with
    | .ok t => .ok (t.writeEnds p.ends (lat t))
    | .hold t => .hold (s.keepWaits t)
    | e => e

/-- A vector computation with one vector result of `n` registers, lane by lane, of fixed latency. -/
def vecOp (srcs : List (Opd × Nat)) (d : Opd) (n lat : Nat) (f : Nat → List DWord → DWord) : State → Mask → Eff :=
  withSrcs srcs (fun s => s.fixed lat) (fun s live xs =>
    s.putVec d n live (Vector.ofFn (fun l : Fin 128 => f l (xs.map (fun x => x[l])))) (s.fixed lat))

/-- The lanes of a mask in which a test of the sources holds. -/
def maskOf (f : Nat → Bool) : Mask := (List.range 128).foldl (fun m l => if f l then m ||| (1#128 <<< l) else m) 0

/-- A vector computation with a predicate result, of fixed latency. -/
def vecTest (srcs : List (Opd × Nat)) (pd lat : Nat) (f : Nat → List DWord → Bool) : State → Mask → Eff :=
  withSrcs srcs (fun s => s.fixed lat) (fun s live xs =>
    .ok (s.writeP pd live (maskOf (fun l => f l (xs.map (fun x => x.getD l 0)))) (s.fixed lat)))

/-! ## Closing -/

/-- Write out what a packed output port has collected, or send a queue's partly filled beat (R198). The beat may pass the
512 elements of a queue only when it fits; otherwise nothing moves. -/
def State.flushPort (s : State) (id : WarpId) (n : Nat) : State × Bool :=
  match (s.warpAt id).bind (fun w => w.ports.getD n none) with
  | none => (s, true)
  | some p =>
    match p.mode with
    | .out =>
      ((s.sendBeat p p.part.length).modWarp id (fun w => w.setPort n (some { p with part := [] })), true)
    | .qout =>
      if p.part = [] ∨ p.discard then (s, true)
      else
        let s := s.pump id n
        (match s.warpAt id with
         | none => (s, true)
         | some w =>
           let p := (w.ports.getD n none).getD p
           match s.joined w n with
           | some (v, q) =>
             if p.part.all (fun e => e.2.2 == 0) ∧ q.queue.length + p.part.length ≤ 512 then
               ((s.modWarp id (fun w => w.setPort n (some { p with part := [] }))).modWarp v.id
                 (fun v => v.setPort p.peerPort (some { q with queue := q.queue ++ p.part.map (·.2.1) })), true)
             else (s, false)
           | none => (s, p.gone))
    | _ => (s, true)

/-- The first use of an output port after a restore reads its record again (R320). -/
def State.refreshOut (s : State) (n : Nat) : EngRes State :=
  match s.port n with
  | none => .ok s
  | some p =>
    if p.mode ≠ .out ∨ !p.reread then .ok s
    else match reRead s p with
      | .fault c a => .fault c a
      | .wait q va => .wait q va
      | .ok (p, s) => .ok (s.modCur (fun w => w.setPort n (some p)))

/-- The first use of every output port that a restore has left to read its record again: an end closes each as STRCLOSE does (R319, R320). -/
def State.refreshAll (s : State) : EngRes State :=
  (List.range 8).foldl (fun r n => r.andThen (fun s => s.refreshOut n)) (.ok s)

/-- Close a port (R198): flush, tell the queue's other end, unbind. The flag is false where a queue's beat does not fit yet. DESIGN CHOICE
(log 84): a .qout port that no consumer has joined and that holds nothing unbinds at once, and a consumer that binds later sees no end of stream. -/
def State.closePort (s : State) (id : WarpId) (n : Nat) : State × Bool :=
  match s.warpAt id with
  | none => (s, true)
  | some w =>
    match w.ports.getD n none with
    | none => (s, true)
    | some p =>
      let (s, done) := s.flushPort id n
      if !done then (s, false)
      else
        let s := match p.mode, s.joined w n with
          | .qout, some (v, _) => s.modWarp v.id (fun v => v.setPort p.peerPort ((v.ports.getD p.peerPort none).map (fun (q : Port) => { q with closed := true })))
          | .qin, some (v, _) => s.modWarp v.id (fun v => v.setPort p.peerPort ((v.ports.getD p.peerPort none).map (fun (q : Port) => { q with discard := true, part := [] })))
          | _, _ => s
        (s.modWarp id (fun w => w.setPort n none), true)

/-- Close every bound port of a warp that ends because its lanes have all exited (R319); the flag is false where a beat
does not fit yet. -/
def State.closeAll (s : State) (id : WarpId) : State × Bool :=
  (List.range 8).foldl (fun r n => let (s, ok) := r.1.closePort id n; (s, r.2 && ok)) (s, true)

end Sys2Proof.Machine
end

