-- ==== Sys2Proof/Machine/Remote.lean ====
section
/-! DEFINITION. Remote operations (R193, R345, R346): how one is sent over the pod's planes or the job's ports (R376, R386, R391,
R395), how its answer is delivered, and what a failure does (R190, R194, R195, R378). -/
namespace Sys2Proof.Machine

/-! ## Peers and paths -/

/-- A pod peer of which nothing has been said yet. -/
def Peer.blank (slot : Nat) : Peer :=
  { slot := slot, nextSeq := 0, expected := 0, early := [], unacked := [], waiting := [], ackDue := none, gapSince := none,
    dark := [], summary := [] }

/-- The link state for a pod slot. -/
def State.peer (s : State) (slot : Nat) : Peer := (s.fab.peers.find? (fun p => p.slot == slot)).getD (Peer.blank slot)

/-- Replace the link state for a pod slot. -/
def State.setPeer (s : State) (p : Peer) : State :=
  let rest := s.fab.peers.filter (fun q => q.slot != p.slot)
  { s with fab := { s.fab with peers := p :: rest } }

/-- The planes over which a pair may send (R383, R389): ascending. -/
def State.livePlanes (s : State) (p : Peer) : List Nat :=
  (List.range 16).filter (fun i => !s.fab.dark.getLsbD i && !p.dark.contains i && !s.mgmt.fencedPlane.getLsbD i)

/-- The flits waiting for a peer (q of R391): three transactions to a flit. -/
def Peer.depth (p : Peer) : Nat := (p.waiting.length + 2) / 3

/-- This device's slot in its pod. -/
def State.selfSlot (s : State) : Nat := bits ((rankEntry s s.mgmt.selfRank).getD 0) 19 12

/-- A relay can carry traffic to a slot: a live plane to it, and its last link summary lists the slot (R390, R392). -/
def State.relayOk (s : State) (r d : Nat) : Bool :=
  r != s.selfSlot && r != d && !(s.livePlanes (s.peer r)).isEmpty && (s.peer r).summary.contains d

/-- The pod slots from the rotating pointer on (R391). -/
def State.relaySlots (s : State) : List Nat := (List.range 144).map (fun i => (s.fab.relayPtr + i) % 144)

/-- The relay of the smaller depth among two candidates, the first two slots from the rotating pointer on but this device's and d (R391): one
that cannot carry is as deep as can be. Where d has no live plane, the first two that can carry are the candidates (R390, log 85). -/
def State.relayOf (s : State) (d : Nat) : Option Nat :=
  let two := (s.relaySlots.filter (fun r => r != s.selfSlot && r != d)).take 2
  let two := if (s.livePlanes (s.peer d)) = [] then (s.relaySlots.filter (fun r => s.relayOk r d)).take 2 else two.filter (fun r => s.relayOk r d)
  match two with
  | [] => none
  | [a] => some a
  | a :: b :: _ =>
    let pa := s.peer a
    let pb := s.peer b
    if pb.depth * (s.livePlanes pa).length < pa.depth * (s.livePlanes pb).length then some b else some a

/-- The path of a message to a pod slot (R390, R391): `some none` direct, `some (some r)` through relay r, `none` no path. -/
def State.podPath (s : State) (d : Nat) : Option (Option Nat) :=
  let direct := (s.livePlanes (s.peer d)).length
  match s.relayOf d with
  | none => if direct = 0 then none else some none
  | some r =>
    let p := (s.livePlanes (s.peer r)).length
    -- relayed strictly cheaper: 2 × (64 q(r) ÷ P(r) + 64) < 64 q(d) ÷ P(d)
    if direct = 0 ∨ 2 * ((s.peer r).depth + p) * direct < (s.peer d).depth * p then some (some r) else some none

/-- Queue a transaction for a pod slot over a path. -/
def State.queueOn (s : State) (d : Nat) (t : Txn) : Option Nat → State
  | none => let p := s.peer d; s.setPeer { p with waiting := p.waiting ++ [t] }
  | some r => let p := s.peer r; s.setPeer { p with waiting := p.waiting ++ [.relay d s.selfSlot t] }

/-- A choice of path has been made: the pointer over the slots moves on (R391, log 85). -/
def State.turnRelay (s : State) : State := { s with fab := { s.fab with relayPtr := (s.fab.relayPtr + 1) % 144 } }

/-- Queue a transaction for a pod slot over a path chosen for it; `none` where no path is left (R390). -/
def State.toPeer (s : State) (d : Nat) (t : Txn) : Option State := (s.podPath d).map (fun p => (s.queueOn d t p).turnRelay)

/-- The live Ethernet port of an entropy value (R395). -/
def State.ethPort (s : State) (coord e : Nat) : Nat := s.fab.ports.getD ((e + coord) % max 1 s.fab.ports.length) 0

/-- The window number of the moment (R161, R347). DESIGN CHOICE (log 96): where SET_JOB_WINDOW makes W larger, the number falls, and with it what a
later TIME.win reads: R161 gives .win as device time ÷ W, and its words that TIME results never fall are held for one W. -/
def State.windowNo (s : State) : Nat := s.time / 2 ^ s.mgmt.logW

/-- The generation of a tag. -/
def State.genOf (s : State) (tag : Nat) : Nat := ((s.fab.gens.find? (fun g => g.1 == tag)).map (·.2)).getD 0

/-- The request of an operation (R385). -/
def RemoteOp.req (o : RemoteOp) (self : Nat) : RemReq := { init := self, tag := o.tag, region := o.region, off := o.off, op := o.op }

/-- The parts of a message at job scope: one packet for each line it writes, otherwise one packet (R376). -/
def RemoteOp.packets (o : RemoteOp) : List (Nat × RemOp) :=
  if o.lines = [] then [(o.off, o.op)] else o.lines.map (fun l => (l.1, .write l.2))

/-- Send a message at job scope (R376, R395, R399). -/
def State.sendJob (s : State) (o : RemoteOp) : State :=
  let pod := o.coord / 144
  let e0 := ((s.fab.rotors.find? (fun r => r.1 == pod)).map (·.2)).getD 0
  let n := o.packets.length
  let mk := fun (x : (Nat × RemOp) × Nat) =>
    ({ init := s.mgmt.selfRank, tag := o.tag, gen := s.genOf o.tag, idx := x.2, count := n, win := s.windowNo,
       logW := s.mgmt.logW, entropy := (e0 + x.2) % (o.nent + 1), region := o.region, off := x.1.1, op := x.1.2 } : JobPacket)
  let pkts := (o.packets.zipIdx.map mk)
  let rest := s.fab.rotors.filter (fun r => r.1 != pod)
  { s with
    fab := { s.fab with
      rotors := (pod, e0 + n) :: rest
      sent := s.fab.sent ++ pkts.map (fun p => (⟨p, o.coord, o.nent, 1, s.time, s.ethPort o.coord p.entropy, false⟩ : SentPacket)) }
    logs := { s.logs with out := s.logs.out ++ pkts.map (fun p => .packet (s.ethPort o.coord p.entropy) p o.coord) } }

/-! ## Answers -/

/-- Sign-extend the low bits of a loaded value to 32 bits (R91, R173); 0 bits: as it stands. -/
def extendTo (sx : Nat) (x : DWord) : DWord :=
  if sx = 0 then x else BitVec.ofNat 64 (BitVec.ofInt 32 ((BitVec.ofNat sx x.toNat).toInt)).toNat

/-- Replace bytes of a piece by position. -/
def Piece.patchAt (p : Piece) (pos : Nat) (bs : List Byte) : Piece :=
  { p with bytes := p.bytes.zipIdx.map (fun x =>
      if pos ≤ x.2 ∧ x.2 < pos + bs.length then (x.1.1, x.1.2.1, bs.getD (x.2 - pos) 0) else x.1) }

/-- Replace bytes of a piece by address. -/
def Piece.patchAddr (p : Piece) (a : DWord) (bs : List Byte) : Piece :=
  { p with bytes := p.bytes.map (fun x =>
      let d := (x.2.1 - a).toNat
      if d < bs.length then (x.1, x.2.1, bs.getD d 0) else x) }

/-- Deliver the value of an answer where it belongs (R195, R306, R315). DESIGN CHOICE (log 74): a register that a later instruction has written
meanwhile takes the answer, one of the two values that R82 allows. -/
def State.deliver (s : State) (o : RemoteOp) (data : List Byte) : State :=
  let x := extendTo o.sx (BitVec.ofNat 64 (leNat data))
  let mine := fun (w : Warp) => w.id == o.warp && w.wg == o.wg
  match o.dst with
  | .none => s
  | .lane r n l => s.modWarps mine (fun w =>
      let put := fun (v : Vector VReg 240) (r : Nat) (y : Word) =>
        v.setIfInBounds r ((v.getD r (Vector.replicate 128 0)).setIfInBounds l y)
      let v := put w.v r (x.setWidth 32)
      { w with v := if n = 2 then put v (r + 1) ((x >>> 32).setWidth 32) else v })
  | .uni r n => s.modWarps mine (fun w =>
      let v := w.s.setIfInBounds r (x.setWidth 32)
      { w with s := if n = 2 then v.setIfInBounds (r + 1) ((x >>> 32).setWidth 32) else v })
  | .elem p pos => s.modWarps mine (fun w => w.setPort p ((w.ports.getD p none).map (fun (q : Port) =>
      { q with part := q.part.map (fun (e : BeatElem) => if e.1 = pos ∧ e.2.2 = o.tag + 1 then (e.1, q.clip x, 0) else e) })))
  | .push p pos c a n =>
    let bs := leBytes n x.toNat
    let s := s.modWarps mine (fun w => w.setPort p ((w.ports.getD p none).map (fun (q : Port) =>
      { q with part := q.part.map (fun (e : BeatElem) => if e.1 = pos ∧ e.2.2 = c then (e.1, x, c) else e) })))
    s.modCmd c (fun k => { k with pieces := k.pieces.map (fun q => q.patchAddr a bs) })
  | .pre p b pos nib => s.modWarps mine (fun w => w.setPort p ((w.ports.getD p none).map (fun (q : Port) =>
      -- an element of a binding that has ended is dropped, and one at or beyond a recorded fault (R316)
      if pos < q.pos ∨ q.binding ≠ b ∨ (q.deferred.map (fun d => decide (d.1 ≤ pos))).getD false then q else
      { q with pre := { pos := pos, val := q.clip (x >>> (4 * nib)), fault := none } :: q.pre })))
  | .piece c idx pos => s.modCmd c (fun k => { k with pieces := k.pieces.map (fun q => if q.idx / 16 = idx then q.patchAt pos data else q) })

/-- Keep a frozen copy of another device's line under its tag (R257, R261): in the remote-data cache unless the read bypasses it, and in
the L1 for a load at SC 0 or a PREF.l1 (R258). -/
def State.keepFrozen (s : State) (o : RemoteOp) (t : FrzTag) (line : List Byte) : State :=
  let key := LineKey.rem o.rank o.region (o.off / 64)
  if s.mem.retired.any (fun x => x.1 == o.rank && x.2.entry == t.entry && x.2.gen == t.gen) then
    -- a fill under a retired generation is dropped and logged (R356)
    s.event 0 (0x148 + 8 * (t.sc - 2) + 3) ((s.wgOf o.wg).map (·.part) |>.getD 255) o.warp.core o.warp.slot 0 o.addr
  else
  let mk := fun (core : Option Nat) =>
    ({ core := core, hearth := hearthOf o.warp.core, key := key, bytes := line, tag := some (o.rank, t), pred := 0 } : CacheLine)
  let old := fun (core : Option Nat) (c : CacheLine) => c.core == core && c.hearth == hearthOf o.warp.core && c.key == key
  let put := fun (core : Option Nat) (m : MemSys) => ({ m with copies := m.copies.filter (fun c => !old core c) }).addCopy (mk core)
  let m := if 1 ≤ o.fills then put none s.mem else s.mem
  { s with mem := if o.fills = 2 then put (some o.warp.core) m else m }

/-- The cause of a failure of kind f (R277): 0x128 + 8s + f. -/
def RemoteOp.cause (o : RemoteOp) (f : Nat) : Nat := 0x128 + (if o.job then 8 else 0) + f

/-- The write-to-frozen cause by writer (R190). -/
def RemoteOp.frozenCause (o : RemoteOp) : Nat := if o.kind = 2 then 0x140 else if o.kind = 1 then 0x141 else 0x142

/-- A remote failure of an open region (R193, R194): the first one is kept. -/
def State.failRegion (s : State) (id : WarpId) (cause : Nat) : State :=
  s.modWarp id (fun w => { w with region := w.region.map (fun (r : Region) =>
    { r with failed := some (r.failed.getD cause) }) })

/-- The lowest address among failed operations of a group. -/
def lowestAddr (os : List RemoteOp) : DWord :=
  (os.map (fun o => o.addr)).foldl (fun m a => if a < m then a else m) ((os.map (fun o => o.addr)).headD 0)

/-- The failures of operations answered, kind 5 apart (R190): one for each cause, in the order of the operations, whose first of a cause is the
lowest failing lane's (R169, R275). DESIGN CHOICE (log 86): R195 does not say how many traps the operations of one instruction make. -/
def failures (os : List RemoteOp) : List (Nat × RemoteOp) :=
  os.foldl (fun (acc : List (Nat × RemoteOp)) o => match o.answered with
    | some (some f) => if f = 5 ∨ acc.any (fun x => x.1 == o.cause f) then acc else acc ++ [(o.cause f, o)]
    | _ => acc) []

/-- An operation was refused at frozen bytes, as a whole or in packets (R190). -/
def RemoteOp.frozen (o : RemoteOp) : Bool := o.answered == some (some 5) || o.refused != []

/-- The workgroup's register that a landing of a command's piece lowers: a collective's falls at the member whose
destination it is (R208). -/
def State.pieceOwner (s : State) (c : Cmd) (mem : Nat) : Option (WarpId × Nat) :=
  match c.copyg with
  | none => some (c.warp, c.k)
  | some n =>
    if mem = c.wg then some (c.warp, c.k)
    else (s.eng.cmds.find? (fun d => d.wg == mem && d.copyg == some n)).map (fun d => (d.warp, d.k))

/-- Remove the anvil operation that a command was to hand over: its count register falls by 64 (R209). -/
def State.dropFollow (s : State) (c : Cmd) : State :=
  match c.follow with
  | none => s
  | some i =>
    match s.eng.anvil.find? (fun a => a.id == i) with
    | none => s
    | some a =>
      let s := { s with eng := { s.eng with anvil := s.eng.anvil.filter (fun x => x.id != i) } }
      let s := s.modWg a.wg (fun g => { g with order := g.order.filter (fun x => !(a.reads.contains x.seq && !x.write)) })
      match a.op with
      | .mma _ _ _ _ _ _ _ (some k) => s.countDown a.warp k 64 a.epc a.pid
      | _ => s

/-- A command has nothing left to fetch or land, and no answer outstanding. -/
def State.cmdIdle (s : State) (c : Cmd) : Bool :=
  c.todo.isEmpty && c.pieces.isEmpty && !(s.fab.ops.any (fun o => o.group == c.id && o.answered.isNone))

/-- The commands of one collective: those of its gang's members with the same count (R208). -/
def State.collective (s : State) (c : Cmd) : List Cmd :=
  match c.copyg, s.wgOf c.wg with
  | some n, some g => s.eng.cmds.filter (fun d => d.copyg == some n && (match s.wgOf d.wg with
      | some x => x.launch == g.launch && x.gang == g.gang
      | none => d.id == c.id))
  | _, _ => [c]

/-- Some bytes of a command's destination will never land: it has stopped, or a read of its source failed (R203, R378). -/
def State.loses (s : State) (c : Cmd) : Bool :=
  c.failed.isSome || s.fab.ops.any (fun o => o.group == c.id && (match o.op, o.answered with
    | .read _, some (some _) => true
    | _, _ => false))

/-- The slot write of a receipt number is finished, or stays for good where it never lands: reads received after it then wait until the launch
is cancelled (R217). -/
def Wgroup.endWrite (g : Wgroup) (seq : Nat) (lost : Bool) : Wgroup :=
  { g with order := if lost then g.order.map (fun x => if x.write ∧ x.seq = seq then { x with lost := true } else x)
                    else g.order.filter (fun x => !(x.write && x.seq == seq)) }

/-- A command ends: its slot write is finished, or lost (R217); one write-to-frozen fault and one fault for each cause of failure are posted
(R190, R195, R203), and a refused or stopped COPYM discards its follow-on (R209). -/
def State.endCmd (s : State) (c : Cmd) (lost : Bool) : State :=
  let os := s.fab.ops.filter (fun o => o.group == c.id)
  let s := { s with fab := { s.fab with ops := s.fab.ops.filter (fun o => o.group != c.id) } }
  let s := s.modWg c.wg (fun g => g.endWrite c.slotSeq lost)
  -- the abandoned reads of a stopped command raise nothing (R203)
  let out := os.filter (fun o => !o.inRegion && o.kind != 6)
  let far := out.filter RemoteOp.frozen
  let s := ((failures out).filter (fun x => c.failed.map (·.1) != some x.1)).foldl (fun (s : State) x => s.post c.warp x.1 c.epc (lowestAddr (out.filter (fun o => match o.answered with
    | some (some f) => o.cause f == x.1
    | _ => false))) c.pid) s
  let refused : Option DWord := match c.refused, far with
    | none, [] => none
    | some a, [] => some a
    | none, _ => some (lowestAddr far)
    | some a, _ => some (if lowestAddr far < a then lowestAddr far else a)
  let s := match refused with
    | some a => s.post c.warp 0x142 c.epc a c.pid
    | none => s
  -- a push posts its one translation fault once all is written (R317)
  let s := match c.kind, c.failed with
    | .push _, some (e, a) => s.post c.warp e c.epc a c.pid
    | _, _ => s
  let s := if refused.isSome then s.dropFollow c else s
  -- a COPYM with a follow-on still to hand over stays (R298)
  if refused.isNone ∧ c.follow.isSome then s
  else { s with eng := { s.eng with cmds := s.eng.cmds.filter (fun d => d.id != c.id) } }

/-- Slot writes of a collective whose every byte has landed are finished, member by member (R208, R217). -/
def State.slotLanded (s : State) (cs : List Cmd) (lost : Bool) : State :=
  if cs.all (fun d => d.todo.isEmpty) then
    cs.foldl (fun s d =>
      if cs.any (fun x => x.pieces.any (fun p => p.mem == d.wg)) then s else s.modWg d.wg (fun g => g.endWrite d.slotSeq lost)) s
  else s

/-- End the command with that id, with its collective, once all is done. -/
def State.finishCmd (s : State) (id : Nat) : State :=
  match s.eng.cmds.find? (fun c => c.id == id) with
  | none => s
  | some c =>
    let cs := s.collective c
    let all := match c.copyg, s.wgOf c.wg with
      | some _, some g => decide (g.gangSize ≤ cs.length)
      | _, _ => true
    let lost := cs.any s.loses
    let s := if all && c.copyg.isSome then s.slotLanded cs lost else s
    if all && cs.all (fun d => s.cmdIdle d) then cs.foldl (fun s d => s.endCmd d lost) s else s

/-- Count still to come off a register, in steps of at most 1,024 (R296): pieces with no byte left to write, numbered from 2^62 on and above
those of the command. -/
def splitDrop (ps : List Piece) (mem n : Nat) : List Piece :=
  let base := ps.foldl (fun m p => max m (p.idx / 16 + 1)) (2 ^ 62)
  (List.range ((n + 1023) / 1024)).map (fun i => { idx := 16 * (base + i), bytes := [], mem := mem, drop := min 1024 (n - 1024 * i) })

/-- Once every operation of an instruction has been answered: its failures outside a region are posted, one for each cause with the address of
its lowest failing lane, at most one write-to-frozen fault among them (R190, R195), and the operations are forgotten. -/
def State.closeGroup (s : State) (g : Nat) : State :=
  let os := s.fab.ops.filter (fun o => o.group == g)
  if os.any (fun o => o.answered.isNone) then s
  else if s.eng.cmds.any (fun c => c.id == g) then s.finishCmd g else
  let s := { s with fab := { s.fab with ops := s.fab.ops.filter (fun o => o.group != g) } }
  let frozen := os.filter (fun o => !o.inRegion && o.frozen)
  -- a PREF raises no fault (R180)
  let s := (failures (os.filter (fun o => !o.inRegion && o.kind != 6))).foldl
    (fun (s : State) x => s.post x.2.warp x.1 x.2.epc x.2.addr x.2.pid) s
  match frozen.head? with
  | some o => s.post o.warp o.frozenCause o.epc (lowestAddr frozen) o.pid
  | none => s

/-- The path that the message of an operation has taken (R391): what an engine instruction sends to one slot is one message. -/
def State.messagePath (s : State) (o : RemoteOp) : Option (Option Nat) :=
  if o.kind ≠ 3 then none
  else (s.fab.ops.find? (fun x => x.group == o.group && !x.job && x.coord == o.coord && x.via.isSome)).bind (fun x => x.via)

/-- Send the operation, or fail it at once where no path is live (R378, R390): the flag says whether it was sent. -/
def State.sendOp (s : State) (o : RemoteOp) : Bool × State :=
  if o.job then (if s.fab.ports = [] then (false, s) else (true, s.sendJob o))
  else
    let r := o.req s.mgmt.selfRank
    let take := fun (s : State) (p : Option Nat) =>
      { s.queueOn o.coord (.req r) p with fab := { (s.queueOn o.coord (.req r) p).fab with
          ops := s.fab.ops.map (fun (x : RemoteOp) => if x.tag = o.tag then { x with via := some p } else x) } }
    match s.podPath o.coord, s.messagePath o with
    | none, _ => (false, s)
    | some _, some p => (true, take s p)
    | some p, none => (true, (take s p).turnRelay)

/-- Two operations touch one line of one device, on one path (R345). -/
def RemoteOp.sameLine (a b : RemoteOp) : Bool :=
  a.warp == b.warp && a.wg == b.wg && a.pid == b.pid && a.rank == b.rank && a.region == b.region && a.off / 64 == b.off / 64

/-- An operation writes its target. -/
def RemoteOp.changes (o : RemoteOp) : Bool :=
  match o.op with
  | .write _ => true
  | .atomic _ _ _ => true
  | .cas _ _ _ => true
  | _ => false

/-- An operation has been acknowledged (R346): answered, or at job scope a write or atomic whose every packet was accepted. -/
def State.acked (s : State) (o : RemoteOp) : Bool :=
  o.answered.isSome || (o.job && !o.held && o.changes && !(s.fab.sent.any (fun p => p.pkt.tag == o.tag && !p.accepted)))

/-- Mark an operation answered. -/
def State.markAnswered (s : State) (tag : Nat) (f : Option Nat) : State :=
  { s with fab := { s.fab with
      ops := s.fab.ops.map (fun (o : RemoteOp) => if o.tag = tag then { o with answered := some f } else o)
      sent := s.fab.sent.filter (fun p => p.pkt.tag != tag) } }

/-- The effects of an answer on its own operation: the value or 0, the count register, the region, a frozen copy. -/
def State.settleOp (s : State) (o : RemoteOp) (data : List Byte) (fail : Option Nat) (frz : Option FrzTag) : State :=
  let s := s.markAnswered o.tag fail
  let want := match o.op with
    | .read n => n
    | .frzq => 8
    | _ => 8
  let s := match fail, frz with
    | none, some t =>
      -- a tagged reply carries the whole line
      (s.keepFrozen o t data).deliver o ((data.drop (o.off % 64)).take want)
    | none, none => s.deliver o data
    | some _, _ => s.deliver o (List.replicate want 0)
  let s := match fail, o.dst with
    | some _, .piece c idx _ =>
      -- a source that cannot be read: its pieces do not land, and the registers fall at once (R203, R378)
      (match s.eng.cmds.find? (fun d => d.id == c) with
       | none => s
       | some d =>
         let s := (d.pieces.filter (fun p => p.idx / 16 == idx)).foldl (fun s p => match s.pieceOwner d p.mem with
           | some (w, k) => s.countDown w k p.drop d.epc d.pid
           | none => s) s
         s.modCmd c (fun d => { d with pieces := d.pieces.filter (fun p => p.idx / 16 != idx) }))
    | _, _ => s
  let s := if o.drop = 0 then s
    else if o.drop ≤ 1024 || fail.isSome || !(s.eng.cmds.any (fun c => c.id == o.group)) then s.countDown o.warp o.k o.drop o.epc o.pid
    -- a message of more than 1,024 bytes: the register falls in steps (R296, R377)
    else s.modCmd o.group (fun c => { c with pieces := c.pieces ++ splitDrop c.pieces c.wg o.drop })
  match fail with
  | some f => if o.inRegion then s.failRegion o.warp (o.cause f) else s
  | none => s

/-- Send the operations held behind answered ones, oldest first; one that cannot be sent fails at once. -/
def State.releaseHeld (s : State) : Nat → State
  | 0 => s
  | n + 1 =>
    match s.fab.ops.find? (fun o => o.held && o.answered.isNone &&
        !((s.fab.ops.takeWhile (fun x => x.tag != o.tag)).any (fun x => x.sameLine o && !(s.acked x) && x.kind < 3))) with
    | none => s
    | some o =>
      let s := { s with fab := { s.fab with ops := s.fab.ops.map (fun (x : RemoteOp) => if x.tag = o.tag then { x with held := false } else x) } }
      -- a job fence waits for a boundary after the last of its writes was first sent (R348)
      let s := if o.job then s.modWarps (fun w => w.id == o.warp && w.wg == o.wg) (fun w => { w with fence := w.fence.map (fun (f : FenceWait) =>
          if f.rel then { f with boundaries := 0 } else f) }) else s
      match s.sendOp o with
      | (true, s) => s.releaseHeld n
      | (false, s) => ((s.settleOp o [] (some 1) none).closeGroup o.group).releaseHeld n

/-- An answer arrives for a tag (R346, R377): data, or the failure kind of R277. -/
def State.answer (s : State) (tag : Nat) (data : List Byte) (fail : Option Nat) (frz : Option FrzTag) : State :=
  match s.fab.ops.find? (fun o => o.tag == tag && o.answered.isNone) with
  | none => s
  | some o => (((s.settleOp o data fail frz).closeGroup o.group)).releaseHeld s.fab.ops.length

/-! ## Issuing -/

/-- The fence of R202 before work numbered `id`: no earlier remote load, store or atomic of the warp is unanswered. -/
def State.fencedAt (s : State) (warp : WarpId) (wg id : Nat) : Bool :=
  !(s.fab.ops.any (fun o => o.warp == warp && o.wg == wg && o.answered.isNone && decide (o.kind < 3) && decide (o.group < id)))

/-- A copy under a frozen tag that a read of another device's line may be served from (R173, R261): in the hearth's remote-data cache, or
for a load in the core's L1. -/
def State.frozenCopy (s : State) (load : Bool) (core rank region off : Nat) : Option CacheLine :=
  let key := LineKey.rem rank region (off / 64)
  match s.mem.copies.find? (fun c => c.key == key && c.tag.isSome &&
      ((load && c.core == some core) || (c.core.isNone && c.hearth == hearthOf core))) with
  | some c => if Config.freeBit s.freeCtr (2 ^ 61 + 2 ^ 42 * rank + off / 64) then some c else none
  | none => none

/-- A tag not in use, from a counter on. -/
def freshTag (ops : List RemoteOp) (t : Nat) : Nat → Nat
  | 0 => t % 65536
  | n + 1 => if ops.any (fun o => o.tag == t % 65536) then freshTag ops (t + 1) n else t % 65536

/-- Take a tag: its generation rises with each reuse (R397). -/
def State.takeTag (s : State) : Nat × State :=
  let t := freshTag s.fab.ops s.fab.nextTag (s.fab.ops.length + 1)
  let used := s.fab.gens.any (fun g => g.1 == t)
  let gen := if used then (s.genOf t + 1) % 256 else 0
  let rest := s.fab.gens.filter (fun g => g.1 != t)
  (t, { s with fab := { s.fab with nextTag := (t + 1) % 65536, gens := (t, gen) :: rest } })

/-- Take n tags. -/
def State.takeTags (s : State) : Nat → List Nat × State
  | 0 => ([], s)
  | n + 1 =>
    let (t, s) := s.takeTag
    let (ts, s) := s.takeTags n
    (t :: ts, s)

/-- Where a rank's device is reached: slot in the pod, or coordinate with NENT (R374, R380). -/
def State.reach (s : State) (rank : Nat) (job : Bool) : Nat × Nat :=
  let e := (rankEntryUsed s rank).getD 0
  if job then (rankCoord e, bits e 22 20) else (bits e 19 12, 0)

/-- A remote operation of the instruction being issued, whose scoreboard entry is `h`. -/
def newOp (s : State) (h tag : Nat) (rank region off : Nat) (job : Bool) (op : RemOp) (kind : Nat) (dst : RemDst) (addr : DWord) : RemoteOp :=
  let r := s.reach rank job
  { tag := tag, group := 0, warp := s.cur.id, wg := s.wg.key, launch := s.wg.launch, rank := rank, region := region, off := off, op := op, job := job,
    coord := r.1, nent := r.2, dst := dst, addr := addr, epc := s.pc, pid := s.cur.path.pid, sb := h, sx := 0, kind := kind,
    inRegion := s.cur.region.isSome, fills := match op with
      | .read _ => 1
      | _ => 0
    held := false, k := 0, drop := 0, lines := [], via := none, answered := none, refused := [], complete := none }

/-- The link die keeps the level-2 entries of the ranks that an access has walked, its own among them (R381). -/
def State.cacheRanks (s : State) (rs : List Nat) : State :=
  ((s.mgmt.selfRank :: rs).eraseDups).foldl (fun (s : State) r =>
    if s.mem.ranks.any (fun p => p.1 == r) then s
    else match rankEntry s r with
      | some e => { s with mem := { s.mem with ranks := (r, BitVec.ofNat 64 e) :: s.mem.ranks.take 16383 } }
      | none => s) s

/-- Issue the operations of group `g`, in order: each is sent, held behind an earlier access of its path to its line
(R345), or fails at once for want of a path (R378). -/
def State.issueGroup (s : State) (g : Nat) (os : List RemoteOp) : State :=
  let s := s.cacheRanks (os.map (fun o => o.rank))
  let s := os.foldl (fun (s : State) (o : RemoteOp) =>
    let o := { o with group := g }
    let held := o.kind < 3 && s.fab.ops.any (fun x => x.sameLine o && !(s.acked x) && x.kind < 3)
    let o := { o with held := held }
    let s := { s with fab := { s.fab with ops := s.fab.ops ++ [o] } }
    if held || o.answered.isSome then s
    else match s.sendOp o with
      | (true, s) => s
      | (false, s) => s.settleOp o [] (some 1) none) s
  s.closeGroup g

/-- Issue the operations of one instruction. -/
def State.issueOps (s : State) (os : List RemoteOp) : State :=
  if os = [] then s
  else { s with eng := { s.eng with nextId := s.eng.nextId + 1 } }.issueGroup s.eng.nextId os

/-- The warp's operations that a fence covers or RCOMMIT waits for, not yet answered (R178, R193). -/
def State.pendingOps (s : State) (id : WarpId) (p : RemoteOp → Bool) : Bool :=
  s.fab.ops.any (fun o => o.warp == id && o.answered.isNone && p o)

/-- The release half at a scope code is complete: every remote load, store and atomic of the warp that it covers has been answered, a
write at job scope by its completion or its refusal, whose fault is then pending (R178, R334, log 68). An instruction with a lane refused by a
pod peer is waited for with all its lanes, since its fault comes with the last of them (R190). -/
def State.released (s : State) (id : WarpId) (sc : Nat) : Bool :=
  !(s.pendingOps id (fun o => o.kind < 3 && (decide (sc = 4) || (decide (sc = 3) &&
    (!o.job || s.fab.ops.any (fun x => x.group == o.group && !x.job && x.answered == some (some 5)))))))


end Sys2Proof.Machine
end

