-- ==== Sys2Proof/Machine/Access.lean ====
section
/-! DEFINITION. The accesses of class 3 and class 4 instructions: per-lane addresses (R168), the checks of every active lane
before any access (R169), ownership transfers that an access starts (R364), and reading and writing checked targets (R170, R173). -/
namespace Sys2Proof.Machine

/-- Check the addresses of lanes in ascending order (R169): the lowest failing lane is reported, also where a lane before it has to wait
for an ownership transfer. -/
def checkLanes (s : State) (a : Access) (addr : Nat → DWord) : List Nat → EngRes (List (Nat × Target))
  | [] => .ok []
  | l :: r =>
    match resolve s a l (addr l) with
    | .fault c => .fault c (addr l)
    | .wait p va => (match checkLanes s a addr r with
      | .fault c x => .fault c x
      | _ => .wait p va)
    | .ok t => match checkLanes s a addr r with
      | .ok ts => .ok ((l, t) :: ts)
      | e => e

/-- An instruction that waits for an ownership transfer holds its path, the transfer being started (R240, R365). -/
def holdFor (s : State) (part va : Nat) : Eff := .hold (s.pathWaits part va)

/-- Read n bytes at a location as one access of the focused warp's core (R173, R257, R258): `seen` are lines already
read by the instruction, whose bytes are not fetched again (R263). -/
def State.readAt (s : State) (hint sc n : Nat) (seen : List (Nat × List Byte)) (l m : Nat) : List Byte × List (Nat × List Byte) × State :=
  match seen.find? (fun p => p.1 == l / 64) with
  | some p => ((p.2.drop (l % 64)).take n, seen, s)
  | none =>
    let (bs, s) := s.loadLine s.cur.id.core (l / 64) m hint sc
    ((bs.drop (l % 64)).take n, (l / 64, bs) :: seen, s)

/-- Read n bytes of a local target: eight private bytes are two words (R253). -/
def State.readTarget (s : State) (hint sc n : Nat) (seen : List (Nat × List Byte)) : Target → List Byte × List (Nat × List Byte) × State
  | .loc l m => s.readAt hint sc n seen l m
  | .split l l2 m =>
    let (xs, seen, s) := s.readAt hint sc 4 seen l m
    let (ys, seen, s) := s.readAt hint sc 4 seen l2 m
    (xs ++ ys, seen, s)
  | .spad wg off => (((s.wgOf wg).elim (List.replicate n 0) (fun g => Store.getN g.spad off n)), seen, s)
  | .remote _ _ _ _ => (List.replicate n 0, seen, s)

/-- Write bytes at a local target as a store of the focused warp's core. -/
def State.writeTarget (s : State) (hint : Nat) (bs : List Byte) : Target → State
  | .loc l m => s.homeWrite (some s.cur.id.core) l m hint bs
  | .split l l2 m => (s.homeWrite (some s.cur.id.core) l m hint (bs.take 4)).homeWrite (some s.cur.id.core) l2 m hint (bs.drop 4)
  | .spad wg off => s.modWg wg (fun g => { g with spad := Store.setN g.spad off bs })
  | .remote _ _ _ _ => s

/-- Some byte of an n-byte target is frozen at its home (R189). -/
def State.frozenRange (s : State) (n : Nat) : Target → Bool
  | .loc l _ => s.mem.frozenN l n
  | .split l l2 _ => s.mem.frozenN l 4 || s.mem.frozenN l2 4
  | _ => false

/-- A write of a whole line clears its poison (R278): the lines that the bytes of one landing cover, frozen ones apart. -/
def State.cleanLines (s : State) (ts : List Target) : State :=
  if s.mem.poison = [] ∧ s.allWgs.all (fun g => g.bad.isEmpty) ∧ s.mem.copies.all (fun c => !c.bytes.isEmpty) then s
  else
    let hit := fun (l : Nat) => ts.any (fun t => match t with
      | .loc m _ => m == l
      | _ => false)
    let hitS := fun (wg o : Nat) => ts.any (fun t => match t with
      | .spad w p => w == wg && p == o
      | _ => false)
    let clean := fun (g : Wgroup) => { g with bad := g.bad.filter (fun x => !((List.range 64).all (fun i => hitS g.key (64 * x + i)))) }
    { s with
      mem := { s.mem with
        poison := s.mem.poison.filter (fun p => !((List.range 64).all (fun i => hit (64 * p.1 + i) && !s.mem.frozen (64 * p.1 + i))))
        copies := s.mem.copies.filter (fun c => !(c.bytes.isEmpty && (match c.key with
          | .loc x => (List.range 64).all (fun i => hit (64 * x + i))
          | .rem _ _ _ => false))) }
      wg := clean s.wg
      wgs := s.wgs.map clean }

/-- A load meets an uncorrectable error in the copy that the core's L1 holds of its line (R278, source 2, e 0): such a copy stands without
bytes. -/
def State.l1Error (s : State) (sc : Nat) (t : Target) : Option Nat :=
  let bad := fun (l : Nat) => ((s.mem.l1 s.cur.id.core (.loc (l / 64))).map (fun c => decide (c.bytes = []) && (decide (sc = 0) || c.tag.isSome))).getD false
  match t with
  | .loc l _ => if bad l then some 0x0D0 else none
  | .split l l2 _ => if bad l || bad l2 then some 0x0D0 else none
  | _ => none

/-- The cause of a load's memory error. -/
def State.loadError (s : State) (sc : Nat) (t : Target) : Option Nat := (s.memError 0 t).orElse (fun _ => s.l1Error sc t)

/-- The bytes of an n-byte target, one by one. -/
def Target.eachByte (n : Nat) : Target → List Target
  | .loc l m => (List.range n).map (fun i => .loc (l + i) m)
  | .split l l2 m => (List.range 4).map (fun i => .loc (l + i) m) ++ (List.range 4).map (fun i => .loc (l2 + i) m)
  | .spad wg off => (List.range n).map (fun i => .spad wg (off + i))
  | .remote _ _ _ _ => []

/-- The 128-byte scratchpad lines of targets (R174). -/
def Target.feLine : Target → List (Nat × Nat)
  | .spad wg off => [(wg, off / 128)]
  | _ => []

/-- A scratchpad line is full (R174). -/
def State.lineFull (s : State) (wg line : Nat) : Bool := (s.wgOf wg).elim false (fun g => g.full.contains line)

/-- Mark a scratchpad line full or empty. -/
def State.setFull (s : State) (wg line : Nat) (b : Bool) : State :=
  s.modWg wg (fun g =>
    let rest := g.full.filter (fun x => x != line)
    { g with full := if b then line :: rest else rest })

end Sys2Proof.Machine
end

