-- ==== Sys2Proof/Machine/Float.lean ====
section
/-! DEFINITION. Floating point: formats (R17), exact values, rounding and overflow (R21, R22), conversion (R23, R24), float
arithmetic (R127–R132) and the special functions (R139–R142). A value is exact until `Fmt.round` rounds it once. -/
namespace Sys2Proof.Machine

/-- The formats of R17. -/
inductive Fmt where
  | f64 | f32 | f16 | bf16 | e4m3 | e5m2 | e2m1 | e5m3
  deriving DecidableEq, Repr

/-- Exponent width, mantissa width M, bias. -/
def Fmt.dims : Fmt → Nat × Nat × Nat
  | .f64 => (11, 52, 1023)
  | .f32 => (8, 23, 127)
  | .f16 => (5, 10, 15)
  | .bf16 => (8, 7, 127)
  | .e4m3 => (4, 3, 7)
  | .e5m2 => (5, 2, 15)
  | .e2m1 => (2, 1, 1)
  | .e5m3 => (5, 3, 15)

/-- M of R17. -/
def Fmt.mb (f : Fmt) : Nat := f.dims.2.1
/-- The exponent width. -/
def Fmt.eb (f : Fmt) : Nat := f.dims.1
/-- The bias. -/
def Fmt.bias (f : Fmt) : Nat := f.dims.2.2
/-- The format has a sign bit; the block scale has none. -/
def Fmt.signed (f : Fmt) : Bool := decide (f ≠ .e5m3)
/-- The weight of the sign bit. -/
def Fmt.signBit (f : Fmt) : Nat := if f.signed then 2 ^ (f.eb + f.mb) else 0
/-- The format has infinities (R17). -/
def Fmt.hasInf : Fmt → Bool
  | .e4m3 | .e2m1 | .e5m3 => false
  | _ => true
/-- The code of the largest finite magnitude (R17). -/
def Fmt.top : Fmt → Nat
  | .e4m3 => 0x7E
  | .e2m1 => 7
  | .e5m3 => 0xFE
  | f => (2 ^ f.eb - 1) * 2 ^ f.mb - 1
/-- The canonical NaN (R19); E2M1 has none, and a NaN converts to +0 there (R23). -/
def Fmt.nan : Fmt → Nat
  | .e4m3 => 0x7F
  | .e5m3 => 0xFF
  | .e2m1 => 0
  | f => (2 ^ f.eb - 1) * 2 ^ f.mb + 2 ^ (f.mb - 1)
/-- The exponent of the last place of the subnormals. -/
def Fmt.emin (f : Fmt) : Int := 1 - (f.bias : Int) - f.mb

/-- An exact value: a NaN, an infinity, or (−1)^s × m × 2^e. -/
inductive FVal where
  | nan
  | inf (s : Bool)
  | fin (s : Bool) (m : Nat) (e : Int)
  deriving DecidableEq, Repr

/-- The value of an encoding (R17). -/
def Fmt.val (f : Fmt) (x : Nat) : FVal :=
  let mag := x % 2 ^ (f.eb + f.mb)
  let s := f.signed && decide (x / 2 ^ (f.eb + f.mb) % 2 = 1)
  let e := mag / 2 ^ f.mb
  let m := mag % 2 ^ f.mb
  if f.top < mag then (if f.hasInf && m == 0 then .inf s else .nan)
  else if e = 0 then .fin s m f.emin
  else .fin s (2 ^ f.mb + m) (f.emin + e - 1)

/-- Flip the sign. -/
def FVal.neg : FVal → FVal
  | .nan => .nan
  | .inf s => .inf (!s)
  | .fin s m e => .fin (!s) m e

/-- The value is a NaN. -/
def FVal.isNan : FVal → Bool
  | .nan => true
  | _ => false

/-- The value is a zero. -/
def FVal.isZero : FVal → Bool
  | .fin _ 0 _ => true
  | _ => false

/-- A magnitude m × 2^e, with something more when `sticky`, rounded to a multiple of 2^q (R21): the multiple. The caller
gives m enough bits that `sticky` lies below the last place. -/
def roundMag (rm : Rm) (neg : Bool) (q : Int) (m : Nat) (e : Int) (sticky : Bool) : Nat :=
  if q ≤ e then
    let n := m * 2 ^ (e - q).toNat
    if sticky && (match rm with
      | .rd => neg
      | .ru => !neg
      | _ => false) then n + 1 else n
  else
    let sh := (q - e).toNat
    -- a magnitude far below half a place needs no shift by its distance
    let (n, r, half) := if Nat.log2 m + 2 < sh then (0, (if m = 0 then 0 else 1), 2) else (m / 2 ^ sh, m % 2 ^ sh, 2 ^ (sh - 1))
    let inexact := decide (r ≠ 0) || sticky
    let up := match rm with
      | .rn => decide (half < r) || (decide (r = half) && (sticky || decide (n % 2 = 1)))
      | .rz => false
      | .rd => neg && inexact
      | .ru => !neg && inexact
    if up then n + 1 else n

/-- The last place at which a magnitude is rounded (R21). -/
def Fmt.place (f : Fmt) (m : Nat) (e : Int) : Int := max ((Nat.log2 m : Int) + e - f.mb) f.emin

/-- The mode rounds outward (R22). -/
def outward (rm : Rm) (neg : Bool) : Bool :=
  match rm with
  | .rn => true
  | .rz => false
  | .rd => neg
  | .ru => !neg

/-- The encoding of an overflowing result (R22). -/
def Fmt.overflow (f : Fmt) (rm : Rm) (sat neg : Bool) : Nat :=
  let sb := if neg then f.signBit else 0
  if outward rm neg && !sat then
    (match f with
     | .e4m3 => 0x7F
     | .e2m1 => sb + f.top
     | .e5m3 => 0xFF
     | _ => sb + (2 ^ f.eb - 1) * 2 ^ f.mb)
  else sb + f.top

/-- THE ROUNDING of an exact finite magnitude to a format (R21, R22). -/
def Fmt.roundFin (f : Fmt) (rm : Rm) (sat neg : Bool) (m : Nat) (e : Int) (sticky : Bool) : Nat :=
  let sb := if neg then f.signBit else 0
  let q := f.place m e
  let n := roundMag rm neg q m e sticky
  let code := if n = 0 then 0 else n + (q - f.emin).toNat * 2 ^ f.mb
  if f.top < code then f.overflow rm sat neg else sb + code

/-- A result of arithmetic in a format: NaNs are canonical, infinities stay (R19, R20, R125). -/
def Fmt.round (f : Fmt) (rm : Rm) (sat : Bool) (v : FVal) : Nat :=
  match v with
  | .nan => f.nan
  | .inf s => (if s then f.signBit else 0) + (2 ^ f.eb - 1) * 2 ^ f.mb
  | .fin s m e => f.roundFin rm sat s m e false

/-- A conversion of a float value to a format (R23). `sticky` says that the exact value lies beyond the magnitude given. -/
def Fmt.convert (f : Fmt) (rm : Rm) (sat : Bool) (v : FVal) (sticky : Bool) : Nat :=
  match f, v with
  | .e2m1, .nan => 0
  | .e2m1, .inf s => (if s then 8 else 0) + 7
  | f, .nan => f.nan
  | .e4m3, .inf s => if sat then (if s then 0x80 else 0) + 0x7E else 0x7F
  | .e5m3, .inf s => if s then (if sat then 0 else 0xFF) else if sat then 0xFE else 0xFF
  | .e5m3, .fin s m e =>
    if m = 0 && !sticky then 0
    else if s then (if sat then 0 else 0xFF)
    else Fmt.e5m3.roundFin rm sat false m e sticky
  | f, .inf s => (if s then f.signBit else 0) + (2 ^ f.eb - 1) * 2 ^ f.mb
  | f, .fin s m e => f.roundFin rm sat s m e sticky

/-- A float rounded to an integer by RM and clamped; a NaN gives 0 (R23). -/
def FVal.toInt (rm : Rm) (lo hi : Int) : FVal → Int
  | .nan => 0
  | .inf s => if s then lo else hi
  | .fin s m e =>
    -- beyond 2^64 in magnitude every clamp is reached
    if 70 < (Nat.log2 m : Int) + e ∧ m ≠ 0 then (if s then lo else hi)
    else
      let n : Int := roundMag rm s 0 m e false
      max lo (min hi (if s then -n else n))

/-! ## Arithmetic -/

/-- The exact integer of a finite value over 2^q, q at most its exponent. -/
def scaled (s : Bool) (m : Nat) (e q : Int) : Int :=
  let n : Int := m * 2 ^ (e - q).toNat
  if s then -n else n

/-- An exact sum, with the zero's sign of R20. -/
def FVal.add (rm : Rm) : FVal → FVal → FVal
  | .nan, _ => .nan
  | _, .nan => .nan
  | .inf s, .inf t => if s = t then .inf s else .nan
  | .inf s, _ => .inf s
  | _, .inf t => .inf t
  | .fin s m e, .fin t n d =>
    if m = 0 ∧ n = 0 then .fin (if s = t then s else decide (rm = .rd)) 0 0
    else if m = 0 then .fin t n d
    else if n = 0 then .fin s m e
    else
      let q := min e d
      let x := scaled s m e q + scaled t n d q
      if x = 0 then .fin (decide (rm = .rd)) 0 0 else .fin (decide (x < 0)) x.natAbs q

/-- An exact product (R127). -/
def FVal.mul : FVal → FVal → FVal
  | .nan, _ => .nan
  | _, .nan => .nan
  | .inf s, .inf t => .inf (s != t)
  | .inf s, .fin t n _ => if n = 0 then .nan else .inf (s != t)
  | .fin s m _, .inf t => if m = 0 then .nan else .inf (s != t)
  | .fin s m e, .fin t n d => .fin (s != t) (m * n) (e + d)

/-- An exact quotient as 80 significant bits and more, with whether something is left over. -/
def FVal.div : FVal → FVal → FVal × Bool
  | .nan, _ => (.nan, false)
  | _, .nan => (.nan, false)
  | .inf _, .inf _ => (.nan, false)
  | .inf s, .fin t _ _ => (.inf (s != t), false)
  | .fin s _ _, .inf t => (.fin (s != t) 0 0, false)
  | .fin s m e, .fin t n d =>
    if n = 0 then (if m = 0 then (.nan, false) else (.inf (s != t), false))
    else
      let k := 80 + Nat.log2 n
      (.fin (s != t) (m * 2 ^ k / n) (e - d - k), decide (m * 2 ^ k % n ≠ 0))

/-- The order of two numbers; `none` when either is a NaN. −0 and +0 are equal. -/
def FVal.cmp : FVal → FVal → Option Ordering
  | .nan, _ => none
  | _, .nan => none
  | .inf s, .inf t => some (if s = t then .eq else if s then .lt else .gt)
  | .inf s, _ => some (if s then .lt else .gt)
  | _, .inf t => some (if t then .gt else .lt)
  | .fin s m e, .fin t n d =>
    let q := min e d
    some (compare (scaled s m e q) (scaled t n d q))

/-- FADD of two encodings (R127). -/
def fAdd (f : Fmt) (rm : Rm) (sat : Bool) (x y : Nat) : Nat := f.round rm sat ((f.val x).add rm (f.val y))
/-- FMUL (R127). -/
def fMul (f : Fmt) (rm : Rm) (sat : Bool) (x y : Nat) : Nat := f.round rm sat ((f.val x).mul (f.val y))
/-- FFMA, fused (R127). -/
def fFma (f : Fmt) (rm : Rm) (sat : Bool) (x y z : Nat) : Nat :=
  f.round rm sat (((f.val x).mul (f.val y)).add rm (f.val z))

/-- x counts as less than y for FMIN and FMAX: −0 is less than +0 (R128). -/
def fBelow (f : Fmt) (x y : Nat) : Bool :=
  match (f.val x).cmp (f.val y) with
  | some .lt => true
  | some .eq => decide (f.signBit ≤ x) && !decide (f.signBit ≤ y)
  | _ => false

/-- FMIN and FMAX (R128). -/
def fMinMax (f : Fmt) (mx : Bool) (x y : Nat) : Nat :=
  match (f.val x).isNan, (f.val y).isNan with
  | true, true => f.nan
  | true, false => y
  | false, true => x
  | false, false => if mx then (if fBelow f x y then y else x) else if fBelow f y x then y else x

/-- The sign of an encoding flipped (R125). -/
def fNeg (f : Fmt) (neg : Bool) (x : Nat) : Nat :=
  if neg then (if f.signBit ≤ x then x - f.signBit else x + f.signBit) else x

/-- FCMP (R129). -/
def fCmp (f : Fmt) (c : FCmp) (x y : Nat) : Bool :=
  let o := (f.val x).cmp (f.val y)
  match c with
  | .eq => o == some .eq
  | .ne => o == some .lt || o == some .gt
  | .lt => o == some .lt
  | .le => o == some .lt || o == some .eq
  | .gt => o == some .gt
  | .ge => o == some .gt || o == some .eq
  | .num => o.isSome
  | .nan => o.isNone
  | .equ => o.isNone || o == some .eq
  | .neu => o.isNone || o != some .eq
  | .ltu => o.isNone || o == some .lt
  | .leu => o.isNone || o != some .gt
  | .gtu => o.isNone || o == some .gt
  | .geu => o.isNone || o != some .lt

/-- The class number of FCLASS (R130). -/
def fClass (f : Fmt) (x : Nat) : Nat :=
  match f.val x with
  | .nan => if x / 2 ^ (f.mb - 1) % 2 = 1 then 9 else 8
  | .inf s => if s then 0 else 7
  | .fin s m _ => if m = 0 then (if s then 3 else 4) else if m < 2 ^ f.mb then (if s then 2 else 5) else if s then 1 else 6

/-- FRND (R131): rounded to an integral value. -/
def fRnd (f : Fmt) (rm : Rm) (x : Nat) : Nat :=
  match f.val x with
  | .fin s m e => if 0 ≤ e then x else f.round .rn false (.fin s (roundMag rm s 0 m e false) 0)
  | v => f.round .rn false v

/-- x − trunc(x), exact, with the sign of x (R131, R142). -/
def FVal.frac : FVal → FVal
  | .fin s m e => if 0 ≤ e then .fin s 0 0 else
      let sh := (-e).toNat
      .fin s (if Nat.log2 m + 2 < sh then m else m % 2 ^ sh) e
  | .inf s => .fin s 0 0
  | .nan => .nan

/-- FFRAC (R131). -/
def fFrac (f : Fmt) (x : Nat) : Nat := f.round .rn false (f.val x).frac

/-- FSCALE (R132): x × 2^n rounded once. -/
def fScale (f : Fmt) (rm : Rm) (sat : Bool) (x : Nat) (n : Int) : Nat :=
  match f.val x with
  | .fin s m e => f.roundFin rm sat s m (e + n) false
  | v => f.round rm sat v

/-! ## Grouped and block-scaled elements -/

/-- Quantisation (R24): clamp(z + round(x ÷ s), 0, 2^w − 1). -/
def quantise (rm : Rm) (w : Nat) (x s : FVal) (z : Nat) : Nat :=
  match x.div s with
  | (.nan, _) => z
  | (.inf s, _) => if s then 0 else 2 ^ w - 1
  | (.fin s m e, st) =>
    let n : Int := if 40 < (Nat.log2 m : Int) + e ∧ m ≠ 0 then 2 ^ 40 else roundMag rm s 0 m e st
    (max 0 (min (2 ^ w - 1) ((z : Int) + (if s then -n else n)))).toNat

/-- Dequantisation (R24): s × (q − z), exact. DESIGN CHOICE (log 70): where q = z the integer difference is +0 in every RM, so the product has
the sign of s; R24 and R138 state no sign. -/
def dequantise (s : FVal) (q z : Nat) : FVal :=
  let d : Int := (q : Int) - z
  s.mul (.fin (decide (d < 0)) d.natAbs 0)

/-- A block-scaled element (R25): scale × element, exact. -/
def blockValue (c elem : FVal) : FVal := c.mul elem

/-! ## Special functions -/

/-- An enclosure of a positive exact result: a × 2^g ≤ y ≤ (a + err) × 2^g. -/
structure Encl where
  a : Nat
  g : Int
  err : Nat
  deriving DecidableEq, Repr

/-- Fraction bits of the fixed-point work. -/
abbrev fixBits : Nat := 256
/-- ln 2 × 2^256, rounded down. -/
def ln2Fix : Nat := 80260960185991308862233904206310070533990667611589946606122867505419956976171
/-- 2^256 ÷ ln 2, rounded down. -/
def invLn2Fix : Nat := 167052672916848388242985626561247531987276682633131050150846402744536260568209
/-- 2π × 2^256, rounded down. -/
def twoPiFix : Nat := 727543153783532648560469885555459725306786754656784859917544302235877788932370

/-- Integer square root, rounded down, by bits: `b` runs down from the top bit. -/
def isqrtGo (n : Nat) : Nat → Nat → Nat
  | 0, r => r
  | b + 1, r => if (r + 2 ^ b) * (r + 2 ^ b) ≤ n then isqrtGo n b (r + 2 ^ b) else isqrtGo n b r

/-- Integer square root, rounded down. -/
def isqrt (n : Nat) : Nat := isqrtGo n (Nat.log2 n / 2 + 1) 0

/-- Σ t^k ÷ k! from term `k` on, fixed point. -/
def expSeries (t : Nat) : Nat → Nat → Nat → Nat
  | 0, _, _ => 0
  | n + 1, k, p => p + expSeries t n (k + 1) (p * t / 2 ^ fixBits / (k + 1))

/-- Σ z^(2k+1) ÷ (2k+1), fixed point, `zz` = z². -/
def atanhSeries (zz : Nat) : Nat → Nat → Nat → Nat
  | 0, _, _ => 0
  | n + 1, k, p => p / k + atanhSeries zz n (k + 2) (p * zz / 2 ^ fixBits)

/-- The alternating series of sine ÷ x (k from 1) or cosine (k from 0): Σ ± u^j ÷ …, with `u` = x². -/
def trigSeries (u : Nat) : Nat → Nat → Int → Nat → Int
  | 0, _, _, _ => 0
  | n + 1, k, sg, p => sg * p + trigSeries u n (k + 2) (-sg) (p * u / 2 ^ fixBits / ((k + 1) * (k + 2)))

/-- Enclosure of 2^x for a finite x, from an exponent rounded down: a negative x away from 0. -/
def exp2Encl (s : Bool) (m : Nat) (e : Int) : Encl :=
  -- beyond 2^20 in magnitude the result lies outside every format
  if 20 < (Nat.log2 m : Int) + e ∧ m ≠ 0 then { a := 2 ^ 200, g := if s then -40000 else 40000, err := 1 } else
  let k := (-(e + fixBits)).toNat
  let fx : Int := if 0 ≤ e + fixBits then m * 2 ^ (e + fixBits).toNat else (if s then (m + 2 ^ k - 1) / 2 ^ k else m / 2 ^ k : Nat)
  let fx := if s then -fx else fx
  let n := fx / 2 ^ fixBits
  let t := (fx % 2 ^ fixBits).toNat * ln2Fix / 2 ^ fixBits
  { a := expSeries t 70 0 (2 ^ fixBits) / 2 ^ 56, g := n - 200, err := 4 }

/-- log2 of a positive m × 2^e: the sign and the enclosure of the magnitude. -/
def log2Encl (m : Nat) (e : Int) : Bool × Encl :=
  let b := Nat.log2 m
  -- m = 2^b × μ, 1 ≤ μ < 2; z = (μ − 1) ÷ (μ + 1)
  let z := (m - 2 ^ b) * 2 ^ fixBits / (m + 2 ^ b)
  let ln := 2 * atanhSeries (z * z / 2 ^ fixBits) 90 1 z
  let y : Int := ((b : Int) + e) * 2 ^ fixBits + (ln * invLn2Fix / 2 ^ fixBits : Nat)
  (decide (y < 0), { a := (y.natAbs - 2 ^ 12), g := -fixBits, err := 2 ^ 13 })

/-- sin(2πg) for 0 < g ≤ 1/8, g = m × 2^e. -/
def sinEncl (m : Nat) (e : Int) : Encl :=
  -- θ = m × 2π × 2^(e − 256); u = θ² in fixed point
  let th : Nat := if 0 ≤ e then m * twoPiFix * 2 ^ e.toNat
    else if Nat.log2 m + 300 < (-e).toNat then 0 else m * twoPiFix / 2 ^ (-e).toNat
  let sr := (trigSeries (th * th / 2 ^ fixBits) 40 1 1 (2 ^ fixBits)).toNat
  let p := m * twoPiFix * sr
  let sh := Nat.log2 p - 200
  { a := p / 2 ^ sh, g := e - 2 * fixBits + sh, err := 4 }

/-- cos(2πg) for 0 ≤ g ≤ 1/8. -/
def cosEncl (m : Nat) (e : Int) : Encl :=
  let th : Nat := if 0 ≤ e then m * twoPiFix * 2 ^ e.toNat
    else if Nat.log2 m + 300 < (-e).toNat then 0 else m * twoPiFix / 2 ^ (-e).toNat
  { a := ((trigSeries (th * th / 2 ^ fixBits) 40 0 1 (2 ^ fixBits)).toNat - 2 ^ 30) / 2 ^ 56, g := -200, err := 4 }

/-- A result that is exact or an enclosure with its sign. -/
inductive Spec where
  | exact (v : FVal)
  | encl (neg : Bool) (e : Encl)
  deriving DecidableEq, Repr

/-- sin(2πf) for f = m × 2^e turns, 0 ≤ f < 1, through the eighths of the circle: sign and enclosure, or an exact value
(R142). -/
def sinTurn (m : Nat) (e : Int) : Spec :=
  if 0 ≤ e ∨ m = 0 then .exact (.fin false 0 0) else
  let k := (-e).toNat
  -- work over 2^-(k + 3): eighths are 2^k
  let f := 8 * m
  let oct := f / 2 ^ k
  let inq := f % 2 ^ (k + 1)
  let q := -(k : Int) - 3
  let half := decide (4 ≤ oct)
  let quad := oct / 2 % 2
  -- distance into the quadrant, mirrored in the second and fourth
  let d := if quad = 0 then inq else 2 ^ (k + 1) - inq
  if d = 0 then (if quad = 0 then .exact (.fin false 0 0) else .exact (.fin half 1 0))
  else if d = 2 ^ (k + 1) then .exact (.fin half 1 0)
  else if d ≤ 2 ^ k then .encl half (sinEncl d q)
  else .encl half (cosEncl (2 ^ (k + 1) - d) q)

/-- The exact value or enclosure of a special function on a value (R139–R142). `op` is the opcode. -/
def specialOf (op : Nat) (v : FVal) : Spec :=
  match op, v with
  | _, .nan => .exact .nan
  -- RCP
  | 0x10D, .inf s => .exact (.fin s 0 0)
  | 0x10D, .fin s m e =>
    if m = 0 then .exact (.inf s)
    else if m = 2 ^ Nat.log2 m then .exact (.fin s 1 (-(e + Nat.log2 m)))
    else .encl s { a := 2 ^ (220 + Nat.log2 m) / m, g := -(e + 220 + Nat.log2 m), err := 1 }
  -- RSQ
  | 0x10E, .inf s => if s then .exact .nan else .exact (.fin false 0 0)
  | 0x10E, .fin s m e =>
    if m = 0 then .exact (.inf s) else if s then .exact .nan
    else
      let m' := if e % 2 = 0 then m else 2 * m
      let e' := if e % 2 = 0 then e else e - 1
      let r := isqrt m'
      if r * r = m' ∧ r = 2 ^ Nat.log2 r then .exact (.fin false 1 (-(e' / 2 + Nat.log2 r)))
      else .encl false { a := isqrt (2 ^ (2 * (200 + Nat.log2 m')) / m'), g := -(e' / 2) - (200 + Nat.log2 m'), err := 1 }
  -- EXP2
  | 0x110, .inf s => .exact (if s then .fin false 0 0 else .inf false)
  | 0x110, .fin s m e =>
    if m = 0 then .exact (.fin false 1 0)
    else if (0 ≤ e ∨ m % 2 ^ (-e).toNat = 0) ∧ (Nat.log2 m : Int) + e ≤ 20 then
      let n : Int := if 0 ≤ e then m * 2 ^ e.toNat else m / 2 ^ (-e).toNat
      .exact (.fin false 1 (if s then -n else n))
    else .encl false (exp2Encl s m e)
  -- LOG2
  | 0x111, .inf s => .exact (if s then .nan else .inf false)
  | 0x111, .fin s m e =>
    if m = 0 then .exact (.inf true) else if s then .exact .nan
    else if m = 2 ^ Nat.log2 m then
      let n : Int := e + Nat.log2 m
      .exact (.fin (decide (n < 0)) n.natAbs 0)
    else .encl (log2Encl m e).1 (log2Encl m e).2
  -- SINR: odd
  | 0x112, .inf _ => .exact .nan
  | 0x112, .fin s m e =>
    if m = 0 then .exact (.fin s 0 0)
    else match FVal.frac (.fin s m e) with
      | .fin _ fm fe => (match sinTurn fm fe with
        | .exact (.fin _ 0 _) => .exact (.fin false 0 0)
        | .exact (.fin t n d) => .exact (.fin (t != s) n d)
        | .exact x => .exact x
        | .encl t x => .encl (t != s) x)
      | x => .exact x
  -- COSR: cos(2πf) = sin(2π(f + 1/4)), f taken without its sign
  | 0x113, .inf _ => .exact .nan
  | 0x113, .fin s m e =>
    (match FVal.frac (.fin s m e) with
      | .fin _ fm fe =>
        if fm = 0 then .exact (.fin false 1 0) else
        let d := fe - 2
        let t := 4 * fm + 2 ^ (-d - 2).toNat
        (match sinTurn (t % 2 ^ (-d).toNat) d with
        | .exact (.fin _ 0 _) => .exact (.fin false 0 0)
        | x => x)
      | x => .exact x)
  | _, x => .exact x

/-- r lies within `num`/2^`sh` ulp of every value of the enclosure that the result can have, in format `f` (R140). No enclosed result is a
power of two, so it lies in the binade of the lower end. -/
def withinUlp (f : Fmt) (neg : Bool) (y : Encl) (num sh : Nat) (r : FVal) : Bool :=
  match r with
  | .nan => false
  | .inf s => s == neg && decide (Fmt.top f < (f.roundFin .rn false false (y.a + y.err) y.g true))
  | .fin s m e =>
    if s ≠ neg then false else
    let u := f.place y.a y.g
    if m = 0 then decide (f.roundFin .rn false false y.a y.g false = 0)
    else if 3000 < y.g ∨ y.g < -3000 then false
    else
      let q := min (min e y.g) (u - sh)
      let far := fun (a : Nat) => decide ((scaled false m e q - scaled false a y.g q).natAbs ≤ num * 2 ^ (u - sh - q).toNat)
      far y.a && far (min (y.a + y.err) (2 ^ (Nat.log2 y.a + 1)))

/-- An f32 result that f16 or bf16 rounds once more meets their bound too (R140): (0.5 + 2^-14) or (0.5 + 2^-17) ulp for RCP and RSQ,
(0.5 + 2^-12) or (0.5 + 2^-15) ulp for the others. -/
def narrowOk (op : Nat) (x c : FVal) (neg : Bool) (y : Encl) : Bool :=
  [Fmt.f16, Fmt.bf16].all (fun f =>
    let sh := (if op = 0x10D ∨ op = 0x10E then 14 else 12) + (if f = .bf16 then 3 else 0)
    (f.val (f.round .rn false x)).cmp x != some .eq || withinUlp f neg y (2 ^ (sh - 1) + 1) sh (f.val (f.round .rn false c)))

/-- The f32 or f64 result of a special function: the part's own bits where they meet R140, otherwise the correctly
rounded value (log 4). -/
def specialWide (op : Nat) (f : Fmt) (x : Nat) : Nat :=
  match specialOf op (f.val x) with
  | .exact v => f.round .rn false v
  | .encl neg y =>
    let k := if op = 0x10D ∨ op = 0x10E then 1 else 2
    let c := (Config.special op (if f = .f64 then 9 else 8) (BitVec.ofNat 64 x)).toNat % 2 ^ (if f = .f64 then 64 else 32)
    if withinUlp f neg y k 0 (f.val c) && (f != .f32 || narrowOk op (f.val x) (f.val c) neg y) then c
    else f.roundFin .rn false neg y.a y.g true

/-- RCP, RSQ, EXP2, LOG2, SINR, COSR in a format (R140): f16 and bf16 round the f32 result once. -/
def fSpecial (op : Nat) (f : Fmt) (x : Nat) : Nat :=
  match f with
  | .f64 => specialWide op .f64 x
  | .f32 => specialWide op .f32 x
  | f => f.round .rn false (Fmt.f32.val (specialWide op .f32 (Fmt.f32.round .rn false (f.val x))))

/-- SQRT, correctly rounded (R140, R141). -/
def fSqrt (f : Fmt) (rm : Rm) (x : Nat) : Nat :=
  match f.val x with
  | .nan => f.nan
  | .inf s => if s then f.nan else x
  | .fin s m e =>
    if m = 0 then x else if s then f.nan
    else
      let m' := if e % 2 = 0 then m else 2 * m
      let e' := if e % 2 = 0 then e else e - 1
      let n := m' * 2 ^ 140
      let r := isqrt n
      f.roundFin rm false false r (e' / 2 - 70) (decide (r * r ≠ n))

end Sys2Proof.Machine
end

