-- ==== Sys2Proof/Machine/Anvil.lean ====
section
/-! DEFINITION. The anvil: the sums of R32 and R33 over the slots of FmtSlot,
the order of slot and tile accesses (R217, R218), acceptance into the queue (R220, R291). -/
namespace Sys2Proof.Machine

/-! ## Slots and tiles -/

/-- A byte of a slot: data area, or side area from 16,384 on (R37). -/
def Wgroup.slotByte (g : Wgroup) (o i : Nat) : Nat := (g.slots.get (20480 * o + i)).toNat

/-- A tile word (R37). -/
def tileIdx (t m n : Nat) : Nat := 16384 * t + 128 * m + n

/-- The packed element at position p of row or column r (R288). -/
def Wgroup.elem (g : Wgroup) (o r p w : Nat) : Nat :=
  let b := p * w / 8
  let byte := fun i => g.slotByte (o + i / 128) (128 * r + i % 128)
  if w = 16 then byte b + 256 * byte (b + 1)
  else if w = 4 then byte b / 16 ^ (p % 2) % 16 else byte b

/-- The value of an element code in a format (R29, R17). -/
def elemVal (f x : Nat) : FVal :=
  match f with
  | 1 => Fmt.e4m3.val x
  | 2 => Fmt.e5m2.val x
  | 3 => Fmt.e2m1.val x
  | 4 => Fmt.e4m3.val x
  | 5 => let i := (BitVec.ofNat 8 x).toInt; .fin (decide (i < 0)) i.natAbs 0
  | 8 => Fmt.bf16.val x
  | 9 => Fmt.f16.val x
  | _ => .fin false x 0

/-- The kept elements of a row of the sparse operand: k-step and packed position (R290). -/
def Wgroup.kept (g : Wgroup) (f : FSlot) (om r : Nat) : List (Nat × Nat) :=
  (List.range (f.k / 64 * 32)).filterMap (fun t =>
    let x := g.slotByte (om + t / 128) (128 * r + t % 128)
    if x < 64 then some (64 * (t / 32) + x, t) else none)

/-- The k-steps of an output element with the packed positions of A and B: all of them, or those kept (R33, R290). -/
def Wgroup.steps (g : Wgroup) (f : FSlot) (om m n : Nat) : List (Nat × Nat × Nat) :=
  if f.spn = 0 then (List.range f.k).map (fun k => (k, k, k))
  else if f.spo = 0 then (g.kept f om m).map (fun x => (x.1, x.2, x.1))
  else (g.kept f om n).map (fun x => (x.1, x.1, x.2))

/-- The value of an operand's element with its block scale (R25, R289). -/
def Wgroup.operand (g : Wgroup) (f : FSlot) (b : Bool) (o r k p : Nat) : FVal :=
  let code := if b then f.bf else f.af
  let x := elemVal code (g.elem o r p (fmtBits code))
  if f.blocked then
    (Fmt.e5m3.val (g.slotByte (f.sideSlot b o) (16384 + r * (f.k / 32) + k / 32))).mul x
  else x

/-- An exact sum of values: +0 where there are none (R33). -/
def exactSum : List FVal → FVal
  | [] => .fin false 0 0
  | x :: xs => xs.foldl (fun a y => a.add .rn y) x

/-- The sum S of one unit for a float or grouped pair (R33). -/
def Wgroup.unitSum (g : Wgroup) (f : FSlot) (oa ob m n u0 : Nat) (ks : List (Nat × Nat × Nat)) : FVal :=
  if f.grouped then
    let j := u0 / f.g
    let x := n * (f.k / f.g) + j
    let side := f.sideSlot true ob
    let sc := Fmt.f16.val (g.slotByte side (16384 + 2 * x) + 256 * g.slotByte side (16384 + 2 * x + 1))
    let z := match f.zw with
      | 1 => g.slotByte side (16384 + 2048 + x / 2) / 16 ^ (x % 2) % 16
      | 2 => g.slotByte side (16384 + 2048 + x)
      | _ => 0
    let as_ := ks.map (fun s => (g.operand f false oa m s.1 s.2.1, g.elem ob n s.2.2 (fmtBits f.bf)))
    let aq := exactSum (as_.map (fun y => y.1.mul (.fin false y.2 0)))
    let sa := exactSum (as_.map (fun y => y.1))
    match sc.mul (aq.add .rn ((FVal.fin true z 0).mul sa)) with
    | .fin _ 0 _ => .fin false 0 0
    | v => v
  else exactSum (ks.map (fun s => (g.operand f false oa m s.1 s.2.1).mul (g.operand f true ob n s.1 s.2.2)))

/-- One output element (R33): units in ascending order of k. -/
def Wgroup.mmaElem (g : Wgroup) (f : FSlot) (sg oa ob om m n acc : Nat) : Nat :=
  let ks := g.steps f om m n
  if f.af = 5 then
    let s := ks.foldl (fun (x : Int) k => x + (BitVec.ofNat 8 (g.elem oa m k.2.1 8)).toInt * (BitVec.ofNat 8 (g.elem ob n k.2.2 8)).toInt) 0
    (BitVec.ofInt 32 ((acc : Int) + s)).toNat
  else
    let u := f.unit sg
    (List.range ((f.k + u - 1) / u)).foldl (fun a i =>
      let mine := ks.filter (fun k => decide (k.1 / u = i))
      fAdd .f32 .rn false a (Fmt.f32.round .rn false (g.unitSum f oa ob m n (i * u) mine))) acc

/-- An output element over the k-steps k0 … k1 − 1 only, a whole number of units (R32, R291). -/
def Wgroup.mmaSpan (g : Wgroup) (f : FSlot) (sg oa ob om m n acc k0 k1 : Nat) : Nat :=
  let ks := (g.steps f om m n).filter (fun k => decide (k0 ≤ k.1 ∧ k.1 < k1))
  if f.af = 5 then
    let s := ks.foldl (fun (x : Int) k => x + (BitVec.ofNat 8 (g.elem oa m k.2.1 8)).toInt * (BitVec.ofNat 8 (g.elem ob n k.2.2 8)).toInt) 0
    (BitVec.ofInt 32 ((acc : Int) + s)).toNat
  else
    let u := f.unit sg
    (List.range ((min k1 f.k + u - 1) / u - k0 / u)).foldl (fun a i =>
      let i := k0 / u + i
      let mine := ks.filter (fun k => decide (k.1 / u = i))
      fAdd .f32 .rn false a (Fmt.f32.round .rn false (g.unitSum f oa ob m n (i * u) mine))) acc

/-- The k-steps of a split granule: 64, 32 or 16 (R32). -/
def granuleSteps (sg : Nat) : Nat := if sg = 0 then 0 else 128 / 2 ^ sg

/-- A tile with the granules g0 … g1 − 1 of an operation's k-steps taken in (R291); z clears it first where g0 is 0. -/
def Wgroup.mmaPart (g : Wgroup) (d : DWord) (z : Bool) (sg oa ob om t g0 g1 : Nat) : Wgroup :=
  let f := fslotOf d
  let gr := granuleSteps sg
  { g with tiles := (List.range 128).foldl (fun st m => (List.range 128).foldl (fun st n =>
      let acc := if z ∧ g0 = 0 then 0 else (g.tiles.get (tileIdx t m n)).toNat
      st.set (tileIdx t m n) (BitVec.ofNat 32 (g.mmaSpan f sg oa ob om m n acc (g0 * gr) (g1 * gr)))) st) g.tiles }

/-- Granules of an operation's k-steps. -/
def granulesOf (d : DWord) (sg : Nat) : Nat := ((fslotOf d).k + granuleSteps sg - 1) / max 1 (granuleSteps sg)

/-- A whole tile by R33. -/
def Wgroup.mmaTile (g : Wgroup) (d : DWord) (z : Bool) (sg oa ob om t : Nat) : Wgroup :=
  let f := fslotOf d
  { g with tiles := (List.range 128).foldl (fun st m => (List.range 128).foldl (fun st n =>
      let acc := if z then 0 else (g.tiles.get (tileIdx t m n)).toNat
      st.set (tileIdx t m n) (BitVec.ofNat 32 (g.mmaElem f sg oa ob om m n acc))) st) g.tiles }

/-- A tile with every word 0. -/
def Wgroup.zeroTile (g : Wgroup) (t : Nat) : Wgroup :=
  { g with tiles := g.tiles.filter (fun p => p.1 / 16384 != t) }

/-! ## Uncorrectable errors in slots and tiles (R278, source 2): the 64-byte lines that hold one stand in `bad` -/

/-- A read of some slots meets an error. -/
def Wgroup.badSlots (g : Wgroup) (os : List Nat) : Bool := g.bad.any (fun x => decide (2 ^ 40 ≤ x ∧ x < 2 ^ 41) && os.contains ((x - 2 ^ 40) / 320))

/-- A read of a tile meets an error. -/
def Wgroup.badTile (g : Wgroup) (t : Nat) : Bool := g.bad.any (fun x => decide (2 ^ 41 ≤ x) && (x - 2 ^ 41) / 1024 == t)

/-- Bytes of slots have been written: the lines that they cover hold no error any more. -/
def Wgroup.cleanSlots (g : Wgroup) (is : List Nat) : Wgroup :=
  if g.bad = [] then g
  else { g with bad := g.bad.filter (fun x => !(decide (2 ^ 40 ≤ x ∧ x < 2 ^ 41) && (List.range 64).all (fun i => is.contains (64 * (x - 2 ^ 40) + i)))) }

/-- A whole tile has been written. -/
def Wgroup.cleanTile (g : Wgroup) (t : Nat) : Wgroup :=
  if g.bad = [] then g else { g with bad := g.bad.filter (fun x => !(decide (2 ^ 41 ≤ x) && (x - 2 ^ 41) / 1024 == t)) }

/-! ## The order of slot accesses (R217, R284, R285) -/

/-- A read may proceed: its slot has been released if it was claimed, and every write received before it has landed. -/
def readReady (order : List SlotAccess) (seq slot : Nat) : Bool :=
  match order.find? (fun x => x.seq == seq && x.slot == slot) with
  | none => true
  | some a => !a.needRelo && !((order.takeWhile (fun x => !(x.seq == seq && x.slot == slot))).any (fun x => x.slot == slot && x.write))

/-- A write may change its slot: every read received before it is finished, reads that wait for a RELO apart, and every write received before
it to bytes that it also writes has landed. DESIGN CHOICE (log 90): it does not wait for an earlier write that will never land. -/
def writeReady (order : List SlotAccess) (seq slot : Nat) : Bool :=
  match order.find? (fun x => x.seq == seq && x.slot == slot) with
  | none => true
  | some a => !((order.takeWhile (fun x => !(x.seq == seq && x.slot == slot))).any (fun x =>
      x.slot == slot && !x.needRelo && (!x.write || (!x.lost && decide (x.lo < a.hi ∧ a.lo < x.hi)))))

/-- A byte of a slot that a SLOTWR has written after this write was received stays (R217). -/
def Wgroup.shadowed (g : Wgroup) (seq i : Nat) : Bool :=
  g.order.any (fun x => x.seq == seq && x.write && x.slot == i / 20480 && x.over_.contains (i % 20480))

/-- Receive the reads of an operation: a new receipt number for all its slots (R217). -/
def State.receiveReads (s : State) (slots : List Nat) : Nat × State :=
  let q := s.eng.nextSeq
  let s := { s with eng := { s.eng with nextSeq := q + 1 } }
  let new := slots.map (fun o => ({ seq := q, slot := o, write := false, needRelo := s.wg.claimed.contains o, lo := 0, hi := 20480, over_ := [], lost := false } : SlotAccess))
  (q, { s with wg := { s.wg with order := s.wg.order ++ new } })

/-- Receive a write of the bytes lo … hi − 1 of a slot. -/
def State.receiveWrite (s : State) (o lo hi : Nat) : Nat × State :=
  let q := s.eng.nextSeq
  let s := { s with eng := { s.eng with nextSeq := q + 1 } }
  (q, { s with wg := { s.wg with order := s.wg.order ++ [{ seq := q, slot := o, write := true, needRelo := false, lo := lo, hi := hi, over_ := [], lost := false }] } })

/-! ## The queue (R220, R291) -/

/-- A workgroup has been saved: its work waits in its context and fills no queue (R291, R416). -/
def State.isSaved (s : State) (wg : Nat) : Bool := s.sched.saved.any (fun p => p.1.key == wg)

/-- Operations the anvil of a core has accepted. -/
def State.anvilCount (s : State) (core : Nat) : Nat :=
  (s.eng.anvil.filter (fun a => a.core == core && !a.waitsCopy && !s.isSaved a.wg)).length

/-- The anvil of the focused core is fenced (R277). -/
def State.anvilFenced (s : State) : Bool := s.mgmt.fencedAnvil.getLsbD s.cur.id.core

/-- Put an operation of the focused warp into the queue. -/
def State.enqueue (s : State) (tile : Nat) (op : AOp) (reads : List Nat) (waitsCopy : Bool) (epc : DWord) : State :=
  let a : AnvilOp := { id := s.eng.nextId, core := s.cur.id.core, wg := s.wg.key, warp := s.cur.id, tile := tile, op := op,
                       reads := reads, started := false, waitsCopy := waitsCopy, step := 0, inRegion := s.cur.region.isSome, epc := epc, pid := s.cur.path.pid }
  { s with eng := { s.eng with anvil := s.eng.anvil ++ [a], nextId := s.eng.nextId + 1 } }

/-- Operations on a tile that have not finished (R218). -/
def State.tileBusy (s : State) (wg tile : Nat) : Bool :=
  s.eng.anvil.any (fun a => a.wg == wg && a.tile == tile && (match a.op with
    | .slotrd _ _ _ _ _ => false
    | _ => true))

/-- The checks of an MMA or MMAS at issue (R216, R218, R220), by cause. -/
def mmaFault (s : State) (sparse : Bool) (fs t oa ob om : Nat) : Option Nat :=
  let d := s.wg.fs.getD fs 0
  let f := fslotOf d
  if s.anvilFenced then some 0x0E6
  else if d = 0 ∨ f.spn ≠ (if sparse then 32 else 0) ∨ !f.sideFits then some 0x0E5
  else if (f.reads oa ob om).any (fun o => decide (s.wg.kern.oslots ≤ o)) then some 0x026
  else if !s.wg.live.contains t then some 0x0E7
  else none

/-- Receive an MMA or MMAS (R209, R217, R218): its slot reads and its place on the tile are fixed now. -/
def mmaReceive (s : State) (sparse z : Bool) (sg fs t oa ob om : Nat) (k : Option Nat) (waitsCopy : Bool) (epc : DWord) : State :=
  let d := s.wg.fs.getD fs 0
  let (q, s) := s.receiveReads ((fslotOf d).reads oa ob om)
  s.enqueue t (.mma d z sparse sg oa ob om k) [q] waitsCopy epc

/-- MMA and MMAS (R200, R220). -/
def mmaIssue (s : State) (act : Mask) (sparse z : Bool) (sg fs t oa ob om : Nat) (k : Option Nat) : Eff :=
  if !s.converged act then .trap 0x0E1 0
  else match mmaFault s sparse fs t oa ob om with
    | some c => .trap c 0
    | none =>
      if 16 ≤ s.anvilCount s.cur.id.core then .hold s
      else match k with
        | none => .ok (mmaReceive s sparse z sg fs t oa ob om none false s.pc)
        | some k => match s.countUp k 64 with
          | none => .trap 0x028 0
          | some s => .ok (mmaReceive s sparse z sg fs t oa ob om (some k) false s.pc)

end Sys2Proof.Machine
end

