-- ==== Sys2Proof/Machine/Fetch.lean ====
section
/-! DEFINITION. Fetching an instruction line (R69–R72, R76–R78): the address of a slot's line, the checks on the line, its slots. -/
namespace Sys2Proof.Machine

/-- The line address of a slot address (R69). -/
def lineAddr (pc : DWord) : Nat := 64 * (pc.toNat / 5)

/-- The line word of a line's bytes (R72). -/
def lineWord (bs : List Byte) : Nat := recField bs 60 4

/-- TGT bit of a slot (R72). -/
def tgtBit (bs : List Byte) (j : Nat) : Bool := (lineWord bs).testBit j

/-- The 96 bits of a slot (R69). -/
def slotWord (bs : List Byte) (j : Nat) : Nat := recField bs (12 * j) 12

/-- The exclusive or of a byte's bits. -/
def oddByte (b : Byte) : Bool := ((List.range 8).filter (fun i => b.getLsbD i)).length % 2 == 1

/-- PAR bit j over a line's bytes (R76). -/
def parBit (bs : List Byte) (j : Nat) : Bool :=
  let covered := (List.range 60).filter (fun b => b % 8 == j) ++ (if j < 3 then [60 + j] else [])
  (covered.filter (fun b => oddByte (bs.getD b 0))).length % 2 == 1

/-- The line's parity matches (R76). -/
def parityOk (bs : List Byte) : Bool := (List.range 8).all (fun j => (lineWord bs).testBit (24 + j) == parBit bs j)

/-- The outcome of a fetch. -/
inductive FetchRes where
  | ok (bytes : List Byte)
  | fault (cause : Nat)
  | wait (part va : Nat)
  deriving DecidableEq, Repr

/-- Fetch a line for a workgroup's partition (R68, R70, R71, R77, R78): space, translation and execute permission, memory error,
parity (a second copy from the L2 is the stored line again), line word. -/
def fetchLine (s : State) (line : Nat) : FetchRes :=
  if 2 ^ 64 ≤ line then .fault 0x0B8
  else match window (BitVec.ofNat 64 line) with
  | .bad => .fault 0x0B8
  | .rank _ _ _ => .fault 0x0B8
  | .glob va =>
    (match translatePerm s s.wg.part 3 ⟨false, false, true⟩ va with
     | .fault c => .fault c
     | .wait p v => .wait p v
     | .ok (.loc l _) =>
       (match s.mem.poisonOf l with
        | some src => .fault (if src = 4 then 0x16D else 0x0C0 + 8 * src + 3)
        | none =>
          let bs := s.readLoc l 64
          if !parityOk bs then .fault 0x003
          else if lineWord bs / 512 % 32768 ≠ 0 then .fault 0x004
          else .ok bs)
     | .ok _ => .fault 0x0B8)
  | _ => .fault 0x0BB

/-- The slot after the one being issued (R209); where its line cannot be read, the error is what its fetch came to. -/
def nextSlot (s : State) : Except FetchRes Nat :=
  let pc := s.pc + 1
  let got := match s.cur.path.line with
    | some (a, bs) => if a = lineAddr pc then FetchRes.ok bs else fetchLine s (lineAddr pc)
    | none => fetchLine s (lineAddr pc)
  match got with
  | .ok bs => .ok (slotWord bs (pc.toNat % 5))
  | r => .error r

end Sys2Proof.Machine
end

