-- ==== Sys2Proof/Machine/Flags.lean ====
section
/-! DEFINITION. Integer results, carries and comparisons of classes 0 and 1 (R15, R16, R99–R111). The X4 keeps no flag
register: a carry or a comparison is a predicate. A value is exact until `intRes` reduces it (R100). -/
namespace Sys2Proof.Machine

/-- Width of a type in bits (R15, R17). -/
def tyBits : Ty → Nat
  | .b8 | .i8 => 8
  | .b16 | .i16 | .f16 | .bf16 => 16
  | .b64 | .i64 | .f64 => 64
  | _ => 32

/-- An i type (R15). -/
def tySigned : Ty → Bool
  | .i8 | .i16 | .i32 | .i64 => true
  | _ => false

/-- The w-bit pattern of an operand. -/
def pat (w : Nat) (x : DWord) : Nat := x.toNat % 2 ^ w

/-- A w-bit pattern read as signed. -/
def signedPat (w n : Nat) : Int := if n < 2 ^ (w - 1) then n else (n : Int) - 2 ^ w

/-- An operand read as an exact integer by its type (R99, R100). -/
def intVal (t : Ty) (x : DWord) : Int :=
  let n := pat (tyBits t) x
  if tySigned t then signedPat (tyBits t) n else n

/-- A w-bit pattern as it stands in the destination: a narrow i type is sign-extended to 32 bits (R99). -/
def extend (t : Ty) (n : Nat) : DWord :=
  if tySigned t && decide (tyBits t < 32) && decide (2 ^ (tyBits t - 1) ≤ n) then BitVec.ofNat 64 (n + 2 ^ 32 - 2 ^ tyBits t)
  else BitVec.ofNat 64 n

/-- The least and greatest value of a type (R15). -/
def tyRange (t : Ty) : Int × Int :=
  if tySigned t then (-(2 ^ (tyBits t - 1)), 2 ^ (tyBits t - 1) - 1) else (0, 2 ^ tyBits t - 1)

/-- The reduction of an exact result: modulo 2^w, or clamped under SAT (R16, R100). -/
def intRes (t : Ty) (sat : Bool) (x : Int) : DWord :=
  let y := if sat then max (tyRange t).1 (min (tyRange t).2 x) else x
  extend t (y % 2 ^ tyBits t).toNat

/-- Negate when a flag is set (R100). -/
def negIf (n : Bool) (x : Int) : Int := if n then -x else x

/-- The operand value of an IMM by TY (R88). -/
def immVal (t : Ty) (imm : BitVec 32) : DWord :=
  match t with
  | .i64 => imm.signExtend 64
  | .f64 => imm.setWidth 64 <<< 32
  | _ => imm.setWidth 64

/-- The operand value of an IMM in a position that is 32 bits wide whatever TY is (R104). -/
def immVal32 (imm : BitVec 32) : DWord := imm.setWidth 64

/-- The i-th source value. -/
def arg (xs : List DWord) (i : Nat) : DWord := xs.getD i 0

/-- IADD (R105). -/
def aluAdd (t : Ty) (sat na nb : Bool) (a b : DWord) : DWord := intRes t sat (negIf na (intVal t a) + negIf nb (intVal t b))
/-- ISUB. -/
def aluSub (t : Ty) (sat : Bool) (a b : DWord) : DWord := intRes t sat (intVal t a - intVal t b)
/-- IMUL. -/
def aluMul (t : Ty) (sat : Bool) (a b : DWord) : DWord := intRes t sat (intVal t a * intVal t b)
/-- IMULH: the high w bits of the product. -/
def aluMulh (t : Ty) (a b : DWord) : DWord := intRes t false (intVal t a * intVal t b / 2 ^ tyBits t)
/-- IMAD. -/
def aluMad (t : Ty) (sat nc : Bool) (a b c : DWord) : DWord :=
  intRes t sat (intVal t a * intVal t b + negIf nc (intVal t c))
/-- The 64-bit type of the same signedness. -/
def wideTy (t : Ty) : Ty := if tySigned t then .i64 else .b64
/-- IMADW: 32-bit factors, a 64-bit sum. -/
def aluMadw (t : Ty) (sat : Bool) (a b c : DWord) : DWord :=
  intRes (wideTy t) sat (intVal t a * intVal t b + intVal (wideTy t) c)
/-- IMIN and IMAX. -/
def aluMinMax (t : Ty) (mx : Bool) (a b : DWord) : DWord :=
  intRes t false (if mx then max (intVal t a) (intVal t b) else min (intVal t a) (intVal t b))
/-- IABS. -/
def aluAbs (t : Ty) (sat : Bool) (a : DWord) : DWord := intRes t sat (intVal t a).natAbs

/-- IADDC (R106): the sum. -/
def aluAddc (t : Ty) (a b : DWord) (cin : Bool) : Nat := pat (tyBits t) a + pat (tyBits t) b + cin.toNat

/-- SHL (R107). -/
def aluShl (t : Ty) (sat : Bool) (a b : DWord) : DWord :=
  let c := b.toNat % 2 ^ 32
  if sat then intRes t true (intVal t a * 2 ^ min c 65)
  else if tyBits t ≤ c then 0 else extend t (pat (tyBits t) a * 2 ^ c % 2 ^ tyBits t)
/-- SHR (R107). -/
def aluShr (t : Ty) (a b : DWord) : DWord :=
  let c := b.toNat % 2 ^ 32
  if tyBits t ≤ c then 0 else extend t (pat (tyBits t) a / 2 ^ c)
/-- SAR (R107). -/
def aluSar (t : Ty) (a b : DWord) : DWord :=
  let c := min (b.toNat % 2 ^ 32) (tyBits t - 1)
  extend t ((signedPat (tyBits t) (pat (tyBits t) a) / 2 ^ c) % 2 ^ tyBits t).toNat

/-- The bitwise operations (R105). -/
inductive BitOp where | and | or | xor
  deriving DecidableEq, Repr

/-- AND, OR, XOR with complemented sources (R105). -/
def aluBit (o : BitOp) (t : Ty) (na nb : Bool) (a b : DWord) : DWord :=
  let x := if na then ~~~a else a
  let y := if nb then ~~~b else b
  let r := match o with
    | .and => x &&& y
    | .or => x ||| y
    | .xor => x ^^^ y
  extend t (pat (tyBits t) r)

/-- The bitwise truth table of LUT3 and PLUT3 (R105, R114) on words of any width. -/
def lutBits {w : Nat} (lut : BitVec 8) (a b c : BitVec w) : BitVec w :=
  (List.range 8).foldl (fun r k =>
    if lut.getLsbD k then
      r ||| ((if k / 4 = 1 then a else ~~~a) &&& (if k / 2 % 2 = 1 then b else ~~~b) &&& (if k % 2 = 1 then c else ~~~c))
    else r) 0

/-- LUT3 (R105). -/
def aluLut (lut : BitVec 8) (t : Ty) (a b c : DWord) : DWord := extend t (pat (tyBits t) (lutBits lut a b c))

/-- POPC (R108). -/
def aluPopc (t : Ty) (a : DWord) : DWord :=
  BitVec.ofNat 64 ((List.range (tyBits t)).filter (fun i => a.getLsbD i)).length
/-- CLZ (R108). -/
def aluClz (t : Ty) (a : DWord) : DWord :=
  let n := pat (tyBits t) a
  BitVec.ofNat 64 (if n = 0 then tyBits t else tyBits t - 1 - Nat.log2 n)

/-- The position and length that BFE and BFI take from B (R109). -/
def fieldOf (t : Ty) (b : DWord) : Nat × Nat := (b.toNat % 256, min (b.toNat / 256 % 256) (tyBits t))

/-- BFE (R109). -/
def aluBfe (t : Ty) (a b : DWord) : DWord :=
  let (p, len) := fieldOf t b
  let x := ((intVal t a / 2 ^ p) % 2 ^ len).toNat
  if len = 0 then 0 else intRes t false (if tySigned t then signedPat len x else x)

/-- BFI (R109). -/
def aluBfi (t : Ty) (a b c : DWord) : DWord :=
  let (p, len) := fieldOf t b
  let m : DWord := BitVec.ofNat 64 ((2 ^ len - 1) * 2 ^ p)
  extend t (pat (tyBits t) ((c &&& ~~~m) ||| (BitVec.ofNat 64 (a.toNat * 2 ^ p) &&& m)))

/-- BPICK (R110). -/
def aluBpick (a b c : DWord) : DWord :=
  let e := a.toNat % 2 ^ 32 + 2 ^ 32 * (b.toNat % 2 ^ 32)
  let byte := fun (j : Nat) =>
    let sel := c.toNat / 256 ^ j % 256
    let x := e / 256 ^ (sel % 8) % 256
    if sel / 16 % 2 = 1 then 0 else if sel / 8 % 2 = 1 then (if 128 ≤ x then 255 else 0) else x
  BitVec.ofNat 64 (byte 0 + 256 * byte 1 + 65536 * byte 2 + 16777216 * byte 3)

/-- A comparison of integers (R111). -/
def cmpInt (c : Cmp) (x y : Int) : Bool :=
  match c with
  | .eq => decide (x = y)
  | .ne => decide (x ≠ y)
  | .lt => decide (x < y)
  | .le => decide (x ≤ y)
  | .gt => decide (y < x)
  | .ge => decide (y ≤ x)

/-- LEA (R111): the index is 32 bits. -/
def aluLea (t : Ty) (sh : Nat) (a b : DWord) : DWord :=
  let i : Int := if t = .i64 then signedPat 32 (pat 32 a) else pat 32 a
  intRes t false (intVal t b + i * 2 ^ sh)

/-- IDOT4 (R105). -/
def aluDot (t : Ty) (sat sa sb : Bool) (a b c : DWord) : DWord :=
  let byte := fun (sg : Bool) (x : DWord) (i : Nat) =>
    let n := x.toNat / 256 ^ i % 256
    if sg then signedPat 8 n else (n : Int)
  intRes t sat (intVal t c + byte sa a 0 * byte sb b 0 + byte sa a 1 * byte sb b 1 + byte sa a 2 * byte sb b 2 +
    byte sa a 3 * byte sb b 3)

end Sys2Proof.Machine
end

