-- ==== Sys2Proof/Machine/Uniform.lean ====
section
/-! DEFINITION. The uniform instructions (R112, R113): one evaluation on the warp's values, when some lane is active. -/
namespace Sys2Proof.Machine

/-- A uniform source of `n` registers. -/
def State.readUni (s : State) (o : Opd) (n : Nat) : DWord :=
  match o with
  | .s r => if n = 2 then s.readS2 r else (s.readS r).setWidth 64
  | _ => 0

/-- Write a uniform destination of `n` registers. -/
def State.putUni (s : State) (d : Opd) (n : Nat) (x : DWord) (lat : Lat) : State :=
  match d with
  | .s r => if n = 2 then s.writeS2 r x lat else s.writeS r (x.setWidth 32) lat
  | _ => s

/-- A uniform computation of latency 2 with one result (R113). -/
def uniOp (srcs : List (Opd × Nat)) (d : Opd) (n : Nat) (f : List DWord → DWord) (s : State) (act : Mask) : Eff :=
  if act = 0 then .ok s else .ok (s.putUni d n (f (srcs.map (fun o => s.readUni o.1 o.2))) (s.fixed 2))

/-- A uniform test, written to PD in every active lane (R112). -/
def uniTest (srcs : List (Opd × Nat)) (pd : Nat) (f : List DWord → Bool) (s : State) (act : Mask) : Eff :=
  .ok (s.writeP pd act (if f (srcs.map (fun o => s.readUni o.1 o.2)) then Mask.full else 0) (s.fixed 2))

/-- UMOV (R112, R113), the counterpart of MOV. -/
def execUmov (h : Hdr) (ty : Ty) (d : Opd) (a : Opd) (s : State) : Host.Outcome State Fault Refusal :=
  run (.umov h ty d a) h (uniOp [(a, (tyRegs ty))] d (tyRegs ty) (fun x => extend ty (pat (tyBits ty) (arg x 0)))) s

/-- UMOV (R112, R113), immediate form. -/
def execUmovImm (h : Hdr) (ty : Ty) (d : Opd) (imm : BitVec 32) (s : State) : Host.Outcome State Fault Refusal :=
  run (.umovImm h ty d imm) h (uniOp [] d (tyRegs ty) (fun _ => extend ty (pat (tyBits ty) (immVal ty imm)))) s

/-- UADD (R112, R113), the counterpart of IADD. -/
def execUadd (h : Hdr) (ty : Ty) (sat : Bool) (na : Bool) (nb : Bool) (d : Opd) (a : Opd) (b : Opd) (s : State) : Host.Outcome State Fault Refusal :=
  run (.uadd h ty sat na nb d a b) h (uniOp [(a, (tyRegs ty)), (b, (tyRegs ty))] d (tyRegs ty) (fun x => aluAdd ty sat na nb (arg x 0) (arg x 1))) s

/-- UADD (R112, R113), immediate form. -/
def execUaddImm (h : Hdr) (ty : Ty) (sat : Bool) (d : Opd) (a : Opd) (imm : BitVec 32) (s : State) : Host.Outcome State Fault Refusal :=
  run (.uaddImm h ty sat d a imm) h (uniOp [(a, (tyRegs ty))] d (tyRegs ty) (fun x => aluAdd ty sat false false (arg x 0) (immVal ty imm))) s

/-- USUB (R112, R113), the counterpart of ISUB. -/
def execUsub (h : Hdr) (ty : Ty) (sat : Bool) (d : Opd) (a : Opd) (b : Opd) (s : State) : Host.Outcome State Fault Refusal :=
  run (.usub h ty sat d a b) h (uniOp [(a, (tyRegs ty)), (b, (tyRegs ty))] d (tyRegs ty) (fun x => aluSub ty sat (arg x 0) (arg x 1))) s

/-- USUB (R112, R113), immediate form. -/
def execUsubImm (h : Hdr) (ty : Ty) (sat : Bool) (d : Opd) (a : Opd) (imm : BitVec 32) (s : State) : Host.Outcome State Fault Refusal :=
  run (.usubImm h ty sat d a imm) h (uniOp [(a, (tyRegs ty))] d (tyRegs ty) (fun x => aluSub ty sat (arg x 0) (immVal ty imm))) s

/-- UMUL (R112, R113), the counterpart of IMUL. -/
def execUmul (h : Hdr) (ty : Ty) (sat : Bool) (d : Opd) (a : Opd) (b : Opd) (s : State) : Host.Outcome State Fault Refusal :=
  run (.umul h ty sat d a b) h (uniOp [(a, (tyRegs ty)), (b, (tyRegs ty))] d (tyRegs ty) (fun x => aluMul ty sat (arg x 0) (arg x 1))) s

/-- UMUL (R112, R113), immediate form. -/
def execUmulImm (h : Hdr) (ty : Ty) (sat : Bool) (d : Opd) (a : Opd) (imm : BitVec 32) (s : State) : Host.Outcome State Fault Refusal :=
  run (.umulImm h ty sat d a imm) h (uniOp [(a, (tyRegs ty))] d (tyRegs ty) (fun x => aluMul ty sat (arg x 0) (immVal ty imm))) s

/-- UMAD (R112, R113), the counterpart of IMAD. -/
def execUmad (h : Hdr) (ty : Ty) (sat : Bool) (nc : Bool) (d : Opd) (a : Opd) (b : Opd) (c : Opd) (s : State) : Host.Outcome State Fault Refusal :=
  run (.umad h ty sat nc d a b c) h (uniOp [(a, (tyRegs ty)), (b, (tyRegs ty)), (c, (tyRegs ty))] d (tyRegs ty) (fun x => aluMad ty sat nc (arg x 0) (arg x 1) (arg x 2))) s

/-- UMAD (R112, R113), immediate form. -/
def execUmadImm (h : Hdr) (ty : Ty) (sat : Bool) (d : Opd) (a : Opd) (imm : BitVec 32) (s : State) : Host.Outcome State Fault Refusal :=
  run (.umadImm h ty sat d a imm) h (uniOp [(a, (tyRegs ty)), (d, (tyRegs ty))] d (tyRegs ty) (fun x => aluMad ty sat false (arg x 0) (immVal ty imm) (arg x 1))) s

/-- UMIN (R112, R113), the counterpart of IMIN. -/
def execUmin (h : Hdr) (ty : Ty) (d : Opd) (a : Opd) (b : Opd) (s : State) : Host.Outcome State Fault Refusal :=
  run (.umin h ty d a b) h (uniOp [(a, (tyRegs ty)), (b, (tyRegs ty))] d (tyRegs ty) (fun x => aluMinMax ty false (arg x 0) (arg x 1))) s

/-- UMIN (R112, R113), immediate form. -/
def execUminImm (h : Hdr) (ty : Ty) (d : Opd) (a : Opd) (imm : BitVec 32) (s : State) : Host.Outcome State Fault Refusal :=
  run (.uminImm h ty d a imm) h (uniOp [(a, (tyRegs ty))] d (tyRegs ty) (fun x => aluMinMax ty false (arg x 0) (immVal ty imm))) s

/-- UMAX (R112, R113), the counterpart of IMAX. -/
def execUmax (h : Hdr) (ty : Ty) (d : Opd) (a : Opd) (b : Opd) (s : State) : Host.Outcome State Fault Refusal :=
  run (.umax h ty d a b) h (uniOp [(a, (tyRegs ty)), (b, (tyRegs ty))] d (tyRegs ty) (fun x => aluMinMax ty true (arg x 0) (arg x 1))) s

/-- UMAX (R112, R113), immediate form. -/
def execUmaxImm (h : Hdr) (ty : Ty) (d : Opd) (a : Opd) (imm : BitVec 32) (s : State) : Host.Outcome State Fault Refusal :=
  run (.umaxImm h ty d a imm) h (uniOp [(a, (tyRegs ty))] d (tyRegs ty) (fun x => aluMinMax ty true (arg x 0) (immVal ty imm))) s

/-- USHL (R112, R113), the counterpart of SHL. -/
def execUshl (h : Hdr) (ty : Ty) (sat : Bool) (d : Opd) (a : Opd) (b : Opd) (s : State) : Host.Outcome State Fault Refusal :=
  run (.ushl h ty sat d a b) h (uniOp [(a, (tyRegs ty)), (b, 1)] d (tyRegs ty) (fun x => aluShl ty sat (arg x 0) (arg x 1))) s

/-- USHL (R112, R113), immediate form. -/
def execUshlImm (h : Hdr) (ty : Ty) (sat : Bool) (d : Opd) (a : Opd) (imm : BitVec 32) (s : State) : Host.Outcome State Fault Refusal :=
  run (.ushlImm h ty sat d a imm) h (uniOp [(a, (tyRegs ty))] d (tyRegs ty) (fun x => aluShl ty sat (arg x 0) (immVal32 imm))) s

/-- USHR (R112, R113), the counterpart of SHR. -/
def execUshr (h : Hdr) (ty : Ty) (d : Opd) (a : Opd) (b : Opd) (s : State) : Host.Outcome State Fault Refusal :=
  run (.ushr h ty d a b) h (uniOp [(a, (tyRegs ty)), (b, 1)] d (tyRegs ty) (fun x => aluShr ty (arg x 0) (arg x 1))) s

/-- USHR (R112, R113), immediate form. -/
def execUshrImm (h : Hdr) (ty : Ty) (d : Opd) (a : Opd) (imm : BitVec 32) (s : State) : Host.Outcome State Fault Refusal :=
  run (.ushrImm h ty d a imm) h (uniOp [(a, (tyRegs ty))] d (tyRegs ty) (fun x => aluShr ty (arg x 0) (immVal32 imm))) s

/-- USAR (R112, R113), the counterpart of SAR. -/
def execUsar (h : Hdr) (ty : Ty) (d : Opd) (a : Opd) (b : Opd) (s : State) : Host.Outcome State Fault Refusal :=
  run (.usar h ty d a b) h (uniOp [(a, (tyRegs ty)), (b, 1)] d (tyRegs ty) (fun x => aluSar ty (arg x 0) (arg x 1))) s

/-- USAR (R112, R113), immediate form. -/
def execUsarImm (h : Hdr) (ty : Ty) (d : Opd) (a : Opd) (imm : BitVec 32) (s : State) : Host.Outcome State Fault Refusal :=
  run (.usarImm h ty d a imm) h (uniOp [(a, (tyRegs ty))] d (tyRegs ty) (fun x => aluSar ty (arg x 0) (immVal32 imm))) s

/-- UAND (R112, R113), the counterpart of AND. -/
def execUand (h : Hdr) (ty : Ty) (na : Bool) (nb : Bool) (d : Opd) (a : Opd) (b : Opd) (s : State) : Host.Outcome State Fault Refusal :=
  run (.uand h ty na nb d a b) h (uniOp [(a, (tyRegs ty)), (b, (tyRegs ty))] d (tyRegs ty) (fun x => aluBit .and ty na nb (arg x 0) (arg x 1))) s

/-- UAND (R112, R113), immediate form. -/
def execUandImm (h : Hdr) (ty : Ty) (d : Opd) (a : Opd) (imm : BitVec 32) (s : State) : Host.Outcome State Fault Refusal :=
  run (.uandImm h ty d a imm) h (uniOp [(a, (tyRegs ty))] d (tyRegs ty) (fun x => aluBit .and ty false false (arg x 0) (immVal ty imm))) s

/-- UOR (R112, R113), the counterpart of OR. -/
def execUor (h : Hdr) (ty : Ty) (na : Bool) (nb : Bool) (d : Opd) (a : Opd) (b : Opd) (s : State) : Host.Outcome State Fault Refusal :=
  run (.uor h ty na nb d a b) h (uniOp [(a, (tyRegs ty)), (b, (tyRegs ty))] d (tyRegs ty) (fun x => aluBit .or ty na nb (arg x 0) (arg x 1))) s

/-- UOR (R112, R113), immediate form. -/
def execUorImm (h : Hdr) (ty : Ty) (d : Opd) (a : Opd) (imm : BitVec 32) (s : State) : Host.Outcome State Fault Refusal :=
  run (.uorImm h ty d a imm) h (uniOp [(a, (tyRegs ty))] d (tyRegs ty) (fun x => aluBit .or ty false false (arg x 0) (immVal ty imm))) s

/-- UXOR (R112, R113), the counterpart of XOR. -/
def execUxor (h : Hdr) (ty : Ty) (na : Bool) (nb : Bool) (d : Opd) (a : Opd) (b : Opd) (s : State) : Host.Outcome State Fault Refusal :=
  run (.uxor h ty na nb d a b) h (uniOp [(a, (tyRegs ty)), (b, (tyRegs ty))] d (tyRegs ty) (fun x => aluBit .xor ty na nb (arg x 0) (arg x 1))) s

/-- UXOR (R112, R113), immediate form. -/
def execUxorImm (h : Hdr) (ty : Ty) (d : Opd) (a : Opd) (imm : BitVec 32) (s : State) : Host.Outcome State Fault Refusal :=
  run (.uxorImm h ty d a imm) h (uniOp [(a, (tyRegs ty))] d (tyRegs ty) (fun x => aluBit .xor ty false false (arg x 0) (immVal ty imm))) s

/-- UCMP (R112): the result to PD in every active lane. -/
def execUcmp (h : Hdr) (ty : Ty) (cmp : Cmp) (pd : Nat) (a : Opd) (b : Opd) (s : State) : Host.Outcome State Fault Refusal :=
  run (.ucmp h ty cmp pd a b) h (uniTest [(a, tyRegs ty), (b, tyRegs ty)] pd (fun x => cmpInt cmp (intVal ty (arg x 0)) (intVal ty (arg x 1)))) s

/-- UCMP (R112): the result to PD in every active lane, immediate form. -/
def execUcmpImm (h : Hdr) (ty : Ty) (cmp : Cmp) (pd : Nat) (a : Opd) (imm : BitVec 32) (s : State) : Host.Outcome State Fault Refusal :=
  run (.ucmpImm h ty cmp pd a imm) h (uniTest [(a, tyRegs ty)] pd (fun x => cmpInt cmp (intVal ty (arg x 0)) (intVal ty (immVal ty imm)))) s

/-- ULEA (R112, R113), the counterpart of LEA. -/
def execUlea (h : Hdr) (ty : Ty) (sh : Nat) (d : Opd) (a : Opd) (b : Opd) (s : State) : Host.Outcome State Fault Refusal :=
  run (.ulea h ty sh d a b) h (uniOp [(a, 1), (b, (tyRegs ty))] d (tyRegs ty) (fun x => aluLea ty sh (arg x 0) (arg x 1))) s

/-- ULEA (R112, R113), immediate form. -/
def execUleaImm (h : Hdr) (ty : Ty) (sh : Nat) (d : Opd) (a : Opd) (imm : BitVec 32) (s : State) : Host.Outcome State Fault Refusal :=
  run (.uleaImm h ty sh d a imm) h (uniOp [(a, 1)] d (tyRegs ty) (fun x => aluLea ty sh (arg x 0) (immVal ty imm))) s

end Sys2Proof.Machine
end

