-- ==== Sys2Proof/Machine/MemInstr.lean ====
section
/-! DEFINITION. Loads, stores, atomics, fences, cache operations, space instructions and ownership requests (R168–R185). -/
namespace Sys2Proof.Machine

/-! ## Sizes and accesses -/

/-- Bytes of an access size (R91). -/
def szBytes : Size → Nat
  | .zx8 => 1
  | .sx8 => 1
  | .zx16 => 2
  | .sx16 => 2
  | .w32 => 4
  | .w64 => 8

/-- Bits that are sign-extended, 0 for none (R91). -/
def szSign : Size → Nat
  | .sx8 => 8
  | .sx16 => 16
  | _ => 0

/-- A load or store access (R169, R171). -/
def plainAccess (write : Bool) (sp : Space) (sz : Size) (fe : Bool) : Access :=
  { kind := if write then 1 else 0, perm := ⟨!write, write, false⟩, space := sp, size := szBytes sz, align := szBytes sz,
    atomic := none, fe := fe, hflush := false, engine := false }

/-- The remote targets of lanes: lane, address, rank, region, offset, job scope. -/
def remoteOf (addr : Nat → DWord) (ts : List (Nat × Target)) : List (Nat × DWord × Nat × Nat × Nat × Bool) :=
  ts.filterMap (fun p => match p.2 with
    | .remote r g o j => some (p.1, addr p.1, r, g, o, j)
    | _ => none)

/-! ## Results -/

/-- Give D its values: those of local lanes now, those of remote lanes with their answers (R82, R195, R306). `mk` builds a
lane's operation from its tag and destination. -/
def putLoaded (s : State) (h : Hdr) (d : Opd) (n : Nat) (live : Mask) (vals : List (Nat × DWord))
    (remote : List (Nat × (Nat → RemDst → RemoteOp))) : Eff :=
  let (tags, s) := s.takeTags remote.length
  let rem := remote.zip tags
  let far := lanesMask (remote.map (·.1))
  match d with
  | .q p =>
    let port := s.port p
    let cmd := s.eng.nextId
    let marks := fun l => ((rem.find? (fun x => x.1.1 == l)).map (fun x => x.2 + 1)).getD 0
    (match s.push1 p live (lanesOf vals) marks with
     | .ok s =>
       let dst := fun l => match port with
         | none => RemDst.none
         | some q =>
           let pos := q.pos + (if q.packed || q.isQueue then ((Mask.lanes live).takeWhile (fun x => x < l)).length else l)
           if q.isQueue then .elem p pos
           else match (layOf q.record).elem q.base pos with
             | some (a, m, _) => .push p pos cmd a m
             | none => .none
       .ok (s.issueOps (rem.map (fun x => x.1.2 x.2 (dst x.1.1))))
     | e => e)
  | .v r =>
    -- a remote lane keeps what it held until its answer arrives
    let lo := s.cur.v.getD r (Vector.replicate 128 0)
    let hi := s.cur.v.getD (r + 1) (Vector.replicate 128 0)
    let x := lanesOf vals
    let y : Lanes := Vector.ofFn (fun l : Fin 128 => if far.getLsbD l then hi[l] ++ lo[l] else x[l])
    (match s.putVec d n live y (varLat h) with
     | .ok s => .ok (s.issueOps (rem.map (fun x => x.1.2 x.2 (.lane r n x.1.1))))
     | e => e)
  | _ => .ok (s.issueOps (rem.map (fun x => x.1.2 x.2 .none)))

/-- Post the memory error of the lowest affected lane (R278), which `err` finds. -/
def State.postError (s : State) (err : Target → Option Nat) (addr : Nat → DWord) (ts : List (Nat × Target)) : State :=
  match ts.findSome? (fun p => (err p.2).map (fun c => (c, addr p.1))) with
  | some (c, a) => s.post s.cur.id c s.pc a s.cur.path.pid
  | none => s

/-! ## LD and LDU -/

/-- An earlier access of the issuing path to a line of another device is not acknowledged yet (R345). -/
def State.lineBusy (s : State) (rank region off : Nat) : Bool :=
  s.fab.ops.any (fun o => o.warp == s.cur.id && o.wg == s.wg.key && o.pid == s.cur.path.pid && o.rank == rank && o.region == region &&
    o.off / 64 == off / 64 && decide (o.kind < 3) && !(s.acked o))

/-- Read the local targets of lanes in ascending order; a poisoned line gives 0 (R278), a frozen copy may serve a remote
lane (R173, R261). -/
def readLanes (s : State) (hint sc n sx : Nat) : List (Nat × List Byte) → List (Nat × Target) → List (Nat × DWord) × State
  | _, [] => ([], s)
  | seen, (l, t) :: r =>
    match t with
    | .remote rank g o _ =>
      -- not before the path's own earlier accesses to the line are acknowledged (R345)
      (match (if s.lineBusy rank g o then none else s.frozenCopy true s.cur.id.core rank g o) with
       | some c =>
         let (xs, s) := readLanes s hint sc n sx seen r
         ((l, extendTo sx (BitVec.ofNat 64 (leNat ((c.bytes.drop (o % 64)).take n)))) :: xs, s)
       | none => readLanes s hint sc n sx seen r)
    | _ =>
      if (s.loadError sc t).isSome then
        let (xs, s) := readLanes s hint sc n sx seen r
        ((l, 0) :: xs, s)
      else
        let (bs, seen, s) := s.readTarget hint sc n seen t
        let (xs, s) := readLanes s hint sc n sx seen r
        ((l, extendTo sx (BitVec.ofNat 64 (leNat bs))) :: xs, s)

/-- The caches that may keep a load's tagged answer (R257, R258, R262). -/
def fillsOf (sc hint : Nat) : Nat := if hint = 7 then 0 else if sc = 0 then 2 else 1

/-- A .host operation with the host link down has failed: an imprecise 0x16C (R366, R277, log 67). -/
def State.hostDown (s : State) (sc : Nat) : Bool := decide (sc = 5) && !s.host.linkUp

/-- Post 0x16C for the instruction being issued. -/
def State.postHostDown (s : State) (a : DWord) : State := s.post s.cur.id 0x16C s.pc a s.cur.path.pid

/-- The values of a failed .host load or atomic: no rule states them (log 67). -/
def State.openLanes (s : State) (act : Mask) : List (Nat × DWord) :=
  (Mask.lanes act).map (fun l => (l, Config.freeWord s.freeCtr (2 ^ 52 + l)))

/-- The operation of a remote load (R193, R345). -/
def loadOp (s : State) (h : Hdr) (n sx fills : Nat) (x : DWord × Nat × Nat × Nat × Bool) (tag : Nat) (dst : RemDst) : RemoteOp :=
  { newOp s h.sb tag x.2.1 x.2.2.1 x.2.2.2.1 x.2.2.2.2 (.read n) 0 dst x.1 with sx := sx, fills := fills }

/-- LD (R173, R174). -/
def loadLanes (s : State) (h : Hdr) (sp : Space) (sz : Size) (sc hint : Nat) (fe : Bool) (d : Opd) (addr : Nat → DWord)
    (act : Mask) : Eff :=
  match checkLanes s (plainAccess false sp sz fe) addr (Mask.lanes act) with
  | .fault c a => .trap c a
  | .wait p va => holdFor s p va
  | .ok ts =>
    if fe && !((ts.flatMap (fun p => p.2.feLine)).all (fun x => s.lineFull x.1 x.2)) then .hold s
    else if s.hostDown sc ∧ act ≠ 0 then
      (match putLoaded s h d (szRegs sz) act (s.openLanes act) [] with
       | .ok t => .ok (t.postHostDown (addr ((Mask.lanes act).headD 0)))
       | e => e)
    else
      let (vals, t) := readLanes s hint sc (szBytes sz) (szSign sz) [] ts
      let far := (remoteOf addr ts).filter (fun x => !(vals.any (fun v => v.1 == x.1)))
      match putLoaded t h d (szRegs sz) act vals (far.map (fun x => (x.1, loadOp s h (szBytes sz) (szSign sz) (fillsOf sc hint) x.2))) with
      | .ok t => .ok (t.postError (s.loadError sc) addr ts)
      | .hold t => .hold (s.keepWaits t)
      | e => e

/-- LDU (R173): on behalf of the lowest active lane. -/
def loadUniform (s : State) (h : Hdr) (sp : Space) (sz : Size) (sc hint : Nat) (d : Opd) (a : DWord) (act : Mask) : Eff :=
  match (Mask.lanes act).head? with
  | none => .ok s
  | some l =>
    match checkLanes s (plainAccess false sp sz false) (fun _ => a) [l] with
    | .fault c x => .trap c x
    | .wait p va => holdFor s p va
    | .ok ts =>
      let n := szRegs sz
      if s.hostDown sc then .ok ((s.putUni d n (Config.freeWord s.freeCtr (2 ^ 52)) (varLat h)).postHostDown a) else
      let (vals, t) := readLanes s hint sc (szBytes sz) (szSign sz) [] ts
      match vals.head?, remoteOf (fun _ => a) ts, d with
      | some v, _, _ => .ok ((t.putUni d n v.2 (varLat h)).postError (s.loadError sc) (fun _ => a) ts)
      | none, x :: _, .s r =>
        let (tag, t) := t.takeTag
        let old := t.cur.s.getD r 0
        let t := t.putUni d n (if n = 2 then t.cur.s.getD (r + 1) 0 ++ old else old.setWidth 64) (varLat h)
        .ok (t.issueOps [loadOp s h (szBytes sz) (szSign sz) (fillsOf sc hint) x.2 tag (.uni r n)])
      | none, _, _ => .ok t

/-! ## ST -/

/-- Write one event for a write that the home refused at a frozen byte (R189, R277): 0x148 + 8 × (SC − 2). -/
def State.logRefused (s : State) (loc : Nat) (a : DWord) : State :=
  match s.mem.frz.toList.find? (fun e => e.active && e.covers loc) with
  | some e => s.warpEvent 0 (0x148 + 8 * (e.sc - 2)) s.pc a
  | none => s

/-- The stores of lanes in ascending order: a frozen byte refuses its lane's store whole (R170, R189). -/
def writeLanes (s : State) (hint n : Nat) (x : Nat → DWord) : List (Nat × Target) → State
  | [] => s
  | (l, t) :: r =>
    if s.frozenRange n t then writeLanes s hint n x r
    else writeLanes (s.writeTarget hint (leBytes n (x l).toNat) t) hint n x r

/-- ST (R173, R174, R190). -/
def storeLanes (h : Hdr) (sp : Space) (sz : Size) (hint : Nat) (fe : Bool) (addrOf : State → Nat → DWord) (b : Opd) :
    State → Mask → Eff :=
  withSrcs [(b, szRegs sz)] (fun _ => varLat h) (fun s live xs =>
    let addr := addrOf s
    let x := fun l => (xs.getD 0 (Vector.replicate 128 0)).getD l 0
    match checkLanes s (plainAccess true sp sz fe) addr (Mask.lanes live) with
    | .fault c a => .trap c a
    | .wait p va => holdFor s p va
    | .ok ts =>
      let n := szBytes sz
      let t := (writeLanes s hint n x ts).cleanLines ((ts.filter (fun p => !s.frozenRange n p.2)).flatMap (fun p => p.2.eachByte n))
      let t := if fe then (ts.flatMap (fun p => p.2.feLine)).foldl (fun t y => t.setFull y.1 y.2 true) t else t
      let far := remoteOf addr ts
      let (tags, t) := t.takeTags far.length
      let ops := (far.zip tags).map (fun y =>
        newOp s 0 y.2 y.1.2.2.1 y.1.2.2.2.1 y.1.2.2.2.2.1 y.1.2.2.2.2.2 (.write ((leBytes n (x y.1.1).toNat).map some)) 1 .none y.1.2.1)
      match ts.find? (fun p => s.frozenRange n p.2) with
      | some p =>
        let t := t.logRefused (match p.2 with
          | .loc l _ => l
          | .split l l2 _ => if s.mem.frozenN l 4 then l else l2
          | _ => 0) (addr p.1)
        if far = [] then .ok (t.post s.cur.id 0x141 s.pc (addr p.1) s.cur.path.pid)
        else
          -- one fault for the instruction, once its remote writes are answered too (R190): the local refusal stands among the answers
          let low := ((ts.filter (fun p => s.frozenRange n p.2)).map (fun p => addr p.1)).foldl (fun m a => if a < m then a else m) (addr p.1)
          let (tag, t) := t.takeTag
          .ok (t.issueOps (ops ++ [{ newOp s 0 tag 0 0 0 false (.write []) 1 .none low with inRegion := false, answered := some (some 5) }]))
      | none => .ok (t.issueOps ops))

/-! ## Atomics -/

/-- The operation of an atomic instruction. -/
inductive AtomOp where
  | op (a : Aop)
  | cas
  deriving DecidableEq, Repr

/-- The new value of an atomic operation on w-bit operands (R175). -/
def aopNew (op : Aop) (w o b : Nat) : Nat :=
  let f : Fmt := if w = 64 then .f64 else .f32
  let sg := fun x => (BitVec.ofNat w x).toInt
  match op with
  | .add => (o + b) % 2 ^ w
  | .smin => if sg o ≤ sg b then o else b
  | .smax => if sg o ≤ sg b then b else o
  | .umin => min o b
  | .umax => max o b
  | .and => Nat.land o b
  | .or => Nat.lor o b
  | .xor => Nat.xor o b
  | .exch => b
  | .inc => if b ≤ o then 0 else o + 1
  | .dec => if o = 0 ∨ b < o then b else o - 1
  | .fadd => fAdd f .rn false o b
  | .fmin => fMinMax f false o b
  | .fmax => fMinMax f true o b

/-- The value an atomic leaves, or `none` where a compare fails (R175, R177). -/
def AtomOp.new (op : AtomOp) (w o : Nat) (b c : DWord) : Option Nat :=
  match op with
  | .op a => some (aopNew a w o (b.toNat % 2 ^ w))
  | .cas => if o = b.toNat % 2 ^ w then some (c.toNat % 2 ^ w) else none

/-- The access of an atomic (R169, R177). -/
def atomAccess (sp : Space) (sz : Size) (sc : Scope) : Access :=
  { kind := 2, perm := ⟨true, true, false⟩, space := sp, size := szBytes sz, align := szBytes sz, atomic := some sc.code,
    fe := false, hflush := false, engine := false }

/-- The bytes at a local target at its point of coherence, an eviction of a budgeted line coming first (R176, R263). -/
def State.atomRead (s : State) (n : Nat) : Target → Nat × State
  | .loc l _ =>
    let s := s.snoopHost l
    let s := s.evictLine (l / 64) (2 * l + 1)
    -- before an atomic every copy of a remote-data cache is invalidated, also before a compare that fails (R260)
    let h := s.mem.homeLine (l / 64)
    let s := if isDram l then { s with mem := s.mem.setHome { h with budget := none, sharers := 0 } } else s
    (leNat (s.readLoc l n), s)
  | .spad wg off => ((s.wgOf wg).elim 0 (fun g => leNat (Store.getN g.spad off n)), s)
  -- no atomic acts on private memory (R177)
  | .split _ _ _ => (0, s)
  | .remote _ _ _ _ => (0, s)

/-- The steps of an atomic's local lanes in ascending order (R176): old values. A poisoned line is left unchanged and
gives 0 (R278). -/
def atomSteps (s : State) (n : Nat) (op : AtomOp) (b c : Nat → DWord) : List (Nat × Target) → List (Nat × DWord) × State
  | [] => ([], s)
  | (l, t) :: r =>
    if t.isRemote then atomSteps s n op b c r
    else if (s.memError 2 t).isSome then
      let (xs, s) := atomSteps s n op b c r
      ((l, 0) :: xs, s)
    else
      let (o, s) := s.atomRead n t
      let s := match op.new (8 * n) o (b l) (c l) with
        | some x => s.writeTarget 0 (leBytes n x) t
        | none => s
      let (xs, s) := atomSteps s n op b c r
      ((l, BitVec.ofNat 64 o) :: xs, s)

/-- The request of a remote atomic. -/
def AtomOp.req (op : AtomOp) (n : Nat) (b c : DWord) : RemOp :=
  match op with
  | .op a => .atomic a n b
  | .cas => .cas n b c

/-- The job transport carries the operation (R394). -/
def AtomOp.jobOk : AtomOp → Bool
  | .op .fmin => false
  | .op .fmax => false
  | _ => true

/-- ATOM, CAS and RED (R175–R177): D absent for RED. -/
def atomLanes (s : State) (h : Hdr) (sp : Space) (sz : Size) (sc : Scope) (d : Option Opd) (op : AtomOp)
    (addr : Nat → DWord) (b c : Nat → DWord) (act : Mask) : Eff :=
  match checkLanes s (atomAccess sp sz sc) addr (Mask.lanes act) with
  | .fault e a => .trap e a
  | .wait p va => holdFor s p va
  | .ok ts =>
    let n := szBytes sz
    let far := remoteOf addr ts
    match far.find? (fun x => x.2.2.2.2.2 && !op.jobOk), ts.find? (fun p => s.frozenRange n p.2) with
    | some x, _ => .trap 0x126 x.2.1
    | none, some p => .trap 0x140 (addr p.1)
    | none, none =>
      if s.hostDown sc.code ∧ act ≠ 0 then
        (match d with
         | some d => (match putLoaded s h d (szRegs sz) act (s.openLanes act) [] with
           | .ok t => .ok (t.postHostDown (addr ((Mask.lanes act).headD 0)))
           | e => e)
         | none => .ok (s.postHostDown (addr ((Mask.lanes act).headD 0))))
      else
      let (vals, t) := atomSteps s n op b c ts
      let mk := fun (x : Nat × DWord × Nat × Nat × Nat × Bool) (sb : Nat) (tag : Nat) (dst : RemDst) =>
        newOp s sb tag x.2.2.1 x.2.2.2.1 x.2.2.2.2.1 x.2.2.2.2.2 (op.req n (b x.1) (c x.1)) 2 dst x.2.1
      match d with
      | some d =>
        (match putLoaded t h d (szRegs sz) act vals (far.map (fun x => (x.1, mk x h.sb))) with
         | .ok t => .ok (t.postError (s.memError 2) addr ts)
         | .hold t => .hold (s.keepWaits t)
         | e => e)
      | none =>
        let (tags, t) := t.takeTags far.length
        .ok ((t.issueOps ((far.zip tags).map (fun y => mk y.1 0 y.2 .none))).postError (s.memError 2) addr ts)

/-- The compare and new values of CAS by lane (R177). -/
def casValues (s : State) (sz : Size) (b : Opd) : (Nat → DWord) × (Nat → DWord) :=
  let n := szRegs sz
  let at_ := fun i => match b with
    | .v r => s.readVec (.v (r + i)) n
    | .s r => s.readVec (.s (r + i)) n
    | o => s.readVec o n
  (fun l => (at_ 0).getD l 0, fun l => (at_ n).getD l 0)

/-! ## FENCE -/

/-- A fence of a warp is complete (R178, R334): what its release half covers has been acknowledged, and at .job one window
boundary has passed. -/
def State.fenceOver (s : State) (id : WarpId) (f : FenceWait) : Bool :=
  (!f.rel || s.released id f.sc) &&
  (decide (f.sc ≠ 4) || decide (1 ≤ f.boundaries))

/-- The focused warp's fence is complete. -/
def State.fenceDone (s : State) (f : FenceWait) : Bool := s.fenceOver s.cur.id f

/-- The fence that stands before a warp's engine work numbered `cmd` is not complete (R202). -/
def State.fencePending (s : State) (id : WarpId) (wg cmd : Nat) : Bool :=
  match s.warpAt id with
  | some w => w.wg == wg && w.running && (match w.fence with
    | some f => f.cmd == cmd && !(s.fenceOver id f)
    | none => false)
  | none => false

/-- Complete the focused warp's fence if it is done: an acquire at .gang or wider drops the core's L1 lines that are not
frozen (R178, R258). -/
def State.pollFence (s : State) : State :=
  match s.cur.fence with
  | none => s
  | some f =>
    if s.fenceDone f then
      let s := s.modCur (fun w => { w with fence := none })
      if f.acq then s.acquireOn s.cur.id.core f.sc else s
    else s

/-- FENCE (R178): it starts; a .host fence with the link down takes 0x16C (R366), a .job fence without precise time 0x13C
(R348). -/
def fenceIssue (s : State) (mode : FenceMode) (sc : Scope) : State :=
  let f : FenceWait := { sc := sc.code, rel := decide (mode ≠ .acq), acq := decide (mode ≠ .rel), cmd := 0, boundaries := 0,
                         pid := s.cur.path.pid, epc := s.pc }
  if s.hostDown sc.code then s.postHostDown 0
  else if sc = .job ∧ !s.mgmt.timeHeld then
    (s.modCur (fun w => { w with fence := some f })).post s.cur.id 0x13C s.pc 0 s.cur.path.pid
  else (s.modCur (fun w => { w with fence := some f })).pollFence

/-- The release that the issue of engine work, an STRB or an FRZ makes at .pod or .job (R202, R308, R341): as a FENCE.rel it holds the warp's
later class 4 to 6 instructions until it is complete. At the narrower scopes the earlier accesses are performed already. -/
def State.implicitFence (s : State) (sc cmd : Nat) : State :=
  if sc < 3 then s
  else (s.modCur (fun w => { w with fence := some { sc := sc, rel := true, acq := false, cmd := cmd, boundaries := 0,
                                                    pid := w.path.pid, epc := w.path.pc } })).pollFence

/-! ## Cache operations -/

/-- The access of PREF, CFLUSH, CINV or HFLUSH (R171, R179, R267). -/
def cacheAccess (sp : Space) (write hflush : Bool) : Access :=
  { kind := 3, perm := ⟨!write, write, false⟩, space := sp, size := 1, align := 1, atomic := none, fe := false,
    hflush := hflush, engine := false }

/-- The fill of PREF at a local line's home (R262, R263): HINT 1–6 sets a read budget in read-count mode, and another hearth's remote-data cache
may come to hold the line. -/
def State.prefHome (s : State) (line rmode hint : Nat) : State :=
  if hint = 7 then s
  else
    let s := s.roomHome line
    let h := s.mem.homeLine line
    ({ s with mem := s.mem.setHome { h with
        budget := h.budget.orElse (fun _ => if rmode = 1 ∧ 1 ≤ hint then some hint else none)
        pred := predAfter rmode hint h.pred } }).fillRdc (hearthOf s.cur.id.core) line rmode hint (s.readLoc (64 * line) 64)

/-- PREF of one checked target (R180): fills the home L2 or the remote-data cache, and the L1 with .l1; a hint of bypass allocates nothing
(R262), and a line of another device is asked for, whose answer is kept if it comes frozen (R261). -/
def State.prefOne (s : State) (hint : Nat) (l1 : Bool) (a : DWord) : Target → State
  | .loc p m =>
    if hint = 7 || !isDram p || (s.mem.poisonOf p).isSome then s
    else
      let s := s.prefHome (p / 64) m hint
      if l1 && (s.mem.l1 s.cur.id.core (.loc (p / 64))).isNone then
        { s with mem := s.mem.addCopy {
          core := some s.cur.id.core, hearth := hearthOf s.cur.id.core, key := .loc (p / 64),
          bytes := s.readLoc (p / 64 * 64) 64, tag := (s.mem.tagFor 2 p).map (fun t => (s.mgmt.selfRank, t))
          pred := if m = 0 then hint else 0 } }
      else s
  | .remote r g o job =>
    if hint = 7 then s
    else
      let (tag, s) := s.takeTag
      s.issueOps [{ newOp s 0 tag r g o job (.read 1) 6 .none a with inRegion := false, fills := if l1 then 2 else 1 }]
  | _ => s

/-- PREF (R180): every lane whose checks pass. -/
def prefLanes (s : State) (sp : Space) (hint : Nat) (l1 : Bool) (addr : Nat → DWord) : List Nat → State
  | [] => s
  | l :: r =>
    match resolve s (cacheAccess sp false false) l (addr l) with
    | .ok t => prefLanes (s.prefOne hint l1 (addr l) t) sp hint l1 addr r
    -- no fault is raised; a poisoned table line is logged all the same (R278)
    | .fault c => prefLanes (s.logWalk s.cur.id c s.pc (addr l)) sp hint l1 addr r
    | _ => prefLanes s sp hint l1 addr r

/-- Write a line back, unless its budget was evicted and dropped before, then drop every copy that is not frozen (R179, R263). -/
def State.flushHome (s : State) (line : Nat) : State :=
  let s := ((s.evictLine line (2 * line)).writeBack line).dropCopies line
  { s with mem := s.mem.setHome { line := line, dram := none, budget := none, sharers := 0, pred := none } }

/-- CFLUSH of one line; a frozen line keeps its copies (R179). -/
def State.flushLine (s : State) (line : Nat) : State :=
  if s.mem.frozen (64 * line) then s else s.flushHome line

/-- CINV.dev of one line that is not frozen: drop every copy without writing back (R179); an eviction may have come before (R259). -/
def State.invalidateLine (s : State) (line : Nat) : State :=
  if s.mem.frozen (64 * line) then s else ((s.evictLine line (2 * line)).dropLine line).dropCopies line

/-- A cache operation on every line that active lanes name, each once (R179): a scratchpad, gang-window or
coherent-window address is left alone, HFLUSH apart. -/
def cacheLanes (s : State) (sp : Space) (write hflush : Bool) (f : State → Nat → State) (addr : Nat → DWord) (act : Mask) : Eff :=
  let lanes := (Mask.lanes act).filter (fun l => hflush || decide (sp ≠ .gen) || (match window (addr l) with
    | .spad _ _ => false
    | .gang _ _ => false
    | .cwin _ => false
    | _ => true))
  match checkLanes s (cacheAccess sp write hflush) addr lanes with
  | .fault c a => .trap c a
  | .wait p va => holdFor s p va
  | .ok ts =>
    let ls := (ts.filterMap (fun p => match p.2 with
      | .loc l _ => if isDram l then some (l / 64) else none
      | _ => none)).eraseDups
    .ok (ls.foldl f s)

/-! ## Space instructions -/

/-- Write a destination that is a v or an s code, once for an s code (R182, R183). -/
def State.putAny (s : State) (d : Opd) (n : Nat) (act : Mask) (x : Lanes) (lat : Lat) : Eff :=
  match d with
  | .s _ => .ok (s.putUni d n (x.getD ((Mask.lanes act).headD 0) 0) lat)
  | _ => s.putVec d n act x lat

/-- The result of SPACE (R182). -/
def spaceBits (core : Nat) (a : DWord) : DWord :=
  match window a with
  | .priv _ => 1
  | .spad c _ => if c = core then 2 else 18
  | .gang _ _ => 3
  | .glob _ => 4
  | .rank _ _ _ => 12
  | .cwin _ => 5
  | .bad => 0

/-- The fault of CVTA (R183). DESIGN CHOICE (log 87): an address in no window takes kind 3, which R183 gives for any address outside the
space; R169 gives kind 0. -/
def cvtaFault (core : Nat) (from_ : Bool) (sp : Space) (a : DWord) : Option Nat :=
  let w := window a
  if from_ then
    match sp with
    | .glob => if w.inSpace .glob then none else some 0x0BB
    | .spad => if 2 ^ 48 ≤ a.toNat then some 0x0BA else none
    | _ => if 2 ^ 56 ≤ a.toNat then some 0x0BA else none
  else if !w.inSpace sp then some 0x0BB
  else match w with
    | .spad c _ => if c = core then none else some 0x0B9
    | _ => none

/-- The value of CVTA (R183). -/
def cvtaValue (core : Nat) (from_ : Bool) (sp : Space) (a : DWord) : DWord :=
  let n := a.toNat
  BitVec.ofNat 64 (match from_, sp with
    | _, .glob => n
    | true, .priv => 0x7C * 2 ^ 56 + n
    | true, .spad => 0x7D * 2 ^ 56 + core * 2 ^ 48 + n
    | true, .gsh => 0x7E * 2 ^ 56 + n
    | true, _ => 0x7F * 2 ^ 56 + n
    | false, .spad => n % 2 ^ 48
    | false, _ => n % 2 ^ 56)

/-- GWIN (R184, R435); its faults name an offset and no address, and leave 0 in sr.fault (log 69). -/
def gangWindow (s : State) (h : Hdr) (d : Opd) (m : Nat) (off : DWord) : Eff :=
  match (if m < s.wg.gangSize then s.member m else none) with
  | none => .trap 0x0BA 0
  | some g =>
    if g.kern.scratch ≤ off.toNat then .trap 0x0BA 0
    else .ok (s.putUni d 2 (BitVec.ofNat 64 (0x7E * 2 ^ 56 + m * 2 ^ 52 + off.toNat)) (varLat h))

/-- SPFE (R184); n = 0 has no effect and raises nothing, and a fault, which names an offset and no address, leaves 0 in sr.fault (log 69). -/
def fullEmpty (s : State) (h : Hdr) (mode : SpfeMode) (n : Nat) (d : Opd) (off : Nat) : Eff :=
  if n = 0 then .ok s
  else if s.wg.kern.scratch < off + 128 * n then .trap 0x0BA 0
  else if off % 128 ≠ 0 then .trap 0x0BC 0
  else
    let ls := (List.range n).map (fun i => off / 128 + i)
    match mode with
    | .test => .ok (s.putUni d 1 (BitVec.ofNat 64 ((ls.filter (fun l => s.lineFull s.wg.key l)).length)) (varLat h))
    | m => .ok (ls.foldl (fun s l => s.setFull s.wg.key l (decide (m = .full))) s)

/-! ## OWNREQ -/

/-- The cause of an OWNREQ of an address outside global memory: the checks of its space in the order of R169, of which kind 5 comes last. -/
def ownSpace (s : State) (a : DWord) : Nat :=
  match window a with
  | .bad => 0x0B8
  | .priv off => if s.wg.kern.priv ≤ off then 0x0BA else 0x0BD
  | .spad c off => if c ≠ s.cur.id.core then 0x0B9 else if s.wg.kern.scratch ≤ off then 0x0BA else 0x0BD
  | .gang m off => (match (if m < s.wg.gangSize then s.member m else none) with
    | none => 0x0BA
    | some g => if g.kern.scratch ≤ off then 0x0BA else 0x0BD)
  | .cwin off => if 2 ^ 22 ≤ off then 0x0BA else 0x0BD
  | _ => 0x0BD

/-- OWNREQ (R185, R364–R366): the address must lie in a host-shared region. -/
def ownRequest (s : State) (proc : Bool) (k : Nat) (a : DWord) : Eff :=
  let w := window a
  let want := if proc then 1 else 2
  let page : Except Nat (Nat × Nat) := match w with
    | .glob va => .ok (s.wg.part, va)
    | .rank r g off => (match rankWalk s 3 r g with
      | .self =>
        let reg := s.mgmt.regions.getD g { base := 0, len := 0, part := 0, valid := false }
        if !reg.valid || reg.len ≤ off then .error 0x0BA else .ok (reg.part, reg.base.toNat + off)
      | .fault c => .error c
      | _ => .error 0x0BD)
    | _ => .error (ownSpace s a)
  match page with
  | .error c => .trap c a
  | .ok (part, va) =>
    match walk s part va with
    | .error f => .trap (0x098 + f) a
    | .ok l =>
      if l.own = 0 then .trap 0x0BD a
      else if bits l.w 2 2 = 0 then .trap 0x099 a
      else if s.mgmt.fencedChan.getLsbD (channelOf (l.loc va)) then .trap 0x09E a
      else match s.countUp k 64 with
        | none => .trap 0x028 0
        | some s =>
          if !s.host.linkUp then .ok ((s.countDown s.cur.id k 64 s.pc s.cur.path.pid).post s.cur.id 0x16C s.pc a s.cur.path.pid)
          else match s.mem.ownOf l.at_ with
          | none =>
            if l.own = want then .ok (s.countDown s.cur.id k 64 s.pc s.cur.path.pid)
            else
              let o : OwnRegion := { OwnRegion.starting l.at_ want s.time part (s.part part).asid va with
                waiting := [⟨s.cur.id, s.wg.key, k, want, s.pc, s.cur.path.pid, a⟩], asked := true }
              .ok { s with mem := { s.mem with own := s.mem.own ++ [o] } }
          | some o =>
            if o.target.isNone ∧ o.waiting = [] ∧ l.own = want then .ok (s.countDown s.cur.id k 64 s.pc s.cur.path.pid)
            else
              -- behind the transfer or the tenure under way (R365)
              let own := s.mem.own.map (fun (x : OwnRegion) => if x.leafLoc = o.leafLoc then
                { x with waiting := x.waiting ++ [⟨s.cur.id, s.wg.key, k, want, s.pc, s.cur.path.pid, a⟩] } else x)
              .ok { s with mem := { s.mem with own := own } }

/-- LD (R173, R174). -/
def execLd (h : Hdr) (sp : Space) (sz : Size) (sc : Scope) (hint : Nat) (fe : Bool) (off : BitVec 20) (d : Opd) (a : Opd) (s : State) : Host.Outcome State Fault Refusal :=
  run (.ld h sp sz sc hint fe off d a) h (fun t act => loadLanes t h sp sz sc.code hint fe d (fun l => (t.readVec a 2).getD l 0 + off.signExtend 64) act) s

/-- ST (R173, R174). -/
def execSt (h : Hdr) (sp : Space) (sz : Size) (hint : Nat) (fe : Bool) (off : BitVec 20) (a : Opd) (b : Opd) (s : State) : Host.Outcome State Fault Refusal :=
  run (.st h sp sz hint fe off a b) h (storeLanes h sp sz hint fe (fun t l => (t.readVec a 2).getD l 0 + off.signExtend 64) b) s

/-- LDU (R173): one access for the warp. -/
def execLdu (h : Hdr) (sp : Space) (sz : Size) (sc : Scope) (hint : Nat) (off : BitVec 20) (d : Opd) (a : Opd) (s : State) : Host.Outcome State Fault Refusal :=
  run (.ldu h sp sz sc hint off d a) h (fun t act => loadUniform t h sp sz sc.code hint d ((t.readVec a 2).getD 0 0 + off.signExtend 64) act) s

/-- ATOM (R175–R177). -/
def execAtom (h : Hdr) (op : Aop) (sp : Space) (sz : Size) (sc : Scope) (off : BitVec 20) (d : Opd) (a : Opd) (b : Opd) (s : State) : Host.Outcome State Fault Refusal :=
  run (.atom h op sp sz sc off d a b) h (fun t act => atomLanes t h sp sz sc (some d) (.op op) (fun l => (t.readVec a 2).getD l 0 + off.signExtend 64) (fun l => (t.readVec b (szRegs sz)).getD l 0) (fun _ => 0) act) s

/-- CAS (R177). -/
def execCas (h : Hdr) (sp : Space) (sz : Size) (sc : Scope) (off : BitVec 20) (d : Opd) (a : Opd) (b : Opd) (s : State) : Host.Outcome State Fault Refusal :=
  run (.cas h sp sz sc off d a b) h (fun t act =>
    let x := casValues t sz b
    atomLanes t h sp sz sc (some d) .cas (fun l => (t.readVec a 2).getD l 0 + off.signExtend 64) x.1 x.2 act) s

/-- RED (R175–R177). -/
def execRed (h : Hdr) (op : Aop) (sp : Space) (sz : Size) (sc : Scope) (off : BitVec 20) (a : Opd) (b : Opd) (s : State) : Host.Outcome State Fault Refusal :=
  run (.red h op sp sz sc off a b) h (fun t act => atomLanes t h sp sz sc none (.op op) (fun l => (t.readVec a 2).getD l 0 + off.signExtend 64) (fun l => (t.readVec b (szRegs sz)).getD l 0) (fun _ => 0) act) s

/-- FENCE (R178). -/
def execFence (h : Hdr) (mode : FenceMode) (sc : Scope) (s : State) : Host.Outcome State Fault Refusal :=
  run (.fence h mode sc) h (fun t act => if act = 0 then .ok t else .ok (fenceIssue t mode sc)) s

/-- PREF (R180): fills that no check fails. -/
def execPref (h : Hdr) (sp : Space) (hint : Nat) (l1 : Bool) (off : BitVec 20) (a : Opd) (s : State) : Host.Outcome State Fault Refusal :=
  run (.pref h sp hint l1 off a) h (fun t act => .ok (prefLanes t sp hint l1 (fun l => (t.readVec a 2).getD l 0 + off.signExtend 64) (Mask.lanes act))) s

/-- CFLUSH.dev (R179). -/
def execCflush (h : Hdr) (sp : Space) (off : BitVec 20) (a : Opd) (s : State) : Host.Outcome State Fault Refusal :=
  run (.cflush h sp off a) h (fun t act => cacheLanes t sp false false (fun s line => s.flushLine line) (fun l => (t.readVec a 2).getD l 0 + off.signExtend 64) act) s

/-- CINV.wg and CINV.dev (R179). -/
def execCinv (h : Hdr) (sp : Space) (sc : Scope) (off : BitVec 20) (a : Opd) (s : State) : Host.Outcome State Fault Refusal :=
  run (.cinv h sp sc off a) h (fun t act => cacheLanes t sp (decide (sc = .dev)) false
    (fun s line => if sc = .dev then s.invalidateLine line else s.dropL1 s.cur.id.core line) (fun l => (t.readVec a 2).getD l 0 + off.signExtend 64) act) s

/-- HFLUSH.host (R179, R366). -/
def execHflush (h : Hdr) (sp : Space) (off : BitVec 20) (a : Opd) (s : State) : Host.Outcome State Fault Refusal :=
  run (.hflush h sp off a) h (fun t act =>
    let addr := fun l => (t.readVec a 2).getD l 0 + off.signExtend 64
    if t.host.linkUp then cacheLanes t sp false true (fun s line => s.flushHome line) addr act
    else match cacheLanes t sp false true (fun s _ => s) addr act with
      | .ok t => .ok (if act = 0 then t else t.postHostDown 0)
      | e => e) s

/-- SPACE (R182). -/
def execSpace (h : Hdr) (d : Opd) (a : Opd) (s : State) : Host.Outcome State Fault Refusal :=
  run (.space h d a) h (fun t act => if act = 0 then .ok t else
    t.putAny d 1 act (Vector.ofFn (fun l : Fin 128 => spaceBits t.cur.id.core (t.readVec a 2)[l])) (varLat h)) s

/-- CVTA (R183). -/
def execCvta (h : Hdr) (from_ : Bool) (sp : Space) (d : Opd) (a : Opd) (s : State) : Host.Outcome State Fault Refusal :=
  run (.cvta h from_ sp d a) h (fun t act => if act = 0 then .ok t else
    let x := t.readVec a 2
    match (Mask.lanes act).findSome? (fun l => (cvtaFault t.cur.id.core from_ sp (x.getD l 0)).map (fun c => (c, x.getD l 0))) with
    | some (c, y) => .trap c y
    | none => t.putAny d 2 act (x.map (fun (y : DWord) => cvtaValue t.cur.id.core from_ sp y)) (varLat h)) s

/-- GWIN (R184). -/
def execGwin (h : Hdr) (d : Opd) (a : Opd) (b : Opd) (s : State) : Host.Outcome State Fault Refusal :=
  run (.gwin h d a b) h (fun t act => if act = 0 then .ok t else gangWindow t h d (t.readUni a 1).toNat (t.readUni b 1)) s

/-- GWIN.self (R184). -/
def execGwinSelf (h : Hdr) (d : Opd) (b : Opd) (s : State) : Host.Outcome State Fault Refusal :=
  run (.gwinSelf h d b) h (fun t act => if act = 0 then .ok t else gangWindow t h d t.gangpos (t.readUni b 1)) s

/-- SPFE (R184). -/
def execSpfe (h : Hdr) (mode : SpfeMode) (n : Nat) (d : Opd) (a : Opd) (s : State) : Host.Outcome State Fault Refusal :=
  run (.spfe h mode n d a) h (fun t act => if act = 0 then .ok t else fullEmpty t h mode n d (t.readUni a 1).toNat) s

/-- OWNREQ (R185, R364, R365). -/
def execOwnreq (h : Hdr) (proc : Bool) (k : Nat) (a : Opd) (s : State) : Host.Outcome State Fault Refusal :=
  run (.ownreq h proc k a) h (fun t act => if act = 0 then .ok t else ownRequest t proc k (t.readUni a 2)) s

end Sys2Proof.Machine
end

