-- ==== Sys2Proof/Machine/Bellows.lean ====
section
/-! DEFINITION. The bellows: the checks of a copy at issue (R203, R206, R295), the byte moves of its inner blocks (R293, R294, R207),
fetching a block (R296), landing its bytes (R201, R207, R349), full lines (R207), and stopping (R203). -/
namespace Sys2Proof.Machine

/-! ## Checks of named addresses -/

/-- The cause and the address of the lowest failing address of a list (R203, R275). -/
def lowestFault (s : State) (kind : Nat) (addrs : List DWord) : Option (Nat × DWord) :=
  addrs.foldl (fun m a => match resolve s (engAccess kind) 0 a, m with
    | .fault c, none => some (c, a)
    | .fault c, some b => if a.toNat < b.2.toNat then some (c, a) else some b
    | _, m => m) none

/-- Check the addresses of a range by its base's alignment and by the translation of each (R203), in the order of R169; the answer
is the scope code that the range needs, 0 for this device's own memory. -/
def addrsCheck (s : State) (kind align : Nat) (base first : DWord) (rest : List DWord) : EngRes Nat :=
  let misaligned := decide (base.toNat % align ≠ 0)
  let low := match lowestFault s kind (first :: rest) with
    | some (c, a) => EngRes.fault c a
    | none => .ok 0
  match resolve s (engAccess kind) 0 first with
  | .fault c => if misaligned then (if 0x080 ≤ c ∧ c < 0x0A0 then .fault (0x0A4 + 8 * kind) base else .fault c first) else low
  | .wait p va => if misaligned then .fault (0x0A4 + 8 * kind) base else .wait p va
  | .ok t =>
    if misaligned then .fault (0x0A4 + 8 * kind) base
    else rest.foldl (fun (r : EngRes Nat) a => match r with
      | .ok f => (match resolve s (engAccess kind) 0 a with
        | .fault _ => low
        | .wait p va => .wait p va
        | .ok u => .ok (max f u.scope))
      | r => r) (.ok t.scope)

/-- Check a range by its base's alignment and its first and last byte (R203). -/
def rangeCheck (s : State) (kind align : Nat) (base first last : DWord) : EngRes Nat := addrsCheck s kind align base first [last]

/-- A range of n bytes. -/
def spanCheck (s : State) (kind align : Nat) (base : DWord) (n : Nat) : EngRes Nat :=
  if n = 0 then (if base.toNat % align ≠ 0 then .fault (0x0A4 + 8 * kind) base else .ok 0)
  else rangeCheck s kind align base base (base + BitVec.ofNat 64 (n - 1))

/-- The first element of a traversal visited at an address. -/
def Lay.firstAt (l : Lay) (base : DWord) : Option (DWord × Nat) :=
  (List.range l.count).findSome? (fun j => (l.elem base j).map (fun e => (e.1, e.2.1)))

/-- The last element visited at an address. -/
def Lay.lastAt (l : Lay) (base : DWord) : Option (DWord × Nat) :=
  (List.range l.count).findSome? (fun i => (l.elem base (l.count - 1 - i)).map (fun e => (e.1, e.2.1)))

/-- The patterned side of a record (R203): its base a multiple of the element size (R206), its first and last element visited,
each from its first to its last byte. -/
def patternCheck (s : State) (kind : Nat) (l : Lay) (base : DWord) : EngRes Nat :=
  let align := max 1 (l.width / 8)
  match l.firstAt base, l.lastAt base with
  | some f, some e =>
    addrsCheck s kind align base f.1 [f.1 + BitVec.ofNat 64 (f.2 - 1), e.1, e.1 + BitVec.ofNat 64 (e.2 - 1)]
  | _, _ => spanCheck s kind align base 0

/-- The destination of a COPYG in scratchpad form: the issuer's own scratchpad (R208), never rank form (R297). -/
def ownScratch (d : DWord) : Option Nat :=
  match window d with
  | .spad _ _ => none
  | .bad => some 0x0A8
  | _ => some 0x0AB

/-- The checks of a copy at issue: the record's bytes and the scope code of what the copy names on other devices, 0 for nothing. `dst` is the address in D,
`slot` the area's size and the offset in it. DESIGN CHOICE (log 73): their order where R203 gives none is the record, its size (0x0E2), the slot
range (0x0E3), the source, the destination. -/
def copyCheck (s : State) (scatter copyg : Bool) (dst : DWord) (slot : Option (Nat × Nat)) (a b : DWord) : EngRes (List Byte × Nat × State) :=
  match readRecord s b with
  | .fault c x => .fault c x
  | .wait p v => .wait p v
  | .ok (r, t) =>
    let l := layOf r
    let T := l.count * l.width / 8
    if !recordOk r then .fault 0x0E0 0
    else if l.count * l.width % 8 ≠ 0 ∨ T = 0 ∨ 2 ^ 31 < T then .fault 0x0E2 0
    else if (match slot with
      | some (area, off) => decide (area < off + T)
      | none => false) then .fault 0x0E3 0
    else
      let cal := if l.swz = 0 then 1 else 128
      let src : EngRes Nat := if scatter then spanCheck t 0 cal a T else patternCheck t 0 l a
      match src with
      | .fault c x => .fault c x
      | .wait p v => .wait p v
      | .ok f =>
        let out : EngRes Nat := match slot, (if copyg then ownScratch dst else none) with
          | some _, _ => .ok 0
          | none, some c => .fault c dst
          | none, none => if scatter then patternCheck t 1 l dst else spanCheck t 1 cal dst T
        match out with
        | .fault c x => .fault c x
        | .wait p v => .wait p v
        | .ok g => .ok (r, max f g, t)

/-! ## The bytes of a block -/

/-- Where a byte of a block comes from: an address, or the fill value. -/
inductive ByteSrc where
  | at (a : DWord)
  | val (b : Byte)
  deriving DecidableEq, Repr

/-- A byte's source, and its destination unless a scatter writes nothing there. -/
abbrev ByteMove := ByteSrc × Option (LandDest × DWord)

/-- The elements of an inner block (two 4-bit elements to a byte): contiguous byte, size, and address of the patterned side. -/
def Lay.blockUnits (l : Lay) (base : DWord) (blk : Nat) : List (Nat × Nat × Option DWord) :=
  let n := l.blockElems
  if l.width = 4 then (List.range (n / 2)).map (fun u =>
    let j := blk * n + 2 * u
    (j / 2, 1, (l.elem base j).map (fun e => e.1)))
  else (List.range n).map (fun u =>
    let j := blk * n + u
    (j * (l.width / 8), l.width / 8, (l.elem base j).map (fun e => e.1)))

/-- Byte k of the fill value of an element (R293). DESIGN CHOICE (log 72): FILL has 32 bits, and the upper 32 bits of a 64-bit element that it
fills are 0, which R309 says of a pop only. -/
def Lay.fillByte (l : Lay) (k : Nat) : Byte :=
  if l.width = 4 then BitVec.ofNat 8 (l.fill % 16 * 17) else BitVec.ofNat 8 (l.fill / 256 ^ k)

/-- The destination of contiguous byte o for the member with workgroup key `mem` (R207, R208). -/
def ContSide.dest (c : ContSide) (own : Bool) (mem o : Nat) : LandDest × DWord :=
  match c with
  | .slot base => (.slot mem (base + o), 0)
  | .addr a => (if own then .spad mem (bits a.toNat 47 0 + o) else .addr, a + BitVec.ofNat 64 o)

/-- The bytes of an inner block of a copy, as they go to one member. -/
def Cmd.moves (c : Cmd) (mem blk : Nat) : List ByteMove :=
  match c.kind with
  | .copy scatter r base cont _ =>
    let l := layOf r
    (l.blockUnits base blk).flatMap (fun u =>
      (List.range u.2.1).map (fun k =>
        let o := swizzle l.swz (u.1 + k)
        let p := u.2.2.map (fun a => a + BitVec.ofNat 64 k)
        if scatter then
          (match cont, p with
           | .addr a, some q => (.at (a + BitVec.ofNat 64 o), some (.addr, q))
           | _, _ => (.val 0, none))
        else
          (match p with
           | some q => .at q
           | none => .val (l.fillByte k), some (cont.dest c.copyg.isSome mem o))))
  | _ => []

/-- What the count register falls by for each entry of `todo` (R201). -/
def Cmd.blockBytes (c : Cmd) : Nat :=
  match c.kind with
  | .copy _ r _ _ _ => (layOf r).blockElems * (layOf r).width / 8
  | .rowcpy _ _ _ _ => 1024
  | .rowzero _ _ => 1024
  | .rank _ n _ _ _ => 8 * n
  | .tgen _ _ _ _ _ _ => 64
  | .tile => 64
  | .tileLoad _ => 0
  | .push _ => 0

/-- The positions and workgroups a command's blocks go to: the gang's members for a collective. -/
def State.copyMembers (s : State) (c : Cmd) : List (Nat × Nat) :=
  match c.copyg with
  | none => [(0, c.wg)]
  | some _ => (List.range s.wg.gangSize).filterMap (fun i => (s.member i).map (fun g => (i, g.key)))

/-! ## Stopping -/

/-- Bring a command's warp and workgroup into focus: its addresses are read as the issuer's. -/
def State.asCmd (s : State) (c : Cmd) : State := (s.focusOn c.warp).focusWg c.wg

/-! ## What issued work goes on using -/

/-- The machine in which issued engine work resolves addresses: what it has used it goes on using (R331, R381, R400). -/
def State.seenBy (s : State) (v : Pins) : State := { s with mem := { s.mem with view := some v } }

/-- The translation and the rank entries that resolving an address uses. -/
def usedBy (s : State) (a : DWord) : Pins :=
  let page := fun (part va : Nat) => match translate s part va with
    | .ok l => [({ core := none, hearth := 0, asid := (s.part part).asid, va := va / 2 ^ l.size, size := l.size, leaf := BitVec.ofNat 64 l.w,
                   at_ := l.at_ } : TlbEntry)]
    | .error _ => []
  match window a with
  | .glob va => ⟨page s.wg.part va, []⟩
  | .rank r region off =>
    let g := s.mgmt.regions.getD region { base := 0, len := 0, part := 0, valid := false }
    ⟨if r = s.mgmt.selfRank then page g.part (g.base.toNat + off) else [],
     [r, s.mgmt.selfRank].filterMap (fun x => (rankEntryUsed s x).map (fun e => (x, BitVec.ofNat 64 e)))⟩
  | _ => ⟨[], []⟩

/-- Pins joined: those held come first. -/
def Pins.join (v u : Pins) : Pins :=
  ⟨v.pages ++ u.pages.filter (fun e => !v.pages.contains e), v.ranks ++ u.ranks.filter (fun e => !v.ranks.any (fun x => x.1 == e.1))⟩

/-- What work that holds `v` holds after it has used some addresses: one look for each 4 KiB. -/
def pinAll (s : State) (v : Pins) (as : List DWord) : Pins :=
  ((as.map (fun a => a.toNat / 4096)).eraseDups).foldl (fun v p => v.join (usedBy (s.seenBy v) (BitVec.ofNat 64 (4096 * p)))) v

/-- STOP AN ENGINE'S WORK (R203, R278): the rest is dropped, every count register falls at once by the bytes that will not land,
the cause is posted once, and a follow-on is discarded (R209). -/
def State.stopCmd (s : State) (id cause : Nat) (addr : DWord) : State :=
  match s.eng.cmds.find? (fun c => c.id == id) with
  | none => s
  | some c =>
    let mems := (s.copyMembers c).map (fun m => m.2)
    -- while the host is silent the register does not fall (0x16B, R277)
    let left := fun (m : Nat) => if cause = 0x16B then 0 else c.todo.length * c.blockBytes + ((c.pieces.filter (fun p => p.mem == m)).map (fun p => p.drop)).foldl (· + ·) 0
    let r := mems.foldl (fun (x : State × List Piece) m =>
      if left m = 0 then x
      else match x.1.pieceOwner c m with
        | some (w, k) => (x.1.countDown w k (left m) c.epc c.pid, x.2)
        -- a member that has not joined yet: its register falls when it does
        | none => (x.1, { idx := 16 * 2 ^ 60 + m, bytes := [], mem := m, drop := left m } :: x.2)) (s, [])
    let s := r.1.modCmd id (fun c => { c with todo := [], pieces := r.2, lines := [], follow := none, failed := some (cause, addr) })
    -- the answers of reads under way go nowhere and raise nothing; writes sent land or fail, and their bytes come off then
    let s := { s with fab := { s.fab with ops := s.fab.ops.map (fun (o : RemoteOp) => if o.group ≠ id ∨ o.answered.isSome then o else match o.op with
      | .read _ => { o with dst := .none, kind := 6 }
      | _ => o) } }
    let s := s.dropFollow c
    -- a remote failure of an open region rolls it back (R194)
    (if c.inRegion ∧ 0x128 ≤ cause ∧ cause < 0x138 then s.failRegion c.warp cause else s.post c.warp cause c.epc addr c.pid).finishCmd id

/-- The cause of a failure found while work is under way: 0x0E8, or a memory error's own (R203, R278). -/
def lateCause (c : Nat) : Nat := if (0x080 ≤ c ∧ c < 0x0A0 ∧ c % 8 = 5) ∨ (0x0C0 ≤ c ∧ c < 0x0E0) ∨ c = 0x16B ∨ c = 0x16D then c else 0x0E8

/-- The same at an address, which may name a device that has been removed since: unreachable, in the pod or the job (R382). -/
def lateAt (s : State) (c : Nat) (a : DWord) : Nat :=
  if c ≠ 0x124 then lateCause c
  else match window a with
    | .rank r _ _ =>
      if bits ((rankEntry s r).getD 0) 11 2 = bits ((rankEntry s s.mgmt.selfRank).getD 0) 11 2 then 0x129 else 0x131
    | _ => lateCause c

/-! ## Fetching -/

/-- Read the sources of a block in order, each line once (R203, R263), through the translations that the work holds; a byte of another device
keeps its place with its target. -/
def State.readMoves (s : State) (v : Pins) (hint core : Nat) : List Nat → List ByteSrc → EngRes (List (Byte × Option (Target × DWord)) × State)
  | _, [] => .ok ([], s)
  | seen, .val b :: r =>
    (match s.readMoves v hint core seen r with
     | .ok (bs, t) => .ok ((b, none) :: bs, t)
     | e => e)
  | seen, .at a :: r =>
    match resolve (s.seenBy v) (engAccess 0) 0 a with
    | .fault c => .fault (lateAt s c a) a
    | .wait p va => .wait p va
    | .ok t =>
      match s.memError 4 t with
      | some c => .fault c a
      | none =>
        -- a line of another device that the remote-data cache keeps frozen is read there (R257, R296)
        let kept := match t with
          | .remote rank g o _ => (s.frozenCopy false core rank g o).map (fun (c : CacheLine) => c.bytes.getD (o % 64) 0)
          | _ => none
        let (b, s) := s.engByte hint core seen t
        match s.readMoves v hint core (t.line ++ seen) r with
        | .ok (bs, u) => .ok ((kept.getD b, if t.isRemote && kept.isNone then some (t, a) else none) :: bs, u)
        | e => e

/-- Gather consecutive bytes of one line of another device: position, rank, region, offset, scope, length, first address. -/
abbrev RemRun := Nat × Nat × Nat × Nat × Bool × Nat × DWord

/-- Add a byte at a position to the runs before it. -/
def addRun (runs : List RemRun) (pos : Nat) (t : Target) (a : DWord) : List RemRun :=
  match t with
  | .remote r g off job =>
    (match runs with
     | (p, r', g', o, j, n, x) :: rest =>
       if p + n = pos ∧ r = r' ∧ g = g' ∧ o + n = off ∧ off % 64 ≠ 0 then (p, r', g', o, j, n + 1, x) :: rest
       else (pos, r, g, off, job, 1, a) :: runs
     | [] => [(pos, r, g, off, job, 1, a)])
  | _ => runs

/-- Number of a chunk of a block. -/
def chunkNo (blk ch : Nat) : Nat := blk * 2 ^ 22 + ch

/-- An engine's remote operation for a command (R193, R195, R203). -/
def Cmd.engOp (s : State) (c : Cmd) (tag rank region off : Nat) (job : Bool) (op : RemOp) (dst : RemDst) (addr : DWord) : RemoteOp :=
  { newOp (s.seenBy c.pins) 0 tag rank region off job op 3 dst addr with
    warp := c.warp, wg := c.wg, epc := c.epc, pid := c.pid, inRegion := c.inRegion && s.cur.region.isSome, k := c.k, fills := if c.hint = 7 then 0 else 1 }

/-- The reads of another device that fill pieces of a command. -/
def State.fetchOps (s : State) (c : Cmd) : List (Nat × RemRun) → List RemoteOp × State
  | [] => ([], s)
  | (no, (p, r, g, o, j, n, x)) :: rest =>
    let (tag, s) := s.takeTag
    let op := c.engOp s tag r g o j (.read n) (.piece c.id no p) x
    let (ops, s) := s.fetchOps c rest
    (op :: ops, s)

/-- The pieces of a list of moved bytes, at most 1,024 bytes each (R296), and the remote reads they wait for. -/
def makePieces (c : Cmd) (blk : Nat) (mems : List (Nat × Nat)) (got : List (Byte × Option (Target × DWord))) : List Piece × List (Nat × RemRun) :=
  let mv := fun (m : Nat) => c.moves m blk
  let n := got.length
  let chunks := List.range ((n + 1023) / 1024)
  let pieces := chunks.flatMap (fun ch => mems.map (fun m =>
    let part := (((mv m.2).zip got).drop (1024 * ch)).take 1024
    ({ idx := chunkNo blk ch * 16 + m.1
       bytes := part.filterMap (fun x => x.1.2.map (fun d => (d.1, d.2, x.2.1)))
       mem := m.2, drop := part.length } : Piece)))
  let runs := chunks.flatMap (fun ch =>
    let part := ((((mv c.wg).zip got).drop (1024 * ch)).take 1024).filter (fun x => x.1.2.isSome)
    let rs := part.zipIdx.foldl (fun rs (x : (ByteMove × (Byte × Option (Target × DWord))) × Nat) => match x.1.2.2 with
      | some (t, a) => addRun rs x.2 t a
      | none => rs) ([] : List RemRun)
    rs.reverse.map (fun r => (chunkNo blk ch, r)))
  (pieces, runs)

/-- The fence of R202 before the command that the bellows numbers: no earlier remote load, store or atomic of the warp is unanswered. -/
def State.fenced (s : State) (c : Cmd) : Bool := !c.remote || (s.fencedAt c.warp c.wg c.id && !s.fencePending c.warp c.wg c.id)

/-- FETCH AN INNER BLOCK of a copy (R296), its warp in focus. -/
def State.fetchBlock (s : State) (c : Cmd) (blk : Nat) : State :=
  let srcs := (c.moves c.wg blk).map (fun m => if m.2.isNone then ByteSrc.val 0 else m.1)
  let used := pinAll s c.pins (srcs.filterMap (fun x => match x with
    | .at a => some a
    | .val _ => none))
  match s.readMoves c.pins c.hint c.core [] srcs with
  | .fault cause a => s.stopCmd c.id cause a
  | .wait p va => s.cmdWaits c.id p va
  | .ok (got, s) =>
    let (pieces, runs) := makePieces c blk (s.copyMembers c) got
    let s := (s.served (fun w => w == .cmd c.id)).modCmd c.id (fun c => { c with todo := c.todo.filter (fun b => b != blk), pieces := c.pieces ++ pieces, pins := used })
    let c := { c with pins := used }
    let (ops, s) := s.fetchOps c runs
    if ops = [] then s else s.issueGroup c.id ops

/-! ## Landing -/

/-- The targets of bytes that land, each translated now or by what the work holds (R203, R331); slot bytes apart. -/
def landTargets (s : State) (v : Pins) : List (LandDest × DWord × Byte) → EngRes (List (Target × DWord × Byte) × List (Nat × Nat × Byte))
  | [] => .ok ([], [])
  | (d, a, b) :: r =>
    match d with
    | .slot wg i => (match landTargets s v r with
      | .ok (ts, ss) => .ok (ts, (wg, i, b) :: ss)
      | e => e)
    | .spad wg off => (match landTargets s v r with
      | .ok (ts, ss) => .ok ((.spad wg off, a, b) :: ts, ss)
      | e => e)
    | .addr =>
      match resolve (s.seenBy v) (engAccess 1) 0 a with
      | .fault c => .fault (lateAt s c a) a
      | .wait p va => .wait p va
      | .ok t => match landTargets s v r with
        | .ok (ts, ss) => .ok ((t, a, b) :: ts, ss)
        | e => e

/-- The lower of two reported addresses. -/
def lowerOf (x : Option DWord) (a : DWord) : Option DWord :=
  match x with
  | none => some a
  | some b => some (if a < b then a else b)

/-- Write local bytes as an engine (R189, R207, R349): a frozen byte is refused and stays, and the line leaves the issuing core's L1.
The state, and the lowest refused address with its location. -/
def State.landLocal (s : State) (hint core : Nat) : List (Target × DWord × Byte) → State × Option (DWord × Nat)
  | [] => (s, none)
  | (t, a, b) :: r =>
    match t with
    | .loc l _ =>
      if s.frozenAt t then
        let (s, x) := s.landLocal hint core r
        (s, match x with
          | some y => if a < y.1 then some (a, l) else some y
          | none => some (a, l))
      else ((s.engWrite hint t b).dropL1 core (l / 64)).landLocal hint core r
    | _ => (s.engWrite hint t b).landLocal hint core r

/-- A line of bytes sent to another device: rank, region, scope, line offset, masked bytes, first address, bytes counted. -/
structure OutLine where
  rank : Nat
  region : Nat
  job : Bool
  off : Nat
  bytes : List (Option Byte)
  addr : DWord
  n : Nat
  deriving DecidableEq, Repr

/-- Put a byte into the lines to send. -/
def addOut (ls : List OutLine) (x : Target × DWord × Byte) : List OutLine :=
  match x.1 with
  | .remote r g off job =>
    if ls.any (fun l => l.rank == r && l.region == g && l.off == off / 64 * 64) then
      ls.map (fun l => if l.rank = r ∧ l.region = g ∧ l.off = off / 64 * 64 then
        { l with bytes := l.bytes.set (off % 64) (some x.2.2), n := l.n + 1, addr := if x.2.1.toNat < l.addr.toNat then x.2.1 else l.addr } else l)
    else ls ++ [{ rank := r, region := g, job := job, off := off / 64 * 64
                  bytes := (List.replicate 64 none).set (off % 64) (some x.2.2), addr := x.2.1, n := 1 }]
  | _ => ls

/-- A line put into a list of lines ordered by offset. -/
def insertOff (x : OutLine) : List OutLine → List OutLine
  | [] => [x]
  | y :: ys => if x.off ≤ y.off then x :: y :: ys else y :: insertOff x ys

/-- The write operations of a command's lines: one for each line of a pod device, one message for each region of a job device (R376). With
`unit` the register falls by the unit they belong to and not by their bytes. -/
def State.outOps (s : State) (c : Cmd) (unit : Option Nat) (ls : List OutLine) : List RemoteOp × State :=
  let dst := match unit with
    | some no => RemDst.piece c.id no 0
    | none => .none
  let off := fun (n : Nat) => if unit.isSome then 0 else n
  let pod := ls.filter (fun l => !l.job)
  let keys := ((ls.filter (fun l => l.job)).map (fun l => (l.rank, l.region))).eraseDups
  let r := pod.foldl (fun (x : List RemoteOp × State) l =>
    let (tag, s) := x.2.takeTag
    (x.1 ++ [{ c.engOp s tag l.rank l.region l.off false (.write l.bytes) dst l.addr with drop := off l.n }], s)) ([], s)
  keys.foldl (fun (x : List RemoteOp × State) key =>
    let mine := (ls.filter (fun l => l.job && l.rank == key.1 && l.region == key.2)).foldr insertOff []
    let (tag, s) := x.2.takeTag
    let first := mine.headD { rank := 0, region := 0, job := true, off := 0, bytes := [], addr := 0, n := 0 }
    (x.1 ++ [{ c.engOp s tag key.1 key.2 first.off true (.write first.bytes) dst first.addr with
               drop := off ((mine.map (fun l => l.n)).foldl (· + ·) 0), lines := mine.map (fun l => (l.off, l.bytes)) }], s)) r

/-- The full/empty line that a destination lies in (R174). -/
def State.destLine (s : State) (v : Pins) : LandDest × DWord → Option (Nat × Nat)
  | (.spad wg off, _) => some (wg, off / 128)
  | (.addr, a) => (match resolve (s.seenBy v) (engAccess 1) 0 a with
    | .ok (.spad wg off) => some (wg, off / 128)
    | _ => none)
  | _ => none

/-- The full/empty lines to which a command still has bytes to write. -/
def State.openLines (s : State) (c : Cmd) : List (Nat × Nat) :=
  let here := c.pieces.flatMap (fun p => p.bytes.filterMap (fun b => s.destLine c.pins (b.1, b.2.1)))
  let todo := c.todo.flatMap (fun blk => (s.copyMembers c).flatMap (fun m => (c.moves m.2 blk).filterMap (fun x => x.2.bind (fun d => s.destLine c.pins d))))
  here ++ todo

/-- Mark full every line of a copy to which all of its bytes have landed (R207); a collective counts all its members' bytes. -/
def State.markFull (s : State) (id : Nat) : State :=
  match s.eng.cmds.find? (fun c => c.id == id) with
  | none => s
  | some c =>
    let cs := s.collective c
    if c.copyg.isSome ∧ cs.length < s.wg.gangSize then s
    else
      let still := if cs.all (fun d => d.lines.isEmpty) then [] else cs.flatMap (fun d => s.openLines d)
      cs.foldl (fun s d =>
        let full := d.lines.filter (fun x => !still.contains x)
        let s := full.foldl (fun s x => s.setFull x.1 x.2 true) s
        s.modCmd d.id (fun d => { d with lines := d.lines.filter (fun x => still.contains x) })) s

/-- One log event for an engine's write that the home refused (R189, R277). -/
def State.logRefusedAt (s : State) (l : Nat) (a : DWord) (c : Cmd) : State :=
  match s.mem.frz.toList.find? (fun e => e.active && e.covers l) with
  | some e => s.event 0 (0x148 + 8 * (e.sc - 2)) c.part c.warp.core c.warp.slot c.epc a
  | none => s

/-- The receipt number of a copy's write of the slot of a member (R208, R217). -/
def State.slotSeqOf (s : State) (c : Cmd) (mem : Nat) : Nat :=
  match c.copyg with
  | none => c.slotSeq
  | some n => ((s.eng.cmds.find? (fun d => d.wg == mem && d.copyg == some n)).map (fun d => d.slotSeq)).getD 0

/-- TGEN lowers its register by 64 once all its output is written, and RANK by 8n with each row (R201, R213, R215), not by bytes written. -/
def Cmd.perUnit (c : Cmd) : Bool :=
  match c.kind with
  | .tgen _ _ _ _ _ _ => true
  | .rank _ _ _ _ _ => true
  | _ => false

/-- The number of the piece that stands for a unit's count while its writes on another device are under way. -/
def unitNo (idx : Nat) : Nat := 2 ^ 59 + idx / 16

/-- What is left to take off the register when bytes of a landing went to another device: a unit's count falls with the last of its answers;
otherwise the bytes' own count falls with their answers, and more than 1,024 at once falls in steps (R296). -/
def Cmd.leftover (c : Cmd) (ps : List Piece) (near : Nat) : List Piece :=
  if c.perUnit then ps.map (fun p => { idx := 16 * unitNo p.idx, bytes := [], mem := c.wg, drop := p.drop })
  else if near ≤ 1024 then [] else splitDrop c.pieces c.wg near

/-- LAND PIECES of a command (R201, R207), its warp in focus: translate, write or send, lower the count registers. -/
def State.landPieces (s : State) (c : Cmd) (ps : List Piece) : State :=
  match landTargets s c.pins (ps.flatMap (fun p => p.bytes)) with
  | .fault cause a => s.stopCmd c.id cause a
  | .wait p va => s.cmdWaits c.id p va
  | .ok (ts, slots) =>
    let used := pinAll s c.pins (ps.flatMap (fun p => p.bytes.filterMap (fun b => match b.1 with
      | .addr => some b.2.1
      | _ => none)))
    let s := s.served (fun w => w == .cmd c.id)
    -- a copy and a push carry their HINT (R262)
    let hint := match c.kind with
      | .push _ => c.hint
      | .copy _ _ _ _ _ => c.hint
      | _ => 0
    let (s, ref) := s.landLocal hint c.core (ts.filter (fun t => !t.1.isRemote))
    let s := s.cleanLines (ts.map (fun t => t.1))
    let s := match ref with
      | some (a, l) => s.logRefusedAt l a c
      | none => s
    let s := slots.foldl (fun s x =>
      let seq := s.slotSeqOf c x.1
      s.modWg x.1 (fun g => if g.shadowed seq x.2.1 then g else { g with slots := g.slots.set x.2.1 x.2.2 })) s
    let s := ((slots.map (fun x => x.1)).eraseDups).foldl (fun (s : State) wg =>
      s.modWg wg (fun g => g.cleanSlots ((slots.filter (fun x => x.1 == wg)).map (fun x => x.2.1)))) s
    let outs : List OutLine := (ts.filter (fun t => t.1.isRemote)).foldl addOut []
    let far : Nat := (outs.map (fun l => l.n)).foldl (· + ·) 0
    let near : Nat := (ps.map (fun p => p.drop)).foldl (· + ·) 0 - far
    let rest := if far = 0 then [] else c.leftover ps near
    let s := if far = 0 then ps.foldl (fun s p => match s.pieceOwner c p.mem with
        | some (w, k) => s.countDown w k p.drop c.epc c.pid
        | none => s) s
      else if rest = [] then s.countDown c.warp c.k near c.epc c.pid
      else s
    let spads := match c.kind with
      | .copy _ _ _ _ _ => (ts.flatMap (fun (t : Target × DWord × Byte) => t.1.feLine)).eraseDups
      | _ => []
    let s := s.modCmd c.id (fun d => { d with
      pins := used
      pieces := d.pieces.filter (fun p => !(ps.any (fun q => q.idx == p.idx))) ++ rest
      refused := match ref with
        | some (a, _) => lowerOf d.refused a
        | none => d.refused
      lines := d.lines ++ spads.filter (fun x => !d.lines.contains x) })
    let s := s.markFull c.id
    let (ops, s) := s.outOps { c with pins := used } (if c.perUnit then ps.head?.map (fun p => unitNo p.idx) else none) outs
    if ops = [] then s.finishCmd c.id else s.issueGroup c.id ops

/-- Bytes of a piece are still to come from another device. -/
def State.pieceWaits (s : State) (c : Cmd) (p : Piece) : Bool :=
  s.fab.ops.any (fun o => o.group == c.id && o.answered.isNone && (match o.dst with
    | .piece _ no _ => no == p.idx / 16 || (o.job && decide (2 ^ 59 ≤ no ∧ no < 2 ^ 60 ∧ 2 ^ 59 ≤ p.idx / 16 ∧ p.idx / 16 < 2 ^ 60))
    | _ => false))

/-- Bytes of a piece go to a device of another pod. -/
def State.pieceToJob (s : State) (v : Pins) (p : Piece) : Bool :=
  p.bytes.any (fun b => match b.1 with
    | .addr => (match resolve (s.seenBy v) (engAccess 1) 0 b.2.1 with
      | .ok (.remote _ _ _ job) => job
      | _ => false)
    | _ => false)

/-- The slots that a piece writes may change (R217): every access received before the write is finished. -/
def State.slotsReady (s : State) (c : Cmd) (p : Piece) : Bool :=
  let seq := s.slotSeqOf c p.mem
  p.bytes.all (fun b => match b.1 with
    | .slot wg i => (match s.wgOf wg with
      | some g => writeReady g.order seq (i / 20480)
      | none => false)
    | _ => true)

/-- LAND ONE PIECE where it may (R201, R208, R217, R376); otherwise nothing moves. -/
def State.landOne (s : State) (c : Cmd) (p : Piece) : State :=
  if !s.fenced c || (s.pieceOwner c p.mem).isNone || s.pieceWaits c p || !s.slotsReady c p then s
  else if s.pieceToJob c.pins p then
    -- one message for the whole copy (R376): sent once everything is fetched
    (if c.todo = [] ∧ !(c.pieces.any (fun q => s.pieceWaits c q)) then s.landPieces c c.pieces else s)
  else s.landPieces c [p]

/-! ## Issue -/

/-- Copy commands of a core's bellows (R296); those of a saved workgroup stand in its context. -/
def State.copyCount (s : State) (core : Nat) : Nat :=
  (s.eng.cmds.filter (fun c => c.core == core && !s.isSaved c.wg && (match c.kind with
    | .copy _ _ _ _ _ => true
    | _ => false))).length

/-- A new command of the instruction being issued. -/
def newCmd (s : State) (kind : CmdKind) (k hint : Nat) (todo : List Nat) (remote : Bool) : Cmd :=
  { id := s.eng.nextId, kind := kind, warp := s.cur.id, wg := s.wg.key, core := s.cur.id.core, k := k, epc := s.pc,
    pid := s.cur.path.pid, hint := hint, part := s.wg.part, todo := todo, pieces := [], wroteBack := false,
    refused := none, failed := none, slotSeq := 0, follow := none, dup := false, lines := [], copyg := none, remote := remote,
    inRegion := s.cur.region.isSome, pins := ⟨[], []⟩ }

/-- A follow-on that has passed its checks: sparse, .z, SG, format slot, tile, slots and count register. -/
structure Follow where
  sparse : Bool
  z : Bool
  sg : Nat
  fs : Nat
  t : Nat
  oa : Nat
  ob : Nat
  om : Nat
  k : Option Nat
  deriving DecidableEq, Repr

/-- Why a COPYM has no follow-on (R209). -/
inductive FollowErr where
  /-- a cause, and whether it is the follow-on's own -/
  | cause (c : Nat) (own : Bool)
  /-- its line waits for an ownership transfer (R365) -/
  | wait (part va : Nat)
  deriving DecidableEq, Repr

/-- The follow-on of a COPYM (R209). -/
def followCheck (s : State) : Except FollowErr Follow :=
  match nextSlot s with
  | .error (.fault c) => .error (.cause c true)
  | .error (.wait p va) => .error (.wait p va)
  | .error (.ok _) => .error (.cause 0x0E4 false)
  | .ok w =>
    if w % 1024 ≠ 0x304 ∧ w % 1024 ≠ 0x305 then .error (.cause 0x0E4 false)
    else match decodeWord w with
      | .error c => .error (.cause c true)
      | .ok i =>
        match hdrOf i with
        | none => .error (.cause 0x0E4 false)
        | some h =>
          if h.pg ≠ 31 ∨ h.pn ∨ h.sb ≠ 0 ∨ h.wm ≠ 0 then .error (.cause 0x0E4 false)
          else match disabledCause s i, opFault s (uses i ++ implicitUses s.wg i) with
            | some c, _ => .error (.cause c true)
            | none, some c => .error (.cause c true)
            | none, none =>
              let f? : Option Follow := match i with
                | .mma _ z hk sg fs t oa ob k => some { sparse := false, z := z, sg := sg.code, fs := fs, t := t, oa := oa, ob := ob, om := 0, k := if hk then some k else none }
                | .mmas _ z hk sg fs t oa ob om k => some { sparse := true, z := z, sg := sg.code, fs := fs, t := t, oa := oa, ob := ob, om := om, k := if hk then some k else none }
                | _ => none
              match f? with
              | none => .error (.cause 0x0E4 false)
              | some f => match mmaFault s f.sparse f.fs f.t f.oa f.ob f.om with
                | some c => .error (.cause c true)
                | none => .ok f

/-- Receive a follow-on with its COPYM (R209, R298). -/
def State.receiveFollow (s : State) (id : Nat) (f : Follow) : State :=
  let n := s.eng.nextId
  let s := mmaReceive s f.sparse f.z f.sg f.fs f.t f.oa f.ob f.om f.k true (s.pc + 1)
  s.modCmd id (fun c => { c with follow := some n })

/-- A COPY, COPYG or COPYM received by the bellows (R201, R208, R217); `slot` names the slot and its bytes lo … hi − 1. -/
def State.receiveCopy (s : State) (scatter copyg : Bool) (slot : Option (Nat × Nat × Nat)) (remote : Bool) (r : List Byte)
    (base : DWord) (cont : ContSide) (granule hint k : Nat) : State :=
  let l := layOf r
  let (seq, s) := match slot with
    | some (o, lo, hi) => s.receiveWrite o lo hi
    | none => (0, s)
  let g := s.wg.gangSize
  let blocks := List.range l.blocks
  let c := newCmd s (.copy scatter r base cont granule) k hint (if copyg then blocks.filter (fun j => j % g == s.gangpos) else blocks) remote
  let s := s.addCmd { c with slotSeq := seq, copyg := if copyg then some s.wg.copygs else none }
  if copyg then { s with wg := { s.wg with copygs := s.wg.copygs + 1 } } else s

/-- THE ISSUE OF A COPY (R200–R209, R296). `slot` is the slot, its first byte and the offset in its area with the area's size. -/
def copyIssue (s : State) (act : Mask) (scatter copyg fol : Bool) (sg : Sg) (hint k : Nat) (dst : DWord)
    (slot : Option (Nat × Bool × Nat)) (a b : DWord) : Eff :=
  let granule := match sg with
    | .none => 0
    | .k64 => 64
    | .k32 => 32
    | .k16 => 16
  let area := slot.map (fun x => (if x.2.1 then 4096 else 16384, 128 * x.2.2))
  let cont := match slot with
    | some (o, side, off) => ContSide.slot (20480 * o + (if side then 16384 else 0) + 128 * off)
    | none => ContSide.addr (if scatter then a else dst)
  if !s.converged act then .trap 0x0E1 0
  else if s.mgmt.fencedBellows.getLsbD s.cur.id.core then .trap 0x0EE 0
  else match copyCheck s scatter copyg dst area a b with
    | .fault c x => .trap c x
    | .wait p v => holdFor s p v
    | .ok (r, remote, t) =>
      let base := if scatter then dst else a
      let T := (layOf r).bytes
      let first := fun (x : Nat × Bool × Nat) => (if x.2.1 then 16384 else 0) + 128 * x.2.2
      let receive := fun (t : State) =>
        t.receiveCopy scatter copyg (slot.map (fun x => (x.1, first x, first x + T))) (decide (remote ≠ 0)) r base cont granule hint k
      if !fol then
        (if 64 ≤ s.copyCount s.cur.id.core then .hold s
         else match t.countUp k T with
          | none => .trap 0x028 0
          | some t => .ok ((receive t).implicitFence remote t.eng.nextId))
      else match followCheck s with
        | .error (.cause c false) => .trap c 0
        | .error (.cause c true) => .trapIn s.advance c 0
        | .error (.wait p v) => holdFor s p v
        | .ok f =>
          if 64 ≤ s.copyCount s.cur.id.core then .hold s
          else match t.countUp k T with
            | none => .trap 0x028 0
            | some t =>
              match (match f.k with
                | some k2 => t.countUp k2 64
                | none => some t) with
              | none => .trapIn s.advance 0x028 0
              | some t => .moved (((receive t).receiveFollow t.eng.nextId f).implicitFence remote t.eng.nextId).advance.advance

end Sys2Proof.Machine
end

