-- ==== Sys2Proof/Machine/AnvilInstr.lean ====
section
/-! DEFINITION. The class 6 instructions (R216–R223) up to the moment at which they have issued: claims and releases act at once,
the other operations enter the anvil's queue and go on by the events of EngineEv. -/
namespace Sys2Proof.Machine

/-- A class 6 instruction on a core whose anvil is fenced traps (R277). -/
def onAnvil (s : State) (e : Eff) : Eff := if s.anvilFenced then .trap 0x0E6 0 else e

/-! ## Claims and releases -/

/-- CLAIMO (R217). -/
def claimSlots (s : State) (o n : Nat) : Eff :=
  let mine := fun (x : Nat) => decide (o ≤ x ∧ x < o + n)
  if s.wg.order.any (fun x => !x.write && mine x.slot) then .hold s
  else
    let rest := s.wg.claimed.filter (fun x => !mine x)
    .ok { s with wg := { s.wg with claimed := (List.range n).map (fun i => o + i) ++ rest } }

/-- RELO (R217): a read that waited for it waits now for every write received before it. -/
def releaseSlots (s : State) (o n : Nat) : State :=
  let mine := fun (x : Nat) => decide (o ≤ x ∧ x < o + n)
  let waits := fun (x : SlotAccess) => x.needRelo && mine x.slot
  let freed := (s.wg.order.filter waits).map (fun x => { x with needRelo := false })
  { s with wg := { s.wg with
      claimed := s.wg.claimed.filter (fun x => !mine x)
      order := s.wg.order.filter (fun x => !waits x) ++ freed } }

/-- Make one tile live (R218): a live tile is unchanged; a dead tile has every word 0, after the operations received before. -/
def claimTile (s : State) (t : Nat) : State :=
  if s.wg.live.contains t then s
  else
    let s := { s with wg := { s.wg with live := t :: s.wg.live } }
    if s.tileBusy s.wg.key t then s.enqueue t .accz [] false s.pc else { s with wg := s.wg.zeroTile t }

/-- CLAIMA (R218): held while the queue has no room for the zeroing that must follow earlier operations. -/
def claimTiles (s : State) (t n : Nat) : Eff :=
  let tiles := (List.range n).map (fun i => t + i)
  let later := tiles.filter (fun x => !s.wg.live.contains x && s.tileBusy s.wg.key x)
  if later ≠ [] ∧ 16 < s.anvilCount s.cur.id.core + later.length then .hold s
  else .ok (tiles.foldl claimTile s)

/-! ## Tiles and memory -/

/-- The spaces ACCLD and ACCST take (R221): local global memory, the executing core's scratchpad, rank form; another space faults
with fault kind 5. -/
def tileSpace (kind : Nat) (a : DWord) : Option Nat :=
  match window a with
  | .glob _ => none
  | .rank _ _ _ => none
  | .spad _ _ => none
  | .bad => some (0x0A0 + 8 * kind)
  | _ => some (0x0A5 + 8 * kind)

/-- The last byte of a tile's footprint of pitch p. -/
def tileEnd (a : DWord) (p : Nat) : DWord := a + BitVec.ofNat 64 (127 * p + 511)

/-- ACCLD (kind 0) and ACCST (kind 1) (R221). -/
def tileMove (s : State) (t k kind : Nat) (a : DWord) (p : Nat) (op : DWord → Nat → AOp) : Eff :=
  if !s.wg.live.contains t then .trap 0x0E7 0
  else if p % 64 ≠ 0 ∨ (kind = 1 ∧ p < 512) then .trap 0x0E2 0
  else match tileSpace kind a with
    | some c => .trap c a
    | none => match rangeCheck s kind 64 a a (tileEnd a p) with
      | .fault c x => .trap c x
      | .wait q v => holdFor s q v
      | .ok sc =>
        if 16 ≤ s.anvilCount s.cur.id.core then .hold s
        else match s.countUp k 65536 with
          | none => .trap 0x028 0
          | some u => .ok ((u.enqueue t (op a p) [] false u.pc).implicitFence sc u.eng.nextId)

/-- ACCRED (R222): `dp` holds the pitch, then the index and the count. -/
def reduceTile (s : State) (t k : Nat) (ord i32 : Bool) (a dp : DWord) : Eff :=
  let p := dp.toNat % 2 ^ 32
  let i := bits dp.toNat 47 32
  let n := bits dp.toNat 63 48
  if !s.wg.live.contains t then .trap 0x0E7 0
  else if p % 64 ≠ 0 ∨ p < 512 then .trap 0x0E2 0
  else if !ord && decide (i ≠ 0 ∨ n ≠ 0) then .trap 0x002 0
  else if ord && decide (n ≤ i) then .trap 0x0E9 0
  else match (match window a with
    | .glob _ => none
    | .bad => some 0x0B0
    | _ => some 0x0B5) with
    | some c => .trap c a
    | none => match rangeCheck s 2 64 a a (tileEnd a p) with
      | .fault c x => .trap c x
      | .wait q v => holdFor s q v
      | .ok _ =>
        if 16 ≤ s.anvilCount s.cur.id.core then .hold s
        else match s.countUp k 65536 with
          | none => .trap 0x028 0
          | some u => .ok (u.enqueue t (.accred a p i32 (if ord then some (i, n) else none) k) [] false u.pc)

/-! ## Per-lane reads and writes -/

/-- Registers that keep their values until an operation writes them: uncertain from now on (R82). -/
def pendRegs (s : State) (r n : Nat) (mask : Mask) (lat : Lat) : State :=
  (List.range n).foldl (fun s j => s.writeV (r + j) mask (s.cur.v.getD (r + j) (Vector.replicate 128 0)) lat) s

/-- ACCRD (R223). -/
def readRows (s : State) (h : Hdr) (act : Mask) (t rows : Nat) (d : Opd) (row : Nat) : Eff :=
  if !s.wg.live.contains t then .trap 0x0E7 0
  else if act = 0 then .ok s
  else if 16 ≤ s.anvilCount s.cur.id.core then .hold s
  else match d with
    | .v r => .ok ((pendRegs s r rows act (varLat h)).enqueue t (.accrd r (row % 128) rows act h.sb) [] false s.pc)
    | _ => .ok s

/-- The bytes of every active lane lie in the area (R223). -/
def slotFits (act : Mask) (side : Bool) (off : Nat) : Bool :=
  decide (off % 4 = 0) && (Mask.lanes act).all (fun l => decide (off + 4 * l + 4 ≤ if side then 4096 else 16384))

/-- First byte of an offset of a slot's area. -/
def slotAt (side : Bool) (o off : Nat) : Nat := 20480 * o + (if side then 16384 else 0) + off

/-- A SLOTWR's bytes stay when the writes in flight that it overlaps land (R217). -/
def State.shadow (s : State) (o : Nat) (is : List Nat) : State :=
  { s with wg := { s.wg with order := s.wg.order.map (fun (x : SlotAccess) =>
    if x.write ∧ x.slot = o then { x with over_ := x.over_ ++ is.filter (fun i => decide (x.lo ≤ i ∧ i < x.hi)) } else x) } }

/-- SLOTWR (R217, R223): held until every read received before it is finished, reads that wait for a RELO apart. -/
def writeSlot (side : Bool) (o : Nat) (d : Opd) (off : Nat) (s : State) (act : Mask) : Eff :=
  if !slotFits act side off then .trap 0x0EB 0
  else if act ≠ 0 ∧ s.wg.order.any (fun x => x.slot == o && !x.write && !x.needRelo) then .hold s
  else withSrcs [(d, 1)] (fun s => s.fixed 0) (fun s live xs =>
    let x := xs.headD (Vector.replicate 128 0)
    let put := fun (st : Store 8) (l : Nat) => Store.setN st (slotAt side o off + 4 * l) (leBytes 4 (x.getD l 0).toNat)
    let s := { s with wg := Wgroup.cleanSlots { s.wg with slots := (Mask.lanes live).foldl put s.wg.slots }
                              ((Mask.lanes live).flatMap (fun l => (List.range 4).map (fun i => slotAt side o off + 4 * l + i))) }
    .ok (if s.wg.order.any (fun x => x.slot == o && x.write) then
      s.shadow o ((Mask.lanes live).flatMap (fun l => (List.range 4).map (fun i => slotAt side 0 off + 4 * l + i))) else s)) s act

/-- The mark of an element that waits for a SLOTRD, told apart from the tags of remote operations. -/
def slotTag (id : Nat) : Nat := 65536 + id

/-- SLOTRD (R217, R223). -/
def readSlot (s : State) (h : Hdr) (act : Mask) (side : Bool) (o : Nat) (d : Opd) (off : Nat) : Eff :=
  if !slotFits act side off then .trap 0x0EB 0
  else if act = 0 then .ok s
  else if 16 ≤ s.anvilCount s.cur.id.core then .hold s
  else match d with
    | .v r =>
      let (q, u) := (pendRegs s r 1 act (varLat h)).receiveReads [o]
      .ok (u.enqueue 16 (.slotrd side o off ((Mask.lanes act).map (fun l => (l, .lane r 1 l))) h.sb) [q] false s.pc)
    | .q p =>
      -- the positions are taken now, the elements are written as the read returns (R306)
      let id := s.eng.nextId + 1
      (match s.port p, s.push1 p act (Vector.replicate 128 0) (fun _ => slotTag id + 1) with
       | some port, .ok u =>
         let dst := fun (l : Nat) =>
           let pos := port.pos + (if port.packed || port.isQueue then ((Mask.lanes act).takeWhile (fun x => x < l)).length else l)
           if port.isQueue then RemDst.elem p pos
           else match (layOf port.record).elem port.base pos with
             | some (a, m, _) => .push p pos s.eng.nextId a m
             | none => .none
         let u := { u with eng := { u.eng with nextId := id } }
         let (q, u) := u.receiveReads [o]
         .ok (u.enqueue 16 (.slotrd side o off ((Mask.lanes act).map (fun l => (l, dst l))) h.sb) [q] false s.pc)
       | _, e => e)
    | _ => .ok s

/-- CLAIMO (R217): waits until every read received before it has read the slots. -/
def execClaimo (h : Hdr) (o : Nat) (n1 : Nat) (s : State) : Host.Outcome State Fault Refusal :=
  run (.claimo h o n1) h (fun u act => onAnvil u (if act = 0 then .ok u else claimSlots u o (n1 + 1))) s

/-- RELO (R217). -/
def execRelo (h : Hdr) (o : Nat) (n1 : Nat) (s : State) : Host.Outcome State Fault Refusal :=
  run (.relo h o n1) h (fun u act => onAnvil u (if act = 0 then .ok u else .ok (releaseSlots u o (n1 + 1)))) s

/-- CLAIMA (R218). -/
def execClaima (h : Hdr) (t : Nat) (n1 : Nat) (s : State) : Host.Outcome State Fault Refusal :=
  run (.claima h t n1) h (fun u act => onAnvil u (if act = 0 then .ok u else claimTiles u t (n1 + 1))) s

/-- RELA (R218): the tiles count as dead from here on. -/
def execRela (h : Hdr) (t : Nat) (n1 : Nat) (s : State) : Host.Outcome State Fault Refusal :=
  run (.rela h t n1) h (fun u act => onAnvil u (if act = 0 then .ok u else .ok { u with wg := { u.wg with live := u.wg.live.filter (fun x => !(decide (t ≤ x ∧ x ≤ t + n1))) } })) s

/-- MMA (R216, R219, R220). -/
def execMma (h : Hdr) (z : Bool) (hk : Bool) (sg : Sg) (fs : Nat) (t : Nat) (oa : Nat) (ob : Nat) (k : Nat) (s : State) : Host.Outcome State Fault Refusal :=
  run (.mma h z hk sg fs t oa ob k) h (fun u act => mmaIssue u act false z sg.code fs t oa ob 0 (if hk then some k else none)) s

/-- MMAS (R216, R219, R220, R290). -/
def execMmas (h : Hdr) (z : Bool) (hk : Bool) (sg : Sg) (fs : Nat) (t : Nat) (oa : Nat) (ob : Nat) (om : Nat) (k : Nat) (s : State) : Host.Outcome State Fault Refusal :=
  run (.mmas h z hk sg fs t oa ob om k) h (fun u act => mmaIssue u act true z sg.code fs t oa ob om (if hk then some k else none)) s

/-- ACCZ (R221). -/
def execAccz (h : Hdr) (t : Nat) (s : State) : Host.Outcome State Fault Refusal :=
  run (.accz h t) h (fun u act => onAnvil u (if act = 0 then .ok u else if !u.wg.live.contains t then .trap 0x0E7 0
    else if 16 ≤ u.anvilCount u.cur.id.core then .hold u
    else .ok (u.enqueue t .accz [] false u.pc))) s

/-- ACCLD (R221). -/
def execAccld (h : Hdr) (t : Nat) (k : Nat) (d : Opd) (a : Opd) (s : State) : Host.Outcome State Fault Refusal :=
  run (.accld h t k d a) h (fun u act => onAnvil u (if act = 0 then .ok u else tileMove u t k 0 (u.readUni a 2) (u.readUni d 1).toNat (fun p q => .accld p q k))) s

/-- ACCST (R221). -/
def execAccst (h : Hdr) (t : Nat) (k : Nat) (d : Opd) (a : Opd) (s : State) : Host.Outcome State Fault Refusal :=
  run (.accst h t k d a) h (fun u act => onAnvil u (if act = 0 then .ok u else tileMove u t k 1 (u.readUni a 2) (u.readUni d 1).toNat (fun p q => .accst p q k))) s

/-- ACCRED (R222). -/
def execAccred (h : Hdr) (ord : Bool) (i32 : Bool) (t : Nat) (k : Nat) (d : Opd) (a : Opd) (s : State) : Host.Outcome State Fault Refusal :=
  run (.accred h ord i32 t k d a) h (fun u act => onAnvil u (if act = 0 then .ok u else reduceTile u t k ord i32 (u.readUni a 2) (u.readUni d 2))) s

/-- ACCRD (R223). -/
def execAccrd (h : Hdr) (t : Nat) (n1 : Nat) (d : Opd) (a : Opd) (s : State) : Host.Outcome State Fault Refusal :=
  run (.accrd h t n1 d a) h (fun u act => onAnvil u (readRows u h act t (n1 + 1) d (u.readUni a 1).toNat)) s

/-- SLOTWR (R223). -/
def execSlotwr (h : Hdr) (side : Bool) (o : Nat) (d : Opd) (a : Opd) (s : State) : Host.Outcome State Fault Refusal :=
  run (.slotwr h side o d a) h (fun u act => onAnvil u (writeSlot side o d (u.readUni a 1).toNat u act)) s

/-- SLOTRD (R223). -/
def execSlotrd (h : Hdr) (side : Bool) (o : Nat) (d : Opd) (a : Opd) (s : State) : Host.Outcome State Fault Refusal :=
  run (.slotrd h side o d a) h (fun u act => onAnvil u (readSlot u h act side o d (u.readUni a 1).toNat)) s

end Sys2Proof.Machine
end

