-- ==== Sys2Proof/Machine/Control.lean ====
section
/-! DEFINITION. Control flow and barriers (R143–R156): branches, calls and returns over the divergence stack, EXIT, MOVEM, BAR,
BARG. -/
namespace Sys2Proof.Machine

/-- The branch condition in every lane: P xor PNB (R89, R147). -/
def condMask (s : State) (pr : Nat) (neg : Bool) : Mask := if neg then ~~~(s.readP pr) else s.readP pr

/-- A path entry pushed by the instruction being issued. `line` is what it goes on executing, `arr` its arrival. -/
def newPath (s : State) (pc rpc : DWord) (mask : Mask) (line : Option (Nat × List Byte)) (arr : Option DWord) : Path :=
  { isRec := false, pc := pc, rpc := rpc, mask := mask, creation := mask, line := line, arr := arr, refilled := false,
    storedRec := false, pid := s.cur.nextPid }

/-- The reconvergence entry that holds the base path (R148, R149). -/
def baseEntry (s : State) (pc : DWord) : Path :=
  { isRec := true, pc := pc, rpc := noneMark, mask := s.cur.base.mask, creation := ~~~s.cur.exited, line := none, arr := none,
    refilled := false, storedRec := false, pid := s.cur.base.pid }

/-- What an instruction comes to whose spill or fill does not go on (R243, R365). -/
def spillEff (s : State) : SpillStop → Eff
  | .fault c a => .trap c a
  | .wait p va => .hold (s.pathWaits p va)

/-- Push entries in order, the last on top. -/
def pushAll (s : State) : List Path → Except SpillStop State
  | [] => .ok s
  | e :: es => match s.push { e with pid := s.cur.nextPid } with
    | .error a => .error a
    | .ok t => pushAll (t.modCur (fun w => { w with nextPid := w.nextPid + 1 })) es

/-- Turn the issuing path into the reconvergence entry at `r`, or push one in the base state, then push paths above
(R148, R149): the depth check first (R45), then the spills (0x06C). -/
def diverge (s : State) (r : DWord) (paths : List Path) : Eff :=
  let base := s.cur.stack = []
  let n := paths.length + if base then 1 else 0
  if !s.roomFor n then .trap 0x060 0
  else
    let res := if base then pushAll s (baseEntry s r :: paths)
      else pushAll (s.modCur (fun w => w.modPath (fun p => { p with isRec := true, pc := r, line := none, arr := none }))) paths
    match res with
    | .error e => spillEff s e
    | .ok t => .moved (t.modCur (fun w => { w with issuing := 0 }))

/-- BRA and BRX (R148): the lanes `c` of the active mask take the branch to `tgt`. In R148's first short cut the taken lanes wait at r without
a path of their own, and no arrival of theirs is checked (log 65). -/
def branch (s : State) (act : Mask) (u : Bool) (c : Mask) (tgt : Nat → DWord) (perLane : Bool) (rcv : BitVec 16) : Eff :=
  let e := s.cur.path
  let t1 := act &&& c
  let t0 := tgt ((Mask.lanes t1).headD 0)
  if perLane && u && (Mask.lanes t1).any (fun l => tgt l != t0) then .trap 0x061 0
  else
    let t := if perLane then t1 &&& lanesMask ((Mask.lanes t1).filter (fun l => tgt l == t0)) else t1
    let f := e.mask &&& ~~~t
    if t = 0 then .ok s
    else if f = 0 then .moved (s.arrive t0)
    else if u then .trap 0x061 0
    else if rcv = 0 then .trap 0x062 0
    else
      let r := s.pc + rcv.signExtend 64
      if r = e.rpc ∧ t0 = r then .ok (s.modCur (fun w => w.modPath (fun p => { p with mask := f })))
      else if r = e.rpc ∧ s.pc + 1 = r then
        .moved ((s.modCur (fun w => w.modPath (fun p => { p with mask := t }))).arrive t0)
      else diverge s r [newPath s t0 r t none (some s.pc), newPath s (s.pc + 1) r f e.line none]

/-- CALL (R149). -/
def callTo (s : State) (act : Mask) (tgt : DWord) : Eff :=
  if act = 0 then .ok s else diverge s (s.pc + 1) [newPath s tgt callMark act none (some s.pc)]

/-- Remove lanes from the current masks of the first `n` entries. -/
def dropLanes (t : Mask) (n : Nat) (st : List Path) : List Path :=
  (st.take n).map (fun p => { p with mask := p.mask &&& ~~~t }) ++ st.drop n

/-- After lanes have left: the topmost non-empty entry, when it is a reconvergence entry with only emptied entries above it,
resumes by an arrival named by this instruction (R73). -/
def markResumed (at_ : DWord) : List Path → Bool → List Path
  | [], _ => []
  | p :: r, above =>
    if p.mask = 0 then p :: markResumed at_ r true
    else if above && p.isRec then { p with arr := some at_ } :: r else p :: r

/-- A spilled entry as it stands in lane 0's private memory (R44). -/
def spilledAt (s : State) (j : Nat) : Except SpillStop Path :=
  match spillLocs s false j with
  | .error a => .error a
  | .ok ls => .ok (Path.ofSpill ((ls.map (fun p => s.readLoc p.1 4)).flatten) 0 0)

/-- Remove lanes from the current masks of spilled entries j … top − 1, lowest last. -/
def dropSpilled (s : State) (t : Mask) (j : Nat) : Nat → Except SpillStop State
  | 0 => .ok s
  | n + 1 =>
    match spilledAt s (j + n), spillLocs s true (j + n) with
    | .ok p, .ok ls => dropSpilled (s.writeWords ls (Path.spillBytes { p with mask := p.mask &&& ~~~t })) t j n
    | .error a, _ => .error a
    | _, .error a => .error a

/-- The highest spilled entry below `n` for which a test holds. -/
def findSpilled (s : State) (test : Path → Bool) : Nat → Except SpillStop (Option Nat)
  | 0 => .ok none
  | n + 1 => match spilledAt s n with
    | .error a => .error a
    | .ok p => if test p then .ok (some n) else findSpilled s test n

/-- Remove lanes from every entry above the topmost one that passes a test, and from that one too when `incl` (R149, R150). -/
def leaveTo (s : State) (t : Mask) (test : Path → Bool) (incl : Bool) (cause : Nat) : Eff :=
  match s.cur.stack.findIdx? test with
  | some i =>
    .ok (s.modCur (fun w => { w with stack := markResumed s.pc (dropLanes t (if incl then i + 1 else i) w.stack) false }))
  | none =>
    match findSpilled s test s.cur.spilled with
    | .error e => spillEff s e
    | .ok none => .trap cause 0
    | .ok (some j) =>
      let lo := if incl then j else j + 1
      match dropSpilled s t lo (s.cur.spilled - lo) with
      | .error e => spillEff s e
      | .ok s => .ok (s.modCur (fun w => { w with stack := markResumed s.pc (dropLanes t w.stack.length w.stack) false }))

/-- RET (R149): leave the call path, of either kind. -/
def returnFrom (s : State) (t : Mask) : Eff := leaveTo s t (fun p => p.rpc == callMark) true 0x067

/-- BREAK (R150): leave to the reconvergence entry at a slot. -/
def breakTo (s : State) (t : Mask) (pc : DWord) : Eff := leaveTo s t (fun p => p.isRec && p.pc == pc) false 0x063

/-- The focused warp ends because every lane has exited (R151, R156, R319). -/
def State.endWarp (s : State) : State :=
  let s := s.modCur (fun w => { w with status := .ended, hold := .none, fence := none })
  let s := if s.aliveIn s.wg.key = 0 ∧ s.wg.here then { s with wg := { s.wg with status := .ended, endId := s.eng.nextId } } else s
  (s.tickBars s.wg.key).tickGang s.wg.launch s.wg.gang

/-- EXIT (R151): the active lanes leave every on-chip entry and the base path, and join X; the warp ends with its last lane,
its ports closed first. -/
def exitLanes (s : State) (act : Mask) : Eff :=
  let out := fun (p : Path) => { p with mask := p.mask &&& ~~~act, creation := p.creation &&& ~~~act }
  let x := s.cur.exited ||| act
  let gone := fun (s : State) => s.modCur (fun w => { w with exited := x, base := out w.base, stack := w.stack.map out })
  if x = Mask.full then
    match s.refreshAll with
    | .fault c a => .trap c a
    | .wait p va => .hold (s.pathWaits p va)
    | .ok s =>
      let (s, done) := s.closeAll s.cur.id
      if done then .moved (gone s).endWarp else .hold s
  else .ok (gone s)

/-- MOVEM.rd (R154). -/
def maskOut (s : State) (d : Opd) : State :=
  match d with
  | .s r => (List.range 4).foldl (fun t i => t.writeS (r + i) ((s.cur.em >>> (32 * i)).setWidth 32) (s.fixed 2)) s
  | _ => s

/-- MOVEM.wr (R154). -/
def maskIn (s : State) (a : Opd) : Eff :=
  let r := match a with
    | .s r => r
    | _ => 0
  let v : Mask := (List.range 4).foldl (fun m i => m ||| ((s.readS (r + i)).setWidth 128 <<< (32 * i))) 0
  let e := s.cur.path
  let c := e.creation &&& ~~~s.cur.exited
  let new := (e.mask &&& ~~~c) ||| (v &&& c)
  if new = 0 then .trap 0x064 0 else .ok (s.modCur (fun w => w.modPath (fun p => { p with mask := new })))

/-! ## Barriers -/

/-- Continuing from a barrier or a fence acquires at a scope (R155, R178): the core's L1 lines that are not frozen go. -/
def State.acquire (s : State) (sc : Scope) : State := s.acquireOn s.cur.id.core sc.code

/-- The gang barriers of the focused workgroup (R155). -/
def State.gangBars (s : State) : Vector Barrier 8 :=
  ((s.sched.gangs.find? (fun g => g.launch == s.wg.launch && g.index == s.wg.gang)).map (·.bars)).getD
    (Vector.replicate 8 Barrier.blank)

/-- Replace the gang barriers of the focused workgroup. -/
def State.setGangBars (s : State) (b : Vector Barrier 8) : State :=
  let rest := s.sched.gangs.filter (fun g => !(g.launch == s.wg.launch && g.index == s.wg.gang))
  { s with sched := { s.sched with gangs := { launch := s.wg.launch, index := s.wg.gang, bars := b } :: rest } }

/-- BAR (R155, R156). -/
def barrier (s : State) (mode : BarMode) (sc : Scope) (id n : Nat) : Eff :=
  if s.cur.twoLive then .trap 0x065 0
  else if s.wg.wgsize < n then .trap 0x069 0
  else
    let b := s.wg.bars.getD id Barrier.blank
    if 0 < b.count ∧ b.n ≠ some n then .trap 0x069 0
    else
      let s := if mode = .wait then s else
        let s := s.modCur (fun w => { w with barRec := w.barRec.setIfInBounds id (some b.phase) })
        let s := { s with wg := { s.wg with bars := s.wg.bars.setIfInBounds id { b with count := b.count + 1, n := some n } } }
        s.tickBars s.wg.key
      if mode = .arrive then .ok s
      else match s.cur.barRec.getD id none with
        | some ph =>
          if ph = (s.wg.bars.getD id Barrier.blank).phase then .ok (s.modCur (fun w => { w with hold := .bar id ph sc.code }))
          else .ok (s.acquire sc)
        | none => .ok (s.acquire sc)

/-- BARG (R155). -/
def gangBarrier (s : State) (mode : BarMode) (sc : Scope) (id : Nat) : Eff :=
  let b := s.gangBars.getD id Barrier.blank
  let s := if mode = .wait then s else
    let s := s.modCur (fun w => { w with bargRec := w.bargRec.setIfInBounds id (some b.phase) })
    (s.setGangBars (s.gangBars.setIfInBounds id { b with count := b.count + 1, n := some 0 })).tickGang s.wg.launch s.wg.gang
  if mode = .arrive then .ok s
  else match s.cur.bargRec.getD id none with
    | some ph =>
      if ph = (s.gangBars.getD id Barrier.blank).phase then .ok (s.modCur (fun w => { w with hold := .barg id ph sc.code }))
      else .ok (s.acquire sc)
    | none => .ok (s.acquire sc)

/-- BRA (R148). -/
def execBra (h : Hdr) (u : Bool) (pr : Nat) (pnb : Bool) (disp : BitVec 24) (rcv : BitVec 16) (s : State) : Host.Outcome State Fault Refusal :=
  run (.bra h u pr pnb disp rcv) h (fun t act => branch t act u (condMask t pr pnb) (fun _ => t.pc + disp.signExtend 64) false rcv) s

/-- BRX (R148): the target from an s pair, or from each lane. -/
def execBrx (h : Hdr) (u : Bool) (vv : Bool) (pr : Nat) (pnb : Bool) (a : Opd) (rcv : BitVec 16) (s : State) : Host.Outcome State Fault Refusal :=
  run (.brx h u vv pr pnb a rcv) h (fun t act =>
    let x := t.readVec a 2
    branch t act u (condMask t pr pnb) (fun l => x.getD l 0) vv rcv) s

/-- CALL (R149). -/
def execCall (h : Hdr) (disp : BitVec 24) (s : State) : Host.Outcome State Fault Refusal :=
  run (.call h disp) h (fun t act => callTo t act (t.pc + disp.signExtend 64)) s

/-- CALL.ind (R149). -/
def execCallInd (h : Hdr) (a : Opd) (s : State) : Host.Outcome State Fault Refusal :=
  run (.callInd h a) h (fun t act => callTo t act (t.readUni a 2)) s

/-- RET (R149). -/
def execRet (h : Hdr) (pr : Nat) (pnb : Bool) (s : State) : Host.Outcome State Fault Refusal :=
  run (.ret h pr pnb) h (fun t act => returnFrom t (act &&& condMask t pr pnb)) s

/-- BREAK (R150). -/
def execBreakp (h : Hdr) (pr : Nat) (pnb : Bool) (disp : BitVec 24) (s : State) : Host.Outcome State Fault Refusal :=
  run (.breakp h pr pnb disp) h (fun t act => breakTo t (act &&& condMask t pr pnb) (t.pc + disp.signExtend 64)) s

/-- EXIT (R151). -/
def execExit (h : Hdr) (s : State) : Host.Outcome State Fault Refusal :=
  run (.exit h) h (exitLanes) s

/-- MOVEM.rd (R154). -/
def execMovemRd (h : Hdr) (d : Opd) (s : State) : Host.Outcome State Fault Refusal :=
  run (.movemRd h d) h (fun t act => if act = 0 then .ok t else .ok (maskOut t d)) s

/-- MOVEM.wr (R154). -/
def execMovemWr (h : Hdr) (a : Opd) (s : State) : Host.Outcome State Fault Refusal :=
  run (.movemWr h a) h (fun t act => if act = 0 then .ok t else maskIn t a) s

/-- BAR (R155, R156). -/
def execBar (h : Hdr) (mode : BarMode) (sc : Scope) (id : Nat) (n : Nat) (s : State) : Host.Outcome State Fault Refusal :=
  run (.bar h mode sc id n) h (fun t act => if act = 0 then .ok t else barrier t mode sc id n) s

/-- BARG (R153, R155). -/
def execBarg (h : Hdr) (mode : BarMode) (sc : Scope) (id : Nat) (s : State) : Host.Outcome State Fault Refusal :=
  run (.barg h mode sc id) h (fun t act => if t.converged act then gangBarrier t mode sc id else .trap 0x066 0) s

end Sys2Proof.Machine
end

