-- ==== Sys2Proof/Machine/EngineInstr.lean ====
section
/-! DEFINITION. The class 5 instructions (R200–R215): copies, WAITK and KADD, row operations, RANK, ROUTE, TGEN, up to the moment at
which they have issued; the work they start goes on by the events of EngineEv. -/
namespace Sys2Proof.Machine

/-- Add a signed number to a count register (R42, R204). -/
def addCount (s : State) (k : Nat) (x : Int) : Eff :=
  match countAdd (s.cur.k.getD k 0) x with
  | some y => .ok (s.modCur (fun w => { w with k := w.k.setIfInBounds k y }))
  | none => .trap 0x028 0

/-! ## Row operations -/

/-- The locations of the 256-byte granules of a range in the local HBM4E tier (R211); a granule lies at consecutive locations
under every channel hash (R324). -/
def rowRange (s : State) (kind : Nat) (a : DWord) : Nat → EngRes (List Nat)
  | 0 => .ok []
  | n + 1 =>
    match resolve s (engAccess kind) 0 a with
    | .fault c => .fault c a
    | .wait p va => .wait p va
    | .ok (.loc l _) =>
      if lpBase ≤ l then .fault 0x0EC 0
      else (match rowRange s kind (a + 256) n with
        | .ok ls => .ok (l :: ls)
        | e => e)
    | .ok _ => .fault 0x0EC 0

/-- The address is of a window that a row operation takes (R211): window 0x00 or rank form. -/
def rowWindow (a : DWord) : Bool :=
  match window a with
  | .glob _ => true
  | .rank _ _ _ => true
  | _ => false

/-- ROWCPY and ROWZERO (R211): every page of both ranges is translated now. -/
def rowIssue (s : State) (k : Nat) (dst : DWord) (src : Option DWord) (len : Nat) : Eff :=
  let bad := fun (a : DWord) => decide (a.toNat % 1024 ≠ 0) || !rowWindow a
  if len % 1024 ≠ 0 ∨ len = 0 ∨ 2 ^ 31 < len ∨ bad dst ∨ (src.map bad).getD false then .trap 0x0EC 0
  else
    let from_ : EngRes (List Nat) := match src with
      | some a => rowRange s 0 a (len / 256)
      | none => .ok []
    match from_ with
    | .fault c a => .trap c a
    | .wait p v => holdFor s p v
    | .ok ls =>
      match rowRange s 1 dst (len / 256) with
      | .fault c a => .trap c a
      | .wait p v => holdFor s p v
      | .ok ld =>
        if ls.any (fun l => ld.contains l) then .trap 0x0ED 0
        else match s.countUp k len with
          | none => .trap 0x028 0
          | some t =>
            let kind := match src with
              | some a => CmdKind.rowcpy ls ld a dst
              | none => CmdKind.rowzero ld dst
            .ok (t.addCmd (newCmd t kind k 0 (List.range (len / 1024)) false))

/-! ## RANK -/

/-- A byte at an address is not in the local HBM4E tier, as far as it translates (R213). -/
def notHbm (s : State) (a : DWord) : Bool :=
  match resolve s (engAccess 0) 0 a with
  | .ok (.loc l _) => decide (lpBase ≤ l)
  | .ok _ => true
  | _ => false

/-- RANK's layout record (R213). -/
def rankRecordOk (kind : Nat) (r : List Byte) : Bool :=
  let l := layOf r
  recordOk r && decide (l.mode = 0 ∧ l.ndim = 2 ∧ l.esz = (if kind = 0 then 3 else 2) ∧ l.st 0 = (l.width / 8 : Nat) ∧ l.e 0 ≤ 4096)

/-- RANK (R213). -/
def rankIssue (s : State) (kind n k : Nat) (out base rec : DWord) : Eff :=
  match readRecord s rec with
  | .fault c x => .trap c x
  | .wait p v => holdFor s p v
  | .ok (r, t) =>
    let l := layOf r
    if !rankRecordOk kind r then .trap 0x0E0 0
    else if !rowWindow base then .trap 0x0EC 0
    else match patternCheck t 0 l base with
      | .fault c x => .trap c x
      | .wait p v => holdFor s p v
      | .ok _ =>
        let rows := l.e 1
        if (List.range rows).any (fun i => (List.range (l.e 0 * (l.width / 8))).any (fun j =>
            notHbm t (base + BitVec.ofInt 64 (i * l.st 1 + j)))) then .trap 0x0EC 0
        else if 2 ^ 31 < 8 * n * rows then .trap 0x0E2 0
        else match spanCheck t 1 8 out (8 * n * rows) with
          | .fault c x => .trap c x
          | .wait p v => holdFor s p v
          | .ok remote => match t.countUp k (8 * n * rows) with
            | none => .trap 0x028 0
            | some t => .ok ((t.addCmd (newCmd t (.rank kind n r base out) k 0 (List.range rows) (decide (remote ≠ 0)))).implicitFence remote t.eng.nextId)

/-! ## ROUTE -/

/-- ROUTE keeps a candidate (R214). -/
def routeKeeps (c t p e : Nat) : Bool :=
  (Fmt.f32.val c).cmp (Fmt.f32.val t) == some .lt && !(Fmt.f32.val p).isNan && e != 0xFFFFFFFF

/-- ROUTE (R214): every source is read before any result is written. -/
def routeLanes (h : Hdr) (pd : Nat) (d a b c : Opd) : State → Mask → Eff :=
  withSrcs [(a, 2), (b, 1), (c, 1)] (fun _ => varLat h) (fun s live xs =>
    let w := fun (i l : Nat) => (((xs.getD i (Vector.replicate 128 0)).getD l 0) : DWord).toNat
    let keep := fun l => routeKeeps (w 1 l % 2 ^ 32) (w 2 l % 2 ^ 32) (w 0 l % 2 ^ 32) (w 0 l / 2 ^ 32)
    let res : Lanes := Vector.ofFn (fun l : Fin 128 =>
      if keep l then BitVec.ofNat 64 (fAdd .f32 .rn false (w 1 l % 2 ^ 32) (w 0 l % 2 ^ 32) + 2 ^ 32 * (w 0 l / 2 ^ 32))
      else BitVec.ofNat 64 (w 1 l % 2 ^ 32 + 2 ^ 32 * 0xFFFFFFFF))
    match s.putVec d 2 live res (varLat h) with
    | .ok t => .ok (t.writeP pd live (maskOf keep) (varLat h))
    | e => e)

/-! ## TGEN -/

/-- TGEN (R215): `n` counts at `counts`, the expert table at `tab`, a tile list of `cap` entries at `list`. -/
def tgenIssue (s : State) (t k : Nat) (tab counts list : DWord) (n cap : Nat) : Eff :=
  if n = 0 ∨ 4096 < n then .trap 0x0EF 0
  else match spanCheck s 0 4 counts (4 * n), spanCheck s 1 4 tab (16 + 16 * n), spanCheck s 1 8 list (8 * cap) with
    | .ok a, .ok b, .ok c =>
      (match s.countUp k 64 with
       | none => .trap 0x028 0
       | some u => .ok ((u.addCmd (newCmd u (.tgen t n cap counts tab list) k 0 [0] (decide (max a (max b c) ≠ 0)))).implicitFence
           (max a (max b c)) u.eng.nextId))
    | .fault c x, _, _ => .trap c x
    | .wait p v, _, _ => holdFor s p v
    | _, .fault c x, _ => .trap c x
    | _, .wait p v, _ => holdFor s p v
    | _, _, .fault c x => .trap c x
    | _, _, .wait p v => holdFor s p v

/-- COPY (R205–R207). -/
def execCopy (h : Hdr) (scatter : Bool) (sg : Sg) (hint : Nat) (k : Nat) (d : Opd) (a : Opd) (b : Opd) (s : State) : Host.Outcome State Fault Refusal :=
  run (.copy h scatter sg hint k d a b) h (fun t act => copyIssue t act scatter false false sg hint k (t.readUni d 2) none (t.readUni a 2) (t.readUni b 2)) s

/-- COPYG, scratchpad form (R205, R208). -/
def execCopyg (h : Hdr) (sg : Sg) (hint : Nat) (k : Nat) (d : Opd) (a : Opd) (b : Opd) (s : State) : Host.Outcome State Fault Refusal :=
  run (.copyg h sg hint k d a b) h (fun t act => copyIssue t act false true false sg hint k (t.readUni d 2) none (t.readUni a 2) (t.readUni b 2)) s

/-- COPYG.slot (R205, R208, R217). -/
def execCopygSlot (h : Hdr) (slot : Nat) (side : Bool) (sg : Sg) (hint : Nat) (k : Nat) (off : Nat) (a : Opd) (b : Opd) (s : State) : Host.Outcome State Fault Refusal :=
  run (.copygSlot h slot side sg hint k off a b) h (fun t act => copyIssue t act false true false sg hint k 0 (some (slot, side, off)) (t.readUni a 2) (t.readUni b 2)) s

/-- COPYM (R205, R209, R217). -/
def execCopym (h : Hdr) (slot : Nat) (side : Bool) (fol : Bool) (sg : Sg) (hint : Nat) (k : Nat) (off : Nat) (a : Opd) (b : Opd) (s : State) : Host.Outcome State Fault Refusal :=
  run (.copym h slot side fol sg hint k off a b) h (fun t act => copyIssue t act false false fol sg hint k 0 (some (slot, side, off)) (t.readUni a 2) (t.readUni b 2)) s

/-- WAITK (R204): the warp waits until every named count register is 0. -/
def execWaitk (h : Hdr) (mask : BitVec 16) (s : State) : Host.Outcome State Fault Refusal :=
  run (.waitk h mask) h (fun t act =>
    if act = 0 then .ok t
    else if (List.range 16).all (fun i => !(mask.getLsbD i) || t.cur.k.getD i 0 == 0) then .ok (t.modCur (fun w => { w with hold := .none }))
    else .hold (t.modCur (fun w => { w with hold := .waitk mask }))) s

/-- KADD (R204, R42). -/
def execKadd (h : Hdr) (k : Nat) (a : Opd) (s : State) : Host.Outcome State Fault Refusal :=
  run (.kadd h k a) h (fun t act => if act = 0 then .ok t else addCount t k ((t.readUni a 1).setWidth 32).toInt) s

/-- KADD, immediate form (R204, R42). -/
def execKaddImm (h : Hdr) (k : Nat) (imm : BitVec 20) (s : State) : Host.Outcome State Fault Refusal :=
  run (.kaddImm h k imm) h (fun t act => if act = 0 then .ok t else addCount t k imm.toInt) s

/-- ROWCPY (R211). -/
def execRowcpy (h : Hdr) (k : Nat) (d : Opd) (a : Opd) (c : Opd) (s : State) : Host.Outcome State Fault Refusal :=
  run (.rowcpy h k d a c) h (fun t act => if act = 0 then .ok t else rowIssue t k (t.readUni d 2) (some (t.readUni a 2)) (t.readUni c 1).toNat) s

/-- ROWZERO (R211). -/
def execRowzero (h : Hdr) (k : Nat) (d : Opd) (c : Opd) (s : State) : Host.Outcome State Fault Refusal :=
  run (.rowzero h k d c) h (fun t act => if act = 0 then .ok t else rowIssue t k (t.readUni d 2) none (t.readUni c 1).toNat) s

/-- RANK (R213). -/
def execRank (h : Hdr) (kind : RankKind) (n : Nat) (k : Nat) (d : Opd) (a : Opd) (b : Opd) (s : State) : Host.Outcome State Fault Refusal :=
  run (.rank h kind n k d a b) h (fun t act => if act = 0 then .ok t else rankIssue t kind.code n k (t.readUni d 2) (t.readUni a 2) (t.readUni b 2)) s

/-- ROUTE (R214). -/
def execRoute (h : Hdr) (pd : Nat) (d : Opd) (a : Opd) (b : Opd) (c : Opd) (s : State) : Host.Outcome State Fault Refusal :=
  run (.route h pd d a b c) h (routeLanes h pd d a b c) s

/-- TGEN (R215). -/
def execTgen (h : Hdr) (t : Nat) (k : Nat) (d : Opd) (a : Opd) (b : Opd) (c : Opd) (s : State) : Host.Outcome State Fault Refusal :=
  run (.tgen h t k d a b c) h (fun u act => if act = 0 then .ok u
    else tgenIssue u t k (u.readUni d 2) (u.readUni a 2) (u.readUni b 2) ((u.readUni c 2).toNat % 2 ^ 32) ((u.readUni c 2).toNat / 2 ^ 32)) s

end Sys2Proof.Machine
end

