-- ==== Sys2Proof/Machine/EngineEv.lean ====
section
/-! DEFINITION. What the engines do on their own: copies (R203, R207, R296), follow-ons (R298), row operations (R212, R327, R328), RANK
(R213, R329), TGEN (R215), the anvil's queue (R217–R223, R291) and the near-L2 adders (R36, R222, R299, R300). An event that is not
enabled changes nothing. -/
namespace Sys2Proof.Machine

/-- Members of the focused gang that ended after a command was issued: its accesses to their scratchpads are still performed (R239, R435). -/
def State.lateMembers (s : State) (c : Cmd) : List Wgroup :=
  s.wgs.filter (fun g => g.launch == s.wg.launch && g.gang == s.wg.gang && !g.here && decide (c.id < g.endId))

/-- Give workgroups the statuses that `f` says. -/
def State.reStatus (s : State) (f : Wgroup → WgStatus) (keys : List Nat) : State :=
  if keys = [] then s else { s with wgs := s.wgs.map (fun g => if keys.contains g.key then { g with status := f g } else g) }

/-- Run an event of a command whose workgroup is on a core, with its warp in focus; then go back. -/
def onCmd (s : State) (id : Nat) (f : State → Cmd → State) : Host.Outcome State Fault Refusal :=
  match s.eng.cmds.find? (fun c => c.id == id) with
  | none => .next s
  | some c =>
    match s.wgOf c.wg with
    | none => .next s
    | some _ =>
      let t := s.asCmd c
      let late := t.lateMembers c
      let keys := late.map (fun g => g.key)
      let u := f (t.reStatus (fun _ => .resident) keys) c
      .next ((u.reStatus (fun g => ((late.find? (fun x => x.key == g.key)).map (fun x => x.status)).getD .ended) keys).focusOn s.cur.id)

/-! ## Copies -/

/-- A block of a copy is fetched by this command: its member's share for a collective (R208). -/
def State.deals (s : State) (c : Cmd) (blk : Nat) : Bool :=
  match c.copyg with
  | none => true
  | some _ => (s.wgOf c.wg).elim true (fun g => blk % g.gangSize == g.linear % g.gangSize)

/-- Some block of the granule of a block has been fetched already (R210, R294). -/
def State.begun (s : State) (c : Cmd) (g blocks blk : Nat) : Bool :=
  (List.range g).any (fun i =>
    let b := blk / g * g + i
    decide (b < blocks) && s.deals c b && !c.todo.contains b)

/-- A block may be fetched: it is still to do, the fence before it has passed (R202), and while its workgroup stops for
pre-emption its granule has been begun (R210, R415). -/
def canFetch (s : State) (c : Cmd) (blk : Nat) : Bool :=
  match c.kind with
  | .copy _ r _ _ g =>
    c.todo.contains blk && s.fenced c &&
    (s.wg.status != .stopping || g == 0 || s.begun c g (layOf r).blocks blk)
  | _ => false

/-! ## Row operations -/

/-- Write back every dirty line of 256-byte granules. -/
def State.writeBackAll (s : State) (gs : List Nat) : State :=
  gs.foldl (fun s l => (List.range 4).foldl (fun s i => s.writeBack (l / 64 + i)) s) s

/-- The counter of R332 a granule counts in: 5 row to row, 6 through a buffer, 7 zeroed; its channel. -/
def rowCounter (src : Option Nat) (dst : Nat) : Nat × Nat :=
  match src with
  | none => (channelOf dst, 7)
  -- stack, channel, bank and subarray: the location above 1,024 rows of 1,024 bytes (R323)
  | some l => (channelOf dst, if l / 2 ^ 20 = dst / 2 ^ 20 then 5 else 6)

/-- Count what has been written of a block once in each channel that holds it, so each 256-byte piece under HSEL 7 (R327, R332): its path is
row to row where every piece of it there is. -/
def State.countBlock (s : State) (ps : List (Nat × Option Nat)) : State :=
  ((ps.map (fun p => channelOf p.1)).eraseDups).foldl (fun s ch =>
    let mine := ps.filter (fun p => channelOf p.1 == ch)
    let ways := mine.map (fun p => (rowCounter p.2 p.1).2)
    let i := if ways.all (fun x => x == 5) then 5 else if ways.contains 6 then 6 else 7
    -- the activations count too: of the row written, and of the source's row where the channel holds it (R332)
    (s.countChannel ch i 1).countChannel ch 0 (if mine.any (fun p => p.2.any (fun l => channelOf l == ch)) then 2 else 1)) s

/-- The destination granules of a row operation, four to a block. -/
def Cmd.rowDst (c : Cmd) : Option (List Nat) :=
  match c.kind with
  | .rowcpy _ dst _ _ => some dst
  | .rowzero dst _ => some dst
  | _ => none

/-- Granule i of a block has been written: blocks that lie in several channels (HSEL 7) are written piece by piece (R327). -/
def Cmd.wrote (c : Cmd) (blk i : Nat) : Bool := !c.todo.contains blk || c.pieces.any (fun p => p.idx == 16 * blk + i)

/-- A row operation has begun on a channel, and has not finished there. -/
def Cmd.onChannel (c : Cmd) (dst : List Nat) (ch : Nat) : Bool × Bool :=
  let mine := (List.range dst.length).filter (fun i => channelOf (dst.getD i 0) == ch)
  (mine.any (fun i => c.wrote (i / 4) (i % 4)), mine.any (fun i => !c.wrote (i / 4) (i % 4)))

/-- A channel carries out another row operation first (R321, R328): one that it has begun and not finished, or a ROWCPY that has reached it
before. DESIGN CHOICE (log 91): a ROWCPY reaches its channels with its write-back, and a ROWZERO with its first block there. -/
def State.channelBusy (s : State) (c : Cmd) (ch : Nat) : Bool :=
  let begun := (c.rowDst.map (fun dst => (c.onChannel dst ch).1)).getD false
  s.eng.cmds.any (fun d => d.id != c.id && (match d.rowDst with
    | none => false
    | some dst =>
      let (b, open_) := d.onChannel dst ch
      open_ && (b || (d.wroteBack && !begun &&
        (!c.wroteBack || (s.eng.cmds.takeWhile (fun x => x.id != c.id)).any (fun x => x.id == d.id))))))

/-- Write the granules `now` of one block (R212, R327): their lines leave every cache without write-back, and a block with a frozen byte is refused
whole (R189). An uncorrectable error in the source stops the command (R278). The count falls once the whole block is written. -/
def State.writeRowBlock (s : State) (c : Cmd) (blk : Nat) (now : List Nat) (src dst : List Nat) (from_ to_ : DWord) : State :=
  let d := (dst.drop (4 * blk)).take 4
  let f := (src.drop (4 * blk)).take 4
  let bytes := (d.zipIdx.flatMap (fun x => (List.range 256).map (fun i => (x.1 + i, to_ + BitVec.ofNat 64 (1024 * blk + 256 * x.2 + i)))))
  let frozen := bytes.find? (fun x => s.mem.frozen x.1)
  match f.zipIdx.findSome? (fun x => (List.range 4).findSome? (fun i =>
      (s.memError 4 (.loc (x.1 + 64 * i) 0)).map (fun e => (e, from_ + BitVec.ofNat 64 (1024 * blk + 256 * x.2 + 64 * i))))) with
  | some (e, a) => s.stopCmd c.id e a
  | none =>
    let s := match frozen with
      | some (l, a) => s.logRefusedAt l a c
      | none =>
        let ps := ((d.zip (if src = [] then d.map (fun _ => none) else f.map some)).zipIdx.filter (fun (x : (Nat × Option Nat) × Nat) => now.contains x.2)).map (fun (x : (Nat × Option Nat) × Nat) => x.1)
        (ps.foldl (fun (s : State) (p : Nat × Option Nat) =>
        let bs := match p.2 with
          | none => List.replicate 256 0
          | some l => s.readLoc l 256
        (List.range 4).foldl (fun (s : State) i =>
          let line := p.1 / 64 + i
          let s := s.dropCopies line
          let s := { s with mem := s.mem.setHome { line := line, dram := none, budget := none, sharers := 0, pred := none } }
          s.writeLoc (64 * line) ((bs.drop (64 * i)).take 64)) s) s).countBlock ps
    if frozen.isNone && (List.range 4).any (fun i => !c.wrote blk i && !now.contains i) then
      s.modCmd c.id (fun x => { x with pieces := x.pieces ++ now.map (fun i => ({ idx := 16 * blk + i, bytes := [], mem := c.wg, drop := 0 } : Piece)) })
    else
    let s := s.countDown c.warp c.k 1024 c.epc c.pid
    (s.modCmd c.id (fun x => { x with
      todo := x.todo.filter (fun b => b != blk)
      pieces := x.pieces.filter (fun p => p.idx / 16 != blk)
      refused := match frozen with
        | some (_, a) => lowerOf x.refused a
        | none => x.refused })).finishCmd c.id

/-! ## RANK -/

/-- Column a of a row stands before column b: larger value first, NaN below every number, then the lower column (R213). -/
def rankBefore (a b : FVal × Nat) : Bool :=
  match a.1.isNan, b.1.isNan with
  | true, true => decide (a.2 ≤ b.2)
  | true, false => false
  | false, true => true
  | false, false => match a.1.cmp b.1 with
    | some .gt => true
    | some .lt => false
    | _ => decide (a.2 ≤ b.2)

/-- Put a column where it stands among columns in order. -/
def insertRank (x : FVal × Nat) : List (FVal × Nat) → List (FVal × Nat)
  | [] => [x]
  | y :: r => if rankBefore x y then x :: y :: r else y :: insertRank x r

/-- The output bytes of one row: value and column of its n best (R213). -/
def rankOut (f : Fmt) (n : Nat) (row : List Nat) : List Byte :=
  let best := (row.zipIdx.map (fun x => (f.val x.1, x.2))).foldr insertRank []
  (List.range n).flatMap (fun j => match best[j]? with
    | some (v, c) => leBytes 4 (Fmt.f32.round .rn false v) ++ leBytes 4 c
    | none => leBytes 4 0xFF800000 ++ leBytes 4 0xFFFFFFFF)

/-- Replace what a command has still to do by a piece of output bytes, and let it land. -/
def State.putOut (s : State) (c : Cmd) (todo : List Nat) (keep : List Piece) (p : Piece) : State :=
  let c := { c with todo := todo, pieces := keep ++ [p] }
  (s.modCmd c.id (fun x => { x with todo := todo, pieces := keep ++ [p] })).landOne c p

/-- Before any row of a RANK is read, every dirty line of the matrix is written back (R329). -/
def State.writeBackMatrix (s : State) (c : Cmd) (l : Lay) (base : DWord) : State :=
  if c.wroteBack then s
  else
    let n := l.e 0 * (l.width / 8)
    let rows := (List.range (l.e 1)).flatMap (fun (row : Nat) =>
      let a := base + BitVec.ofInt 64 ((row : Int) * l.st 1)
      ((n - 1) :: (List.range ((n + 63) / 64)).map (fun i => 64 * i)).flatMap (fun i => match resolve (s.seenBy c.pins) (engAccess 0) 0 (a + BitVec.ofNat 64 i) with
        | .ok t => t.line
        | _ => []))
    let dirty := (s.mem.home.filter (fun h => h.dram.isSome && rows.contains h.line)).map (fun h => h.line)
    (dirty.foldl (fun s x => s.writeBack x) s).modCmd c.id (fun d => { d with wroteBack := true })

/-- Read, rank and write one row (R213, R329). -/
def State.rankRow (s : State) (c : Cmd) (row kind n : Nat) (r : List Byte) (base out : DWord) : State :=
  let l := layOf r
  let w := l.width / 8
  let f := if kind = 0 then Fmt.f32 else if kind = 1 then Fmt.f16 else Fmt.bf16
  let a := base + BitVec.ofInt 64 (row * l.st 1)
  let lines := fun (s : State) => (List.range (l.e 0 * w)).flatMap (fun i => match resolve (s.seenBy c.pins) (engAccess 0) 0 (a + BitVec.ofNat 64 i) with
    | .ok t => t.line
    | _ => [])
  let s := s.writeBackMatrix c l base
  let used := pinAll s c.pins ((List.range (l.e 0 * w)).map (fun i => a + BitVec.ofNat 64 i))
  match s.readMoves c.pins c.hint c.core [] ((List.range (l.e 0 * w)).map (fun i => .at (a + BitVec.ofNat 64 i))) with
  | .fault e x => s.stopCmd c.id e x
  | .wait p v => s.cmdWaits c.id p v
  | .ok (bs, s) =>
    let s := (s.served (fun x => x == .cmd c.id)).modCmd c.id (fun d => { d with pins := used })
    let c := { c with pins := used }
    let s := match (lines s).head? with
      | some x => s.countChannel (channelOf (64 * x)) 8 1
      | none => s
    let vals := (List.range (l.e 0)).map (fun j => leNat (((bs.map (fun b => b.1)).drop (w * j)).take w))
    let at_ := out + BitVec.ofNat 64 (8 * n * row)
    s.putOut c (c.todo.filter (fun x => x != row)) c.pieces
      { idx := 16 * row, bytes := (rankOut f n vals).zipIdx.map (fun b => (LandDest.addr, at_ + BitVec.ofNat 64 b.2, b.1)), mem := c.wg, drop := 8 * n }

/-! ## TGEN -/

/-- Read the counts (R215): counts on another device arrive later. -/
def State.tgenFetch (s : State) (c : Cmd) (n : Nat) (counts : DWord) : State :=
  let used := pinAll s c.pins ((List.range (4 * n)).map (fun i => counts + BitVec.ofNat 64 i))
  match s.readMoves c.pins c.hint c.core [] ((List.range (4 * n)).map (fun i => .at (counts + BitVec.ofNat 64 i))) with
  | .fault e x => s.stopCmd c.id e x
  | .wait p v => s.cmdWaits c.id p v
  | .ok (bs, s) =>
    let s := s.served (fun x => x == .cmd c.id)
    let runs := (bs.zipIdx.foldl (fun rs (x : (Byte × Option (Target × DWord)) × Nat) => match x.1.2 with
      | some (t, a) => addRun rs x.2 t a
      | none => rs) ([] : List RemRun)).reverse
    let p : Piece := { idx := 0, bytes := bs.map (fun b => (LandDest.addr, 0, b.1)), mem := c.wg, drop := 64 }
    let s := s.modCmd c.id (fun x => { x with todo := [], pieces := [p], pins := used })
    let (ops, s) := s.fetchOps { c with pins := used } (runs.map (fun r => (0, r)))
    if ops = [] then s else s.issueGroup c.id ops

/-- One expert of TGEN: the running offset and counts, the record's words and the tile entries written (R215). -/
structure TgenAcc where
  off : Nat
  tiles : Nat
  ne : Nat
  big : Nat
  recs : List Byte
  entries : List Byte
  deriving DecidableEq, Repr

/-- Take in expert e with count ce. -/
def tgenStep (t cap : Nat) (a : TgenAcc) (e ce : Nat) : TgenAcc :=
  let te := (ce + t - 1) / t
  let room := min te (cap - a.tiles)
  { off := (a.off + ce) % 2 ^ 32
    tiles := a.tiles + te
    ne := a.ne + (if ce = 0 then 0 else 1)
    big := max a.big ce
    recs := a.recs ++ leBytes 4 ce ++ leBytes 4 a.off ++ leBytes 4 a.tiles ++ leBytes 4 te
    entries := a.entries ++ (List.range room).flatMap (fun i =>
      leBytes 2 e ++ leBytes 2 (min t (ce - i * t)) ++ leBytes 4 (a.off + i * t)) }

/-- Write the expert table, the tile list and the header (R215). -/
def State.tgenWrite (s : State) (c : Cmd) (bs : List Byte) (t n cap : Nat) (tab list : DWord) : State :=
  let a := (List.range n).foldl (fun a e => tgenStep t cap a e (leNat ((bs.drop (4 * e)).take 4)))
    { off := 0, tiles := 0, ne := 0, big := 0, recs := [], entries := [] }
  let head := leBytes 4 a.tiles ++ leBytes 4 a.ne ++ leBytes 4 a.big ++ leBytes 4 (if cap < a.tiles then 1 else 0)
  let put : DWord → List Byte → List (LandDest × DWord × Byte) := fun base bs => bs.zipIdx.map (fun b => (LandDest.addr, base + BitVec.ofNat 64 b.2, b.1))
  s.putOut c [] [] { idx := 16, bytes := put tab (head ++ a.recs) ++ put list a.entries, mem := c.wg, drop := 64 }

/-! ## The anvil -/

/-- The kind of an operation (R291, log 5). -/
def AOp.kind : AOp → AnvilKind
  | .mma _ _ _ _ _ _ _ _ => .array
  | .slotrd _ _ _ _ _ => .slot
  | _ => .accum

/-- A tile load from another device, or a tile store to one, comes after every earlier remote load, store and atomic of its warp (R202). -/
def State.opFenced (s : State) (a : AnvilOp) : Bool :=
  let after := fun (addr : DWord) => decide (addr.toNat / 2 ^ 63 ≠ 1) || (s.fencedAt a.warp a.wg a.id && !s.fencePending a.warp a.wg a.id)
  match a.op with
  | .accld addr _ _ => after addr
  | .accst addr _ _ => after addr
  | _ => true

/-- A queued operation may start (R217, R218, R291): its slot reads may proceed and its tile has no earlier unfinished operation. -/
def State.mayStart (s : State) (a : AnvilOp) : Bool :=
  let earlier := s.eng.anvil.takeWhile (fun x => x.id != a.id)
  match s.wgOf a.wg with
  | none => false
  | some g =>
    !a.started && !a.waitsCopy && s.opFenced a && !s.mgmt.fencedAnvil.getLsbD a.core &&
    (g.order.filter (fun x => a.reads.contains x.seq && !x.write)).all (fun x => readReady g.order x.seq x.slot) &&
    (a.op.kind == .slot || !(earlier.any (fun x => x.wg == a.wg && x.tile == a.tile && x.op.kind != .slot)))

/-- The addresses of a tile row's bytes. -/
def tileRow (a : DWord) (p m : Nat) : List DWord := (List.range 512).map (fun i => a + BitVec.ofNat 64 (m * p + i))

/-- Begin an operation; a tile load reads its rows (R221). -/
def State.startOp (s : State) (a : AnvilOp) : State :=
  let s := { s with eng := { s.eng with anvil := s.eng.anvil.map (fun (x : AnvilOp) => if x.id = a.id then { x with started := true } else x) } }
  match a.op with
  | .accld addr p k =>
    let c : Cmd := { newCmd s (.tileLoad a.id) k 0 [] (decide (addr.toNat / 2 ^ 63 = 1)) with epc := a.epc, pid := a.pid, inRegion := a.inRegion }
    let s := s.addCmd c
    (match s.readMoves c.pins 0 a.core [] ((List.range 128).flatMap (fun m => (tileRow addr p m).map (fun x => .at x))) with
     | .wait q v =>
       let s := { s with eng := { s.eng with cmds := s.eng.cmds.filter (fun d => d.id != c.id)
                                             anvil := s.eng.anvil.map (fun (x : AnvilOp) => if x.id = a.id then { x with started := false } else x) } }
       s.cmdWaits a.id q v
     | .fault e x =>
       -- nothing of the tile lands; the rest is abandoned with its count (R203)
       let s := { s with eng := { s.eng with cmds := s.eng.cmds.filter (fun d => d.id != c.id)
                                             anvil := s.eng.anvil.filter (fun x => x.id != a.id) } }
       (s.countDown a.warp k 65536 a.epc a.pid).post a.warp e a.epc x a.pid
     | .ok (bs, s) =>
       let s := s.served (fun x => x == .cmd a.id)
       let pieces := (List.range 128).map (fun m => ({ idx := 16 * m, bytes := ((bs.drop (512 * m)).take 512).map (fun b => (LandDest.addr, 0, b.1))
                                                       mem := a.wg, drop := 512 } : Piece))
       let runs := (List.range 128).flatMap (fun m =>
         (((bs.drop (512 * m)).take 512).zipIdx.foldl (fun rs (x : (Byte × Option (Target × DWord)) × Nat) => match x.1.2 with
           | some (t, y) => addRun rs x.2 t y
           | none => rs) ([] : List RemRun)).reverse.map (fun r => (m, r)))
       let s := s.modCmd c.id (fun d => { d with pieces := pieces })
       let (ops, s) := s.fetchOps c runs
       if ops = [] then s else s.issueGroup c.id ops)
  | _ => s

/-- The operation leaves the queue, its slot reads done. -/
def State.retireOp (s : State) (a : AnvilOp) : State :=
  let s := { s with eng := { s.eng with anvil := s.eng.anvil.filter (fun x => x.id != a.id) } }
  s.modWg a.wg (fun g => { g with order := g.order.filter (fun x => !(a.reads.contains x.seq && !x.write)) })

/-- A tile row as bytes. -/
def Wgroup.rowBytes (g : Wgroup) (t m : Nat) : List Byte := (List.range 128).flatMap (fun n => leBytes 4 (g.tiles.get (tileIdx t m n)).toNat)

/-- Give a register's lanes their values; the result stays uncertain until its entry is done (R82). -/
def State.giveLanes (s : State) (id : WarpId) (r : Nat) (xs : List (Nat × Word)) : State :=
  s.modWarp id (fun w => { w with v := w.v.setIfInBounds r (xs.foldl (fun v x => v.setIfInBounds x.1 x.2) (w.v.getD r (Vector.replicate 128 0))) })

/-- The sixteen words of contribution `i` of a tile (R299): piece i mod 8 of row ⌊i ÷ 8⌋. -/
def Wgroup.contribWords (g : Wgroup) (t i : Nat) : List Word := (List.range 16).map (fun j => g.tiles.get (tileIdx t (i / 8) (16 * (i % 8) + j)))

/-- Send a tile's contributions (R299); one that does not translate stops the rest (R203). -/
def State.sendContribs (s : State) (c : Cmd) (a : AnvilOp) (addr : DWord) (p : Nat) (i32 : Bool) (ord : Option (Nat × Nat)) : List Nat → State
  | [] => s.finishCmd c.id
  | i :: r =>
    let base := addr + BitVec.ofNat 64 (i / 8 * p + 64 * (i % 8))
    match resolve s { engAccess 2 with size := 64 } 0 base with
    | .ok (.loc l _) =>
      let ws := (s.wg.contribWords a.tile i).zipIdx.map (fun x => (l + 4 * x.2, base + BitVec.ofNat 64 (4 * x.2), x.1))
      let k : Contrib := { id := c.id, idx := i, words := ws, isI32 := i32, ord := ord, warp := a.warp, wg := a.wg, launch := s.wg.launch,
                           k := c.k, epc := a.epc, pid := a.pid, slice := sliceOf l, noRoom := false, held := false }
      ({ s with eng := { s.eng with contribs := s.eng.contribs ++ [k] } }).sendContribs c a addr p i32 ord r
    | .fault e =>
      let left := i :: r
      let s := s.modCmd c.id (fun d => { d with todo := d.todo.filter (fun x => !left.contains x), failed := some (lateCause e, base) })
      (((s.countDown c.warp c.k (64 * left.length) c.epc c.pid).post c.warp (lateCause e) c.epc base c.pid)).finishCmd c.id
    | _ =>
      let left := i :: r
      let s := s.modCmd c.id (fun d => { d with todo := d.todo.filter (fun x => !left.contains x), failed := some (0x0E8, base) })
      (((s.countDown c.warp c.k (64 * left.length) c.epc c.pid).post c.warp 0x0E8 c.epc base c.pid)).finishCmd c.id

/-- A page of a tile's reduction waits for an ownership transfer. -/
def contribWait (s : State) (addr : DWord) (p : Nat) : Option (Nat × Nat) :=
  (List.range 1024).findSome? (fun i => match resolve s { engAccess 2 with size := 64 } 0 (addr + BitVec.ofNat 64 (i / 8 * p + 64 * (i % 8))) with
    | .wait q v => some (q, v)
    | _ => none)

/-- An operation meets an uncorrectable error in a slot or in its tile, and stops: its register falls at once (R203, R278, e 4). -/
def State.spoilOp (s : State) (a : AnvilOp) (k : Option Nat) (n : Nat) : State :=
  let s := s.retireOp a
  let s := match k with
    | some k => s.countDown a.warp k n a.epc a.pid
    | none => s
  s.post a.warp 0x0D4 a.epc 0 a.pid

/-- Finish an operation (R218–R223). -/
def State.completeOp (s : State) (a : AnvilOp) : State :=
  match a.op with
  | .mma d z _ sg oa ob om k =>
    if s.wg.badSlots ((fslotOf d).reads oa ob om) || ((!z || a.step != 0) && s.wg.badTile a.tile) then s.spoilOp a k 64 else
    let s := (s.modWg a.wg (fun g => (if a.step = 0 then g.mmaTile d z sg oa ob om a.tile
      -- what a pre-emption left of it (R291)
      else g.mmaPart d z sg oa ob om a.tile a.step (granulesOf d sg)).cleanTile a.tile)).retireOp a
    (match k with
     | some k => s.countDown a.warp k 64 a.epc a.pid
     | none => s)
  | .accz => (s.modWg a.wg (fun g => (g.zeroTile a.tile).cleanTile a.tile)).retireOp a
  | .accld _ _ k =>
    (match s.eng.cmds.find? (fun c => match c.kind with
        | .tileLoad i => i == a.id
        | _ => false) with
     | none => s.retireOp a
     | some c =>
       if s.fab.ops.any (fun o => o.group == c.id && o.answered.isNone) then s
       else
         let s := c.pieces.foldl (fun s p => s.modWg a.wg (fun g => { g with tiles := (List.range 128).foldl (fun st n =>
             st.set (tileIdx a.tile (p.idx / 16) n) (BitVec.ofNat 32 (leNat (((p.bytes.map (fun b => b.2.2)).drop (4 * n)).take 4)))) g.tiles })) s
         let s := s.countDown a.warp k (512 * c.pieces.length) a.epc a.pid
         let s := if c.pieces.length = 128 then s.modWg a.wg (fun g => g.cleanTile a.tile) else s
         ((s.modCmd c.id (fun d => { d with pieces := [] })).retireOp a).finishCmd c.id)
  | .accst addr p k =>
    if s.wg.badTile a.tile then s.spoilOp a (some k) 65536 else
    -- an operation to another device has started after the fence before it (R202): its pieces stand under the operation's number
    let c : Cmd := { newCmd s .tile k 0 [] (decide (addr.toNat / 2 ^ 63 = 1)) with
      id := a.id, epc := a.epc, pid := a.pid, inRegion := a.inRegion
      pieces := (List.range 128).map (fun m => ({ idx := 16 * m, mem := a.wg, drop := 512
                                                  bytes := ((tileRow addr p m).zip (s.wg.rowBytes a.tile m)).map (fun b => (LandDest.addr, b.1, b.2)) } : Piece)) }
    (s.addCmd c).retireOp a
  | .accred addr p i32 ord k =>
    -- the ordered reductions of a cancelled launch are over (R300)
    if ord.isSome && s.sched.launches.any (fun l => l.key == s.wg.launch && l.cancelled) then (s.countDown a.warp k 65536 a.epc a.pid).retireOp a
    else if s.wg.badTile a.tile then s.spoilOp a (some k) 65536 else
    (match contribWait s addr p with
     | some (q, v) => s.cmdWaits a.id q v
     | none =>
       let s := s.served (fun x => x == .cmd a.id)
       let c : Cmd := { newCmd s .tile k 0 (List.range 1024) false with epc := a.epc, pid := a.pid }
       (((s.addCmd c).sendContribs c a addr p i32 ord (List.range 1024))).retireOp a)
  | .accrd d row rows mask _ =>
    -- the lanes that meet an error receive 0 (R278, e 0)
    let at_ := fun (j l : Nat) => tileIdx a.tile ((row + j) % 128) l
    let err := fun (j l : Nat) => s.wg.bad.contains (2 ^ 41 + at_ j l / 16)
    let t := (List.range rows).foldl (fun s j =>
      s.giveLanes a.warp (d + j) ((Mask.lanes mask).map (fun l => (l, if err j l then 0 else s.wg.tiles.get (at_ j l))))) s
    let t := t.retireOp a
    if (List.range rows).any (fun j => (Mask.lanes mask).any (err j)) then t.post a.warp 0x0D0 a.epc 0 a.pid else t
  | .slotrd side o off dsts _ =>
    let err := fun (l : Nat) => s.wg.bad.contains (2 ^ 40 + (slotAt side o off + 4 * l) / 64)
    let t := dsts.foldl (fun s x =>
      let bs := if err x.1 then [0, 0, 0, 0] else Store.getN s.wg.slots (slotAt side o off + 4 * x.1) 4
      s.deliver { newOp s 0 (slotTag a.id) 0 0 0 false (.read 4) 0 x.2 0 with warp := a.warp, wg := a.wg } bs) s
    let t := t.retireOp a
    if dsts.any (fun x => err x.1) then t.post a.warp 0x0D0 a.epc 0 a.pid else t

/-! ## The near-L2 adders -/

/-- Contribution lines held by a home slice (R300). -/
def State.heldLines (s : State) (slice : Nat) : Nat := (s.eng.contribs.filter (fun c => c.held && c.slice == slice)).length

/-- The line of a contribution. -/
def Contrib.line (c : Contrib) : Nat := (c.words.head?.map (fun w => w.1 / 64)).getD 0

/-- Add one contribution's words to memory (R36): a word with a frozen byte is refused (R189, R222). The lowest refused address. -/
def State.addWords (s : State) (core : Nat) (i32 : Bool) : List (Nat × DWord × Word) → State × Option (DWord × Nat)
  | [] => (s, none)
  | (l, a, x) :: r =>
    if s.mem.frozenN l 4 then
      let (s, y) := s.addWords core i32 r
      (s, some (match y with
        | some z => if a < z.1 then (a, l) else z
        | none => (a, l)))
    else
      let w := leNat (s.readLoc l 4)
      let v := if i32 then (w + x.toNat) % 2 ^ 32 else fAdd .f32 .rn false w x.toNat
      ((s.homeWrite none l 0 0 (leBytes 4 v)).dropL1 core (l / 64)).addWords core i32 r

/-- A contribution is done with: its register falls and it leaves its command (R222). -/
def State.dropContrib (s : State) (c : Contrib) (refused : Option DWord) : State :=
  let s := { s with eng := { s.eng with contribs := s.eng.contribs.filter (fun x => !(x.id == c.id && x.idx == c.idx)) } }
  match s.eng.cmds.find? (fun d => d.id == c.id) with
  | none => s
  | some d =>
    let s := s.countOwned c.warp c.wg c.k 64 c.epc c.pid
    ((s.modCmd d.id (fun d => { d with
      todo := d.todo.filter (fun i => i != c.idx)
      refused := match refused with
        | some a => lowerOf d.refused a
        | none => d.refused }))).finishCmd d.id

/-- Perform one contribution: an uncorrectable error in the line leaves it out (R278). -/
def State.performContrib (s : State) (c : Contrib) : State :=
  match s.memError 4 (.loc (64 * c.line) 0) with
  | some e => (s.postOwned c.warp c.wg e c.epc ((c.words.head?.map (fun (w : Nat × DWord × Word) => w.2.1)).getD 0) c.pid).dropContrib c none
  | none =>
    let (s, r) := s.addWords c.warp.core c.isI32 c.words
    let s := match r, s.eng.cmds.find? (fun d => d.id == c.id) with
      | some (a, l), some d => s.logRefusedAt l a d
      | _, _ => s
    s.dropContrib c (r.map (fun x => x.1))

/-- A contribution reaches its slice (R222, R300). -/
def State.contribArrive (s : State) (c : Contrib) : State :=
  match c.ord with
  | none => s.performContrib c
  | some (i, n) =>
    let mates := s.eng.contribs.filter (fun x => x.held && x.line == c.line)
    if mates.any (fun x => match x.ord with
        | some (j, m) => j == i || m != n
        | none => false) then
      -- a repeated index or another count: discarded, reported once for its instruction
      let s := match s.eng.cmds.find? (fun d => d.id == c.id) with
        | some d =>
          if d.dup then s
          else
            let a := (c.words.head?.map (fun (w : Nat × DWord × Word) => w.2.1)).getD 0
            (s.modCmd d.id (fun d => { d with dup := true })).postOwned c.warp c.wg 0x0EA c.epc a c.pid
        | none => s
      s.dropContrib c none
    else if 16384 ≤ s.heldLines c.slice then
      { s with eng := { s.eng with contribs := s.eng.contribs.map (fun x => if x.id = c.id ∧ x.idx = c.idx then { x with noRoom := true } else x) } }
    else
      let s := { s with eng := { s.eng with contribs := s.eng.contribs.map (fun x =>
        if x.id = c.id ∧ x.idx = c.idx then { x with held := true, noRoom := false } else x) } }
      let all := s.eng.contribs.filter (fun x => x.held && x.line == c.line)
      if all.length < n then s
      else
        -- every index has arrived: added in index order
        (List.range n).foldl (fun s j => match all.find? (fun x => x.ord == some (j, n)) with
          | some x => s.performContrib x
          | none => s) s

/-- ENGINE_WRITE_LANDS (R201): a fetched piece lands where nothing holds it. -/
def execEngineWriteLands (id : Nat) (blk : Nat) (s : State) : Host.Outcome State Fault Refusal :=
  onCmd s id (fun t c => match c.kind with
    | .tileLoad _ => t
    | .tgen _ _ _ _ _ _ => (match c.pieces.find? (fun p => p.idx == blk) with
      | some p => if p.idx / 16 = 0 then t else t.landOne c p
      | none => t)
    | .push _ => t
    | .rowcpy _ _ _ _ => t
    | .rowzero _ _ => t
    | _ => (match c.pieces.find? (fun p => p.idx == blk) with
      | some p => t.landOne c p
      | none => t))

/-- COPY_BLOCK_FETCH (R296). -/
def execCopyBlockFetch (id : Nat) (blk : Nat) (s : State) : Host.Outcome State Fault Refusal :=
  onCmd s id (fun t c => if canFetch t c blk then t.fetchBlock c blk else t)

/-- COPY_LATE_FAULT (R203): fetching this block finds a translation failure, which stops the command. -/
def execCopyLateFault (id : Nat) (blk : Nat) (s : State) : Host.Outcome State Fault Refusal :=
  onCmd s id (fun t c =>
    if !canFetch t c blk then t
    else match t.readMoves c.pins c.hint c.core [] ((c.moves c.wg blk).map (fun m => if m.2.isNone then ByteSrc.val 0 else m.1)) with
      | .fault cause a => t.stopCmd c.id cause a
      | _ => t)

/-- FOLLOW_ON_HANDOFF (R209, R298): the last byte has landed and the anvil queue has room. -/
def execFollowOnHandoff (id : Nat) (s : State) : Host.Outcome State Fault Refusal :=
  onCmd s id (fun t c => match c.follow with
    | none => t
    | some i =>
      if !t.cmdIdle c || decide (16 ≤ t.anvilCount c.core) then t
      else { t with eng := { t.eng with
        anvil := t.eng.anvil.map (fun a => if a.id = i then { a with waitsCopy := false } else a)
        cmds := t.eng.cmds.filter (fun d => d.id != id) } })

/-- The granules of a block that may be written now: each where its channel carries out no other operation first (R321, R327). -/
def State.freeGranules (s : State) (c : Cmd) (dst : List Nat) (blk : Nat) : List Nat :=
  (List.range 4).filter (fun i => !c.wrote blk i && !s.channelBusy c (channelOf (dst.getD (4 * blk + i) 0)))

/-- ROW_BLOCK_WRITTEN (R212, R327). -/
def execRowBlockWritten (id : Nat) (blk : Nat) (s : State) : Host.Outcome State Fault Refusal :=
  onCmd s id (fun t c =>
    let put := fun (src dst : List Nat) (a b : DWord) =>
      let now := t.freeGranules c dst blk
      if now = [] then t else t.writeRowBlock c blk now src dst a b
    if !c.todo.contains blk then t
    else match c.kind with
      | .rowcpy src dst a b => if c.wroteBack then put src dst a b else t
      | .rowzero dst b => put [] dst 0 b
      | _ => t)

/-- ROW_SOURCE_WRITEBACK (R328): every dirty line of the source range, once. The operation then stands behind those that have reached their
channels before. -/
def execRowSourceWriteback (id : Nat) (s : State) : Host.Outcome State Fault Refusal :=
  onCmd s id (fun t c => match c.kind with
    | .rowcpy src _ _ _ =>
      if c.wroteBack then t
      else
        let u := t.writeBackAll src
        { u with eng := { u.eng with cmds := u.eng.cmds.filter (fun d => d.id != id) ++ [{ c with wroteBack := true }] } }
    | _ => t)

/-- RANK_ROW_WRITTEN (R213, R329). -/
def execRankRowWritten (id : Nat) (row : Nat) (s : State) : Host.Outcome State Fault Refusal :=
  onCmd s id (fun t c => match c.kind with
    | .rank kind n r base out => if c.todo.contains row && t.fenced c then t.rankRow c row kind n r base out else t
    | _ => t)

/-- TGEN_DONE (R215): the counts are read, then the three outputs are written. -/
def execTgenDone (id : Nat) (s : State) : Host.Outcome State Fault Refusal :=
  onCmd s id (fun t c => match c.kind with
    | .tgen h n cap counts tab list =>
      if !t.fenced c then t
      else if c.todo ≠ [] then t.tgenFetch c n counts
      else match c.pieces with
        | [p] => if p.idx = 0 && !t.pieceWaits c p then t.tgenWrite c (p.bytes.map (fun b => b.2.2)) h n cap tab list else t
        | _ => t
    | _ => t)

/-- ANVIL_OP_START (R291): the earliest queued operation of a kind that may start. -/
def execAnvilOpStart (core : Nat) (kind : AnvilKind) (s : State) : Host.Outcome State Fault Refusal :=
  if s.eng.anvil.any (fun a => a.core == core && a.started && a.op.kind == kind) then .next s
  else match s.eng.anvil.find? (fun a => a.core == core && a.op.kind == kind && s.mayStart a) with
    | none => .next s
    | some a =>
      let back := s.cur.id
      .next (((s.focusOn a.warp).focusWg a.wg).startOp a |>.focusOn back)

/-- ANVIL_OP_COMPLETE (R291). -/
def execAnvilOpComplete (id : Nat) (s : State) : Host.Outcome State Fault Refusal :=
  match s.eng.anvil.find? (fun a => a.id == id && a.started) with
  | none => .next s
  | some a =>
    let back := s.cur.id
    .next ((((s.focusOn a.warp).focusWg a.wg).completeOp a).focusOn back)

/-- ACCRED_CONTRIBUTION_ARRIVE (R36, R222, R299, R300). -/
def execAccredContributionArrive (id : Nat) (piece : Nat) (s : State) : Host.Outcome State Fault Refusal :=
  match s.eng.contribs.find? (fun c => c.id == id && c.idx == piece && !c.held && !c.noRoom) with
  | none => .next s
  | some c => .next (s.contribArrive c)

/-- ACCRED_ROOM_FREED (R300): a contribution that waited at its sender is taken. -/
def execAccredRoomFreed (id : Nat) (piece : Nat) (s : State) : Host.Outcome State Fault Refusal :=
  match s.eng.contribs.find? (fun c => c.id == id && c.idx == piece && c.noRoom) with
  | none => .next s
  -- what waits in the context of a saved workgroup waits until it is restored (R416)
  | some c => if s.heldLines c.slice < 16384 ∧ !s.isSaved c.wg then .next (s.contribArrive c) else .next s

end Sys2Proof.Machine
end

