-- ==== Sys2Proof/Machine/Launches.lean ====
section
/-! DEFINITION. Launch records and their completion: field reads (R230), the control cluster's accesses to a partition's memory,
completion counters (R411), successor counters and the records they ready (R409, R412), and cancellation at each level (R413). -/
namespace Sys2Proof.Machine

/-- A field of a launch record (R230). -/
def Rec.f (r : Rec) (off len : Nat) : Nat := recField r.bytes off len
/-- LID, GID, PID, JID for LV 2–5 (R158, R230). -/
def Rec.ident (r : Rec) (lv : Level) : Nat :=
  match lv with
  | .graph => r.f 136 8
  | .phase => r.f 144 8
  | .job => r.f 152 8
  | _ => r.f 128 8

/-- The machine as the control cluster sees a partition's memory. -/
def State.ctlView (s : State) (part : Nat) : State :=
  { s with cur := Warp.blank, wg := { Wgroup.blank with part := part } }

/-- Targets of n bytes in window 0x00 of a partition: `kind` 0 read, 1 write, 2 an indivisible update of one word, which is
naturally aligned; `none` where a check fails. -/
def State.ctlTargets (s : State) (part kind : Nat) (a : DWord) (n : Nat) : Option (List Target) :=
  if kind = 2 ∧ a.toNat % n ≠ 0 then none else
  match window a with
  | .glob _ => (match engTargets (s.ctlView part) kind a n with
    | .ok ts => if ts.any (fun t => (s.memError 0 t).isSome) then none else some ts
    | _ => none)
  | _ => none

/-- The log of a walk of the control cluster's that met a poisoned table line (R267, R278). -/
def State.ctlLog (s : State) (part kind : Nat) (a : DWord) (n : Nat) : State :=
  match engTargets (s.ctlView part) kind a n with
  | .fault c b => if isWalkError c then s.logTable part 255 255 0 b (s.walked 0 part b) else s
  | _ => s

/-- The transfer that an access of the control cluster has to wait for (R364, R365). -/
def State.ctlBlocked (s : State) (part kind : Nat) (a : DWord) (n : Nat) : Option (Nat × Nat) :=
  match window a with
  | .glob _ => (match engTargets (s.ctlView part) kind a n with
    | .wait p va => some (p, va)
    | _ => none)
  | _ => none

/-- Read n bytes of a partition's memory. -/
def State.ctlRead (s : State) (part : Nat) (a : DWord) (n : Nat) : Option (List Byte × State) :=
  (s.ctlTargets part 0 a n).map (fun ts => s.engBytes 0 0 [] ts)

/-- Read n bytes of a partition's memory, or say with a cause that they cannot be read, or that the read has to wait. -/
def State.ctlGet (s : State) (part cause : Nat) (a : DWord) (n : Nat) : EngRes (List Byte × State) :=
  match s.ctlBlocked part 0 a n with
  | some (p, va) => .wait p va
  | none => match s.ctlRead part a n with
    | some x => .ok x
    | none => .fault cause a

/-- Write bytes at targets, those of each location together where they are consecutive. -/
def State.writeTargets (s : State) : List Target → List Byte → State
  | t :: ts, b :: bs => (s.engWrite 0 t b).writeTargets ts bs
  | _, _ => s

/-- The bytes of frozen targets are refused (R189). -/
def State.anyFrozen (s : State) (ts : List Target) : Bool := ts.any s.frozenAt

/-- A word written at consecutive local locations in one step: memory changes once (R176, R411). -/
def State.writeWord (s : State) (ts : List Target) (bs : List Byte) : State :=
  match ts.head? with
  | some (.loc l m) => s.homeWrite none l m 0 bs
  | some (.spad wg off) => s.modWg wg (fun g => { g with spad := Store.setN g.spad off bs })
  | _ => s

/-- Count a unit into a completion counter (R411); address 0 means none; a failed write is logged with 0x17B. -/
def State.countInto (s : State) (part : Nat) (a cause : Nat) (cancelled : Bool) : State :=
  if a = 0 then s else
  let addr := BitVec.ofNat 64 a
  match s.ctlTargets part 2 addr 8 with
  | none => (s.ctlLog part 2 addr 8).event 0 0x17B part 255 255 0 addr
  | some ts =>
    if s.anyFrozen ts then s.event 0 0x17B part 255 255 0 addr else
    let (bs, s) := s.engBytes 0 0 [] ts
    let w := leNat bs
    let c := if cause ≠ 0 ∧ bits w 40 32 = 0 then cause else bits w 40 32
    let canc := if cancelled then 1 else bits w 41 41
    s.writeWord ts (leBytes 8 (bits w 63 42 * 2 ^ 42 + canc * 2 ^ 41 + c * 2 ^ 32 + (w + 1) % 2 ^ 32))

/-- Decrement a successor's join counter (R412): a word at 0 is left and logged with 0x179; records that a cancelled
decrement readies carry its cause. -/
def State.decrJoin (s : State) (part : Nat) (addr : DWord) (cancelled : Option Nat) : State :=
  match s.ctlTargets part 2 addr 4 with
  | none => (s.ctlLog part 2 addr 4).event 0 0x17A part 255 255 0 addr
  | some ts =>
    if s.anyFrozen ts then s.event 0 0x17A part 255 255 0 addr else
    let (bs, s) := s.engBytes 0 0 [] ts
    let w := leNat bs
    if w = 0 then s.event 0 0x179 part 255 255 0 addr
    else
      let before := s.sched.pool.filter (fun p => p.ready)
      let s := s.writeWord ts (leBytes 4 (w - 1))
      match cancelled with
      | none => s
      | some c => { s with sched := { s.sched with pool := s.sched.pool.zipIdx.map (fun (p : Parked × Nat) =>
          if p.1.ready && decide (before.length ≤ p.2) && p.1.cancelled.isNone then { p.1 with cancelled := some c } else p.1) } }

/-- The partition of a queue (R406). -/
def State.queuePart (s : State) (q : Nat) : Nat := (s.mgmt.queues.getD q QReg.blank).part

/-- Push a record into a queue (R406): `none` where the queue is not open to the partition, `false` where it is full. -/
def State.pushRec (s : State) (q part : Nat) (r : Rec) : Option (Bool × State) :=
  let g := s.mgmt.queues.getD q QReg.blank
  if !g.isOpen || g.part != part then none
  else
    let held := ((s.sched.queues.find? (fun x => x.1 == q)).map (·.2)).getD []
    -- a launch of which nothing is placed still is the record at the front (R410)
    let front := (s.sched.launches.filter (fun l => l.queue == q && !l.cancelled && l.started.isNone && !l.pooled)).length
    if 2 ^ g.depth ≤ front + held.length then some (false, s)
    else some (true, { s with sched := { s.sched with
      queues := (q, held ++ [r]) :: s.sched.queues.filter (fun x => x.1 != q) } })

/-- The driver's record, read and pushed (R406, R423): the full status says whether the queue held its depth; a record that cannot be read,
or a queue closed meanwhile, is a limit breach. -/
def State.pushRead (s : State) (q : Nat) (addr : DWord) : State :=
  let p := s.queuePart q
  let err := fun (s : State) => { s with mgmt := { s.mgmt with err := true } }
  match s.ctlRead p addr 256 with
  | none => err (s.ctlLog p 0 addr 256)
  | some (bs, s) => match s.pushRec q p { bytes := bs, addr := addr } with
    | none => err s
    | some (ok, s) => { s with mgmt := { s.mgmt with
        queues := s.mgmt.queues.setIfInBounds q { s.mgmt.queues.getD q QReg.blank with full := !ok } } }

/-- The transfer that an access of the control cluster waits for. -/
def CtlOp.blocked (s : State) : CtlOp → Option (Nat × Nat)
  | .count part a _ _ => if a = 0 ∨ a % 8 ≠ 0 then none else s.ctlBlocked part 2 (BitVec.ofNat 64 a) 8
  | .entry part a _ => s.ctlBlocked part 0 a 8
  | .join part a _ => if a.toNat % 4 ≠ 0 then none else s.ctlBlocked part 2 a 4
  | .push q a => s.ctlBlocked (s.queuePart q) 0 a 256

/-- Make one access: the accesses that follow from it, and the state. An entry of a successor list that cannot be read is logged (R412). -/
def State.doCtl (s : State) : CtlOp → List CtlOp × State
  | .count part a cause cancelled => ([], s.countInto part a cause cancelled)
  | .entry part a cancelled => (match s.ctlRead part a 8 with
    | none => ([], (s.ctlLog part 0 a 8).event 0 0x17A part 255 255 0 a)
    | some (bs, s) => ([.join part (BitVec.ofNat 64 (leNat bs)) cancelled], s))
  | .join part a cancelled => ([], s.decrJoin part a cancelled)
  | .push q a => ([], s.pushRead q a)

/-- Make accesses in order until one has to wait, whose transfer starts (R364): what is left, and the state. -/
def State.runCtl (s : State) : Nat → List CtlOp → List CtlOp × State
  | 0, g => (g, s)
  | _, [] => ([], s)
  | n + 1, o :: r => match o.blocked s with
    | some (p, va) => (o :: r, s.wantOwner p va)
    | none =>
      let (more, s) := s.doCtl o
      s.runCtl n (more ++ r)

/-- The control cluster makes accesses in order; what has to wait is kept. -/
def State.control (s : State) (os : List CtlOp) : State :=
  let (left, s) := s.runCtl (2 * os.length) os
  if left = [] then s else { s with sched := { s.sched with ctl := s.sched.ctl ++ [left] } }

/-- The successors of a record, in list order (R412). -/
def successors (part : Nat) (r : Rec) (cancelled : Option Nat) : List CtlOp :=
  (List.range (r.f 116 4)).map (fun i => .entry part (BitVec.ofNat 64 (r.f 120 8) + BitVec.ofNat 64 (8 * i)) cancelled)

/-- A launch, or a record that never ran, completes: LCC, GCC, PCC, JCC, then its successors (R411, R412). -/
def State.completeRec (s : State) (part : Nat) (r : Rec) (cause : Nat) (cancelled : Bool) : State :=
  let big := decide (256 < r.f 116 4)
  let s := s.control ([168, 176, 184, 192].map (fun off => CtlOp.count part (r.f off 8) cause cancelled) ++
    (if big then [] else successors part r (if cancelled then some cause else none)))
  if big then s.event 0 0x17A part 255 255 0 (BitVec.ofNat 64 (r.f 120 8)) else s

/-- Records readied by a cancelled decrement complete at once as cancelled, one after another (R412). -/
def State.settlePool (s : State) : Nat → State
  | 0 => s
  | n + 1 =>
    match s.sched.pool.find? (fun p => p.ready && p.cancelled.isSome) with
    | none => s
    | some p =>
      let part := (s.mgmt.queues.getD p.queue QReg.blank).part
      let s := { s with sched := { s.sched with pool := s.sched.pool.erase p } }
      (s.completeRec part p.record (p.cancelled.getD 0) true).settlePool n

/-- The accesses that waited are made once their transfers are over (R365), those of each record in order. -/
def State.retryCtl (s : State) : State :=
  if s.sched.ctl = [] then s
  else
    let gs := s.sched.ctl
    let s := gs.foldl (fun (s : State) g => s.control g) { s with sched := { s.sched with ctl := [] } }
    s.settlePool s.sched.pool.length

/-- Complete a record and everything its cancellation readies. -/
def State.finishRec (s : State) (part : Nat) (r : Rec) (cause : Nat) (cancelled : Bool) : State :=
  let s := s.completeRec part r cause cancelled
  s.settlePool s.sched.pool.length

/-- A rejected or cancelled record is logged and completed (R8, R283, R411). -/
def State.cancelRec (s : State) (part : Nat) (r : Rec) (cause : Nat) : State :=
  (s.event 2 cause part 255 255 0 0).finishRec part r cause true

/-- Remove the held records of a partition that match, from queues and pool; the removed records, each with its partition. -/
def State.takeRecs (s : State) (part : Nat) (m : Rec → Bool) : List Rec × State :=
  let hit := fun (q : Nat × List Rec) => s.queuePart q.1 == part
  let rs := (s.sched.queues.filter hit).flatMap (fun q => q.2.filter m)
  let ps := (s.sched.pool.filter (fun p => s.queuePart p.queue == part && m p.record)).map (·.record)
  (rs ++ ps, { s with sched := { s.sched with
    queues := s.sched.queues.map (fun (q : Nat × List Rec) => if hit q then (q.1, q.2.filter (fun r => !m r)) else q)
    pool := s.sched.pool.filter (fun p => !(s.queuePart p.queue == part && m p.record)) } })

/-- Cancel every launch and held record of a partition whose identifier matches (R413, LV 2–5). -/
def State.cancelIdent (s : State) (part : Nat) (lv : Level) (id cause : Nat) : State :=
  let keys := (s.sched.launches.filter (fun l => l.part == part && l.record.ident lv == id && !l.cancelled)).map (·.key)
  let (rs, s) := s.takeRecs part (fun r => r.ident lv == id)
  let s := keys.foldl (fun s k => (s.cancelLaunch k cause).event 2 cause part 255 255 0 0) s
  rs.foldl (fun s r => s.cancelRec part r cause) s

/-- Cancel the issuer's gang (R413, LV 1). -/
def State.cancelGang (s : State) (launch gang : Nat) : State :=
  ((s.allWgs.filter (fun g => g.launch == launch && g.gang == gang)).map (·.key)).foldl (fun s k => s.cancelWg k) s

/-- Cancel the issuer's own unit at a level (R158, R413). -/
def State.cancelOwn (s : State) (lv : Level) : State :=
  let s := s.warpEvent 2 0 s.pc 0
  match lv with
  | .wgrp => s.cancelWg s.wg.key
  | .gang => s.cancelGang s.wg.launch s.wg.gang
  | .launch => s.cancelLaunch s.wg.launch 0
  | lv => match s.sched.launches.find? (fun l => l.key == s.wg.launch) with
    | some l => s.cancelIdent s.wg.part lv (l.record.ident lv) 0
    | none => s.cancelLaunch s.wg.launch 0

end Sys2Proof.Machine
end

