-- ==== Sys2Proof/Machine/Freeze.lean ====
section
/-! DEFINITION. Freezing: FRZ, THAW and FRZQ (R186–R188), the physical ranges of an entry, generation retirement (R356). -/
namespace Sys2Proof.Machine

/-- Join a range to the ranges before it where they are adjacent. -/
def joinRange (x : Nat × Nat) : List (Nat × Nat) → List (Nat × Nat)
  | [] => [x]
  | y :: r => if x.1 + x.2 = y.1 then (x.1, x.2 + y.2) :: r else x :: y :: r

/-- Translate the pages of a range, from the first on (R186): the physical ranges, or the first failing page with its
cause. A granule of 256 bytes lies at consecutive locations under every channel hash (R324, R330). -/
def freezeRanges (s : State) (sc part va : Nat) : Nat → EngRes (List (Nat × Nat))
  | 0 => .ok []
  | n + 1 =>
    match translate s part va with
    | .error f => .fault (0x098 + f) (BitVec.ofNat 64 va)
    | .ok l =>
      if bits l.w 2 2 = 0 then .fault 0x099 (BitVec.ofNat 64 va)
      -- a host-shared page is refused, whoever owns it
      else if l.own ≠ 0 then .fault (0x148 + 8 * (sc - 2) + 4) (BitVec.ofNat 64 va)
      else match translatePerm s part 3 ⟨true, false, false⟩ va, freezeRanges s sc part (va + 4096) n with
        | .fault c, _ => .fault c (BitVec.ofNat 64 va)
        | .wait p v, _ => .wait p v
        | .ok _, .ok r => .ok ((List.range 16).foldr (fun i acc => joinRange (l.loc (va + 256 * i), 256) acc) r)
        | .ok _, e => e

/-- The partition and virtual address of a range homed on this device, or its cause (R186, R252). DESIGN CHOICE (log 88): a rank form that names
this device is translated by its region's partition (R252, R420), where R186 says the issuing partition's tables. -/
def freezeBase (s : State) (a : DWord) (len : Nat) : Except Nat (Nat × Nat) :=
  match window a with
  | .glob va => if 2 ^ 56 < va + len then .error 0x147 else .ok (s.wg.part, va)
  | .rank r g off =>
    if r ≠ s.mgmt.selfRank then .error 0x147
    else
    (match rankWalk s 3 r g with
     | .self =>
       let reg := s.mgmt.regions.getD g { base := 0, len := 0, part := 0, valid := false }
       if !reg.valid || reg.len < off + len then .error 0x0BA else .ok (reg.part, reg.base.toNat + off)
     | .fault c => .error c
     | _ => .error 0x147)
  | _ => .error 0x147

/-- The job of a workgroup: the JOB field of its launch's record (R158, R187). -/
def Wgroup.job (g : Wgroup) (s : State) : Nat :=
  ((s.sched.launches.find? (fun l => l.key == g.launch)).map (fun l => l.record.ident .job)).getD 0

/-- FRZ (R186, R277). -/
def freeze (s : State) (h : Hdr) (sc k : Nat) (d : Opd) (base len : DWord) : Eff :=
  if base.toNat % 4096 ≠ 0 ∨ len = 0 ∨ len.toNat % 4096 ≠ 0 then .trap 0x143 0
  else if (s.part s.wg.part).frzMax + 2 < sc then .trap (0x148 + 8 * (sc - 2) + 5) 0
  else match freezeBase s base len.toNat with
    | .error c => .trap c base
    | .ok (part, va) =>
      match freezeRanges s sc part va (len.toNat / 4096) with
      | .fault c a => .trap c (if c % 8 = 4 ∧ 0x148 ≤ c then 0 else base + (a - BitVec.ofNat 64 va))
      | .wait p v => holdFor s p v
      | .ok rs =>
        match s.countUp k 64 with
        | none => .trap 0x028 0
        | some t =>
          match s.mem.frz.toList.findIdx? (fun e => e.state == .free) with
          | none => .trap 0x144 0
          | some i =>
            let e := s.mem.frz.getD i FrzEntry.blank
            let e := { e with state := .pending, sc := sc, part := s.wg.part, job := s.wg.job s, ranges := rs, owner := some (s.cur.id, s.wg.key, k) }
            let t := { t with mem := { t.mem with frz := t.mem.frz.setIfInBounds i e } }
            -- an FRZ is a release (R341)
            .ok ((t.putUni d 1 (BitVec.ofNat 64 (i + 64 * e.gen.toNat)) (varLat h)).implicitFence sc t.eng.nextId)

/-- The ranks of a scope: those the rank table lists with a device in service, this device included (R357). -/
def State.scopeRanks (s : State) (sc : Nat) : List Nat :=
  let me := s.mgmt.selfRank
  if sc = 2 then [me]
  else
    let self := (rankEntry s me).getD 0
    me :: (List.range s.mgmt.nRank).filter (fun r => r != me && (match rankEntry s r with
      | some e => decide (bits e 1 1 = 1) && (decide (sc = 4) || decide (bits e 11 2 = bits self 11 2))
      | none => false))

/-- Send an entry's retirement to every other device of its scope (R187, R385). -/
def State.sendRetire (s : State) (i : Nat) (e : FrzEntry) : State :=
  (s.scopeRanks e.sc).foldl (fun s r =>
    if r = s.mgmt.selfRank then s
    else match rankEntry s r with
      | none => s
      | some w =>
        let self := (rankEntry s s.mgmt.selfRank).getD 0
        let m := Txn.retire s.mgmt.selfRank i e.gen.toNat e.sc
        if bits w 11 2 = bits self 11 2 then
          (s.toPeer (bits w 19 12) m).getD s
        else { s with logs := { s.logs with out := s.logs.out ++ [.retire r i e.gen.toNat e.sc] } }) s

/-- THAW (R187). -/
def thawEntry (s : State) (k hdl : Nat) : Eff :=
  let i := hdl % 64
  let e := s.mem.frz.getD i FrzEntry.blank
  if e.state ≠ .free ∧ (e.part ≠ s.wg.part ∨ e.job ≠ s.wg.job s) then .trap 0x145 0
  else match e.state with
    | .pending => .hold s
    | .free => .trap 0x146 0
    | .thawing => .trap 0x146 0
    | .installed =>
      if e.gen.toNat ≠ hdl / 64 then .trap 0x146 0
      else
        match s.countUp k (64 * (s.scopeRanks e.sc).length) with
        | none => .trap 0x028 0
        | some s =>
          let e := { e with state := .thawing, owner := some (s.cur.id, s.wg.key, k), acks := s.scopeRanks e.sc, since := s.clk, overdue := false }
          .ok ({ s with mem := { s.mem with frz := s.mem.frz.setIfInBounds i e } }.sendRetire i e)

/-- The state of a byte as FRZQ reports it (R188): the low and the high word. -/
def MemSys.frzState (m : MemSys) (loc : Nat) : DWord :=
  let cov := (List.range 64).filterMap (fun i =>
    let e := m.frz.getD i FrzEntry.blank
    if e.active && e.covers loc then some (i, e) else none)
  match cov.head? with
  | none => 0
  | some (i, e) =>
    let widest := cov.foldl (fun n p => max n p.2.sc) 0
    let thawing := cov.any (fun p => p.2.state == .thawing)
    BitVec.ofNat 64 ((1 + 2 * widest + (if thawing then 16 else 0) + 256 * cov.length) + 2 ^ 32 * (i + 64 * e.gen.toNat))

/-- The access of FRZQ (R188). -/
def frzqAccess : Access :=
  { kind := 3, perm := ⟨true, false, false⟩, space := .glob, size := 1, align := 1, atomic := none, fe := false,
    hflush := false, engine := false }

/-- FRZQ (R188). -/
def freezeQuery (s : State) (h : Hdr) (d : Opd) (a : DWord) : Eff :=
  match resolve s frzqAccess 0 a with
  | .fault c => .trap c a
  | .wait p va => holdFor s p va
  | .ok (.loc l _) => .ok (s.putUni d 2 (s.mem.frzState l) (varLat h))
  | .ok (.split l _ _) => .ok (s.putUni d 2 (s.mem.frzState l) (varLat h))
  | .ok (.spad _ _) => .ok s
  | .ok (.remote r g o job) =>
    match d with
    | .s n =>
      let (tag, s) := s.takeTag
      let s := s.putUni d 2 (s.cur.s.getD (n + 1) 0 ++ s.cur.s.getD n 0) (varLat h)
      .ok (s.issueOps [newOp s h.sb tag r g o job .frzq 5 (.uni n 2) a])
    | _ => .ok s

/-- Drop every copy tagged with an entry's generation of a home (R356). -/
def State.retireCopies (s : State) (home e gen : Nat) : State :=
  { s with mem := { s.mem with copies := s.mem.copies.filter (fun c => match c.tag with
      | some (r, t) => !(r == home && t.entry == e && t.gen == gen)
      | none => true) } }

/-- Some entry is installed or still thawing. -/
def MemSys.anyFrozen (m : MemSys) : Bool := m.frz.toList.any FrzEntry.active

/-- An acknowledgement of a retirement by the device of a rank arrives: the count register falls by 64, and with the last one the entry is removed
and its generation rises first (R187); a warm reset that waited for it goes on (R428). -/
def State.ackRetire (s : State) (i rank : Nat) : State :=
  let e := s.mem.frz.getD i FrzEntry.blank
  if e.state ≠ .thawing ∨ !e.acks.contains rank then s
  else
    let left := e.acks.erase rank
    let e' : FrzEntry := if left = [] then { FrzEntry.blank with gen := e.gen + 1 } else { e with acks := left }
    let s := { s with mem := { s.mem with frz := s.mem.frz.setIfInBounds i e' } }
    let s := if s.mgmt.warm.isSome && !s.mem.anyFrozen then { s with agenda := .warmResetRetirementTimeout :: s.agenda } else s
    match e.owner with
    | some (id, wg, k) => s.countOwned id wg k 64 0 0
    | none => s

/-- Begin the retirement of an installed entry without a count register (R427, R428); one that thaws loses its register, and one not
yet installed goes. -/
def State.retireEntry (s : State) (i : Nat) : State :=
  let e := s.mem.frz.getD i FrzEntry.blank
  let put := fun (x : FrzEntry) => { s with mem := { s.mem with frz := s.mem.frz.setIfInBounds i x } }
  match e.state with
  | .free => s
  | .pending => put { FrzEntry.blank with gen := e.gen }
  | .thawing => put { e with owner := none }
  | .installed =>
    let e : FrzEntry := { e with state := .thawing, owner := none, acks := s.scopeRanks e.sc, since := s.clk, overdue := false }
    ({ s with mem := { s.mem with frz := s.mem.frz.setIfInBounds i e } }).sendRetire i e

/-- FRZ (R186). -/
def execFrz (h : Hdr) (sc : Scope) (k : Nat) (d : Opd) (a : Opd) (b : Opd) (s : State) : Host.Outcome State Fault Refusal :=
  run (.frz h sc k d a b) h (fun t act => if act = 0 then .ok t else freeze t h sc.code k d (t.readUni a 2) (t.readUni b 2)) s

/-- THAW (R187). -/
def execThaw (h : Hdr) (k : Nat) (a : Opd) (s : State) : Host.Outcome State Fault Refusal :=
  run (.thaw h k a) h (fun t act => if act = 0 then .ok t else thawEntry t k (t.readUni a 1).toNat) s

/-- FRZQ (R188). -/
def execFrzq (h : Hdr) (d : Opd) (a : Opd) (s : State) : Host.Outcome State Fault Refusal :=
  run (.frzq h d a) h (fun t act => if act = 0 then .ok t else freezeQuery t h d (t.readUni a 2)) s

end Sys2Proof.Machine
end

