-- ==== Sys2Proof/Machine/FreezeEv.lean ====
section
/-! DEFINITION. The steps of freezing that no instruction takes: installation (R186, R352), generation retirement (R356), its
acknowledgements (R187, R357) and their being overdue. -/
namespace Sys2Proof.Machine

/-- The release of an FRZ is complete (R178, R186): what it covers has been acknowledged, and at .job a window boundary has passed. -/
def State.freezeReleased (s : State) (e : FrzEntry) : Bool :=
  match e.owner with
  | none => true
  | some (id, _, _) =>
    s.released id e.sc &&
    (decide (e.sc ≠ 4) || decide (1 ≤ e.since))

/-- Send a message to every other device of a scope in this pod (R385). -/
def State.tellPeers (s : State) (sc : Nat) (t : Txn) : State :=
  let self := (rankEntry s s.mgmt.selfRank).getD 0
  (s.scopeRanks sc).foldl (fun (s : State) r =>
    if r = s.mgmt.selfRank then s
    else match rankEntry s r with
      | some w => if bits w 11 2 = bits self 11 2 then (s.toPeer (bits w 19 12) t).getD s else s
      | none => s) s

/-- Install an entry (R186): from now on writes to its bytes are refused, and the pod peers of its scope are told (R385, log 94). -/
def State.installFrozen (s : State) (i : Nat) : State :=
  let e := s.mem.frz.getD i FrzEntry.blank
  if e.state = .pending ∧ s.freezeReleased e then
    let e' : FrzEntry := { e with state := .installed, owner := none }
    let s := { s with mem := { s.mem with frz := s.mem.frz.setIfInBounds i e' } }
    match e.owner with
    | some (id, wg, k) => (s.countOwned id wg k 64 0 0).tellPeers e.sc (.install s.mgmt.selfRank i e.gen.toNat e.sc)
    | none => s
  else s

/-- The cause 0x148 + 8 × (SC − 2) + e (R277). -/
def freezeCause (sc e : Nat) : Nat := 0x148 + 8 * (sc - 2) + e

/-- Retire a generation of another device's entry and acknowledge it (R356): its copies go, and fills that arrive later under it
are dropped while any answer from that home is outstanding. -/
def State.receiveRetire (s : State) (home e gen sc : Nat) : State :=
  let s := s.retireCopies home e gen
  let busy := fun (r : Nat) => s.fab.ops.any (fun o => o.rank == r && o.answered.isNone)
  let tag : FrzTag := { entry := e, gen := gen, sc := sc }
  let s := { s with mem := { s.mem with retired := (home, tag) :: s.mem.retired.filter (fun x => busy x.1) } }
  match rankEntry s home with
  | none => s
  | some w =>
    if bits w 11 2 = bits ((rankEntry s s.mgmt.selfRank).getD 0) 11 2 then
      (s.toPeer (bits w 19 12) (.retired e)).getD s
    else { s with logs := { s.logs with out := s.logs.out ++ [.retired home e] } }

/-- The device's own part in a THAW of one of its entries (R187, R356). -/
def State.retireOwn (s : State) (i gen : Nat) : State :=
  let e := s.mem.frz.getD i FrzEntry.blank
  if e.state = .thawing ∧ e.acks.contains s.mgmt.selfRank ∧ e.gen.toNat = gen then
    (s.retireCopies s.mgmt.selfRank i gen).ackRetire i s.mgmt.selfRank
  else s

/-- Another device acknowledges. -/
def State.peerRetired (s : State) (i rank : Nat) : State := if rank = s.mgmt.selfRank then s else s.ackRetire i rank

/-- A device that has left the job counts as acknowledged in every thaw that waits for it (R357, R382). -/
def State.leftScope (s : State) (rank : Nat) : State :=
  (List.range 64).foldl (fun (s : State) i =>
    let e := s.mem.frz.getD i FrzEntry.blank
    if e.state = .thawing ∧ rank ≠ s.mgmt.selfRank ∧ e.acks.contains rank then
      (s.event 0 (freezeCause e.sc 1) e.part 255 255 0 0).ackRetire i rank
    else s) s

/-- A pod slot acknowledges the retirement of an entry (R385): the rank that stands in that slot. -/
def State.slotRetired (s : State) (slot i : Nat) : State :=
  let self := (rankEntry s s.mgmt.selfRank).getD 0
  match (s.mem.frz.getD i FrzEntry.blank).acks.find? (fun r => r != s.mgmt.selfRank && (match rankEntry s r with
      | some w => bits w 11 2 == bits self 11 2 && bits w 19 12 == slot
      | none => false)) with
  | some r => s.peerRetired i r
  | none => s

/-- FREEZE_INSTALL (R186, R352): a write is performed whole before it or refused whole after it (R353, R355). -/
def execFreezeInstall (e : Nat) (s : State) : Host.Outcome State Fault Refusal :=
  .next (s.installFrozen e)

/-- GENERATION_RETIREMENT (R187, R356): a retirement of entry `e` of the home `home` is carried out here. -/
def execGenerationRetirement (home : Nat) (e : Nat) (gen : Nat) (sc : Scope) (s : State) : Host.Outcome State Fault Refusal :=
  .next (if home = s.mgmt.selfRank then s.retireOwn e gen else s.receiveRetire home e gen sc.code)

/-- RETIREMENT_ACK (R187): the device of a rank acknowledges. -/
def execRetirementAck (e : Nat) (rank : Nat) (s : State) : Host.Outcome State Fault Refusal :=
  .next (s.peerRetired e rank)

/-- THAW_OVERDUE (R357). -/
def execThawOverdue (e : Nat) (s : State) : Host.Outcome State Fault Refusal :=
  let x := s.mem.frz.getD e FrzEntry.blank
  if x.state = .thawing ∧ !x.overdue ∧ 2 ^ 32 < s.clk - x.since then
    .next (({ s with mem := { s.mem with frz := s.mem.frz.setIfInBounds e { x with overdue := true } } }).event 0 (freezeCause x.sc 6) x.part 255 255 0 0)
  else .next s

end Sys2Proof.Machine
end

