-- ==== Sys2Proof/Machine/Issue.lean ====
section
/-! DEFINITION. Issue: tidying and refilling the stack before an issue (R145, R243), fetch with its checks (R70–R78), readiness (R80–R82,
R240), pending imprecise faults at their boundary (R273, R274), pairs (R74), the two live paths (R146) and the quadrant's choice (R241). -/
namespace Sys2Proof.Machine

/-! ## Issue units and pairs -/

/-- The issue units of R92. -/
inductive Unit4 where | v | f | u | m
  deriving DecidableEq, Repr

/-- The unit an instruction uses (R92). -/
def unitOf (i : Instr) : Unit4 :=
  let op := encode i % 1024
  match op / 128 with
  | 0 => .v
  | 1 => if op < 0x0C2 then .u else if op = 0x0C9 then .m else .v
  | 2 => if decide (0x10D ≤ op ∧ op ≤ 0x113) then .f else .v
  | 3 => .u
  | _ => .m

/-- Ports an instruction names. -/
def portsOf (i : Instr) : List Nat := (uses i).flatMap Use.ports

/-- The wait mask and the scoreboard entry let an instruction issue (R82). -/
def Warp.sbReady (w : Warp) (h : Hdr) : Bool :=
  (List.range 7).all (fun e => !h.wm.getLsbD e || w.sb.getD e 0 == 0) && (h.sb == 0 || decide (w.sb.getD (h.sb - 1) 0 < 63))

/-- The debug comparator of slot addresses that matches a slot (R277, 0x018–0x01B). -/
def State.slotMatch (s : State) (pc : DWord) : Option Nat := (List.range 4).find? (fun j => s.mgmt.comparators.getD j none == some pc)

/-- Slots j and j + 1 form a pair as slot j issues (R74): the second instruction, which may count on an entry that slot j itself has been counted
in; one that a FENCE holds does not issue with it (R240), nor one that a comparator stops (R277). -/
def State.pairOf (s : State) (i : Instr) : Option Instr :=
  match s.paired, hdrOf i with
  | some j, some h =>
    (match hdrOf j with
     | some hj =>
       if !s.cur.second && h.st == 0 && opClass i != 3 && opClass j != 3 && unitOf i != unitOf j &&
          !((portsOf i).any (fun p => (portsOf j).contains p)) && !s.cur.twoLive && (s.cur.countSb h.sb).sbReady hj &&
          (s.slotMatch (s.pc + 1)).isNone && (decide (opClass j ≤ 3) || s.cur.fence.isNone) then some j else none
     | none => none)
  | _, _ => none

/-! ## Checks of a slot arrived at -/

/-- What a check of a slot comes to. -/
inductive Check where
  | pass
  | fault (cause : Nat) (addr : DWord)
  /-- the line waits for an ownership transfer (R365) -/
  | wait (part va : Nat)
  deriving DecidableEq, Repr

/-- The first of two checks that does not pass. -/
def Check.and : Check → Check → Check
  | .pass, c => c
  | c, _ => c

/-- A check on the line of a slot, which is fetched for it. -/
def onLine (s : State) (pc : DWord) (f : List Byte → Check) : Check :=
  match fetchLine s (lineAddr pc) with
  | .ok bs => f bs
  | .fault c => .fault c (BitVec.ofNat 64 (lineAddr pc))
  | .wait p va => .wait p va

/-- The slot has TGT set; otherwise 0x005 with sr.fault `x` (R73). -/
def tgtCheck (s : State) (pc x : DWord) : Check :=
  onLine s pc (fun bs => if tgtBit bs (pc.toNat % 5) then .pass else .fault 0x005 x)

/-- A marker of R144, which stands for no slot. -/
def isMark (pc : DWord) : Bool := pc == noneMark || pc == trapMark || pc == callMark

/-- The slot before holds a BRA or BRX, so that this slot is the fall-through of a branch (R73). -/
def branchBefore (s : State) (pc : DWord) : Check :=
  let q := pc - 1
  match onLine s q (fun bs =>
    let op := slotWord bs (q.toNat % 5) % 1024
    if op = 0x180 ∨ op = 0x181 then .pass else .fault 0x005 0) with
  | .fault _ _ => .fault 0x005 0
  | c => c

/-- The check of an entry refilled from private memory, when it runs (R73, R243): first its own line and the line of its reconvergence PC
(R98), then TGT at both. sr.fault of a failed check is 0, also where a RET or BREAK resumes the entry (log 65). -/
def refillCheck (s : State) (p : Path) : Check :=
  if !p.refilled then .pass
  else
    let line := fun pc => if isMark pc then Check.pass else onLine s pc (fun _ => .pass)
    let tgt := fun pc => if isMark pc then Check.pass else tgtCheck s pc 0
    (line p.pc).and ((line p.rpc).and ((tgt p.rpc).and (match tgt p.pc with
      | .fault 0x005 x => if p.storedRec then .fault 0x005 x else branchBefore s p.pc
      | c => c)))

/-! ## Before an issue -/

/-- The indices of the live paths, the only ones that issue (R143, R244): 0 the topmost or base path, 1 the live path beneath it. -/
def Warp.liveIdx (w : Warp) : List Nat := if w.twoLive then [0, 1] else [0]

/-- A live path that has arrived at its reconvergence PC, the arrival not yet checked (R73). -/
def Warp.atJoin (w : Warp) : Option Nat :=
  w.liveIdx.find? (fun i => match w.stack[i]? with
    | some p => !p.isRec && p.pc == p.rpc && p.arr.isSome && p.mask != 0
    | none => false)

/-- What settling the stack comes to. -/
inductive Settled where
  | ok (s : State)
  /-- the path at an index, or the fill that would come next (none), does not go on -/
  | stop (s : State) (idx : Option Nat) (why : SpillStop)

/-- Tidy, check the arrivals at a reconvergence PC and refill until none applies (R73, R145, R243). -/
def State.settleStack (s : State) : Nat → Settled
  | 0 => .ok (s.modCur Warp.tidy)
  | n + 1 =>
    let s := s.modCur Warp.tidy
    match s.cur.atJoin with
    | some i =>
      let p := s.cur.stack.getD i s.cur.base
      (match tgtCheck s p.pc (p.arr.getD 0) with
       | .fault c a => .stop s (some i) (.fault c a)
       | .wait q va => .stop s (some i) (.wait q va)
       | .pass => (s.modCur (fun w => { w with stack := w.stack.modify i (fun p => { p with arr := none }) })).settleStack n)
    | none =>
      if s.cur.stack.length < 32 ∧ 0 < s.cur.spilled then
        match s.fill 32 with
        | .error e => .stop s none e
        | .ok s => s.settleStack n
      else .ok s

/-- The stack settled; each round checks one arrival or fills the stack. -/
def State.settled (s : State) : Settled := s.settleStack (2 * (s.cur.spilled + s.cur.stack.length) + 4)

/-- Forget the focused warp's watches. -/
def State.unwatch (s : State) : State :=
  { s with mem := { s.mem with watch := s.mem.watch.filter (fun w => w.1 != s.cur.id) } }

/-- End a hold of the whole warp (R240). -/
def State.wake (s : State) : State := s.unwatch.modCur (fun w => { w with hold := .none })

/-- The focused warp is at a boundary (R273, R274): not in trap mode, not waiting in an issued BAR, BARG or SYSCALL, and not yielding. -/
def State.atBoundary (s : State) : Bool :=
  !s.cur.trapMode && (match s.cur.hold with
    | .bar _ _ _ => false
    | .barg _ _ _ => false
    | .syscall _ _ => false
    | .yield till left => decide (till ≤ s.clk) || left.isEmpty
    | _ => true)

/-- A pending fault may be taken now (R273, R274). -/
def State.faultDue (s : State) : Bool := !s.cur.pendFaults.isEmpty && s.atBoundary

/-- TAKE the oldest pending imprecise fault (R273, R274): on the path that issued the causing instruction if it is live, otherwise on
the topmost; a hold that stands before issue ends. The error is the region that the handler's push waits for. -/
def State.takeFault (s : State) : Except (Nat × Nat) State :=
  match s.cur.pendFaults with
  | [] => .ok s
  | f :: r =>
    let idx := (s.cur.liveIdx.find? (fun i => ((s.cur.stack[i]?).map (fun p => p.pid)).getD s.cur.base.pid == f.pid)).getD 0
    (s.wake.modCur (fun w => { w with pendFaults := r, issuing := idx })).enter f.cause f.epc f.addr

/-- Continue past a barrier: an acquire at its scope (R155, R178). -/
def State.acquireAt (s : State) (sc : Nat) : State := s.acquireOn s.cur.id.core sc

/-- The focused gang's barrier. -/
def State.gangBar (s : State) (id : Nat) : Barrier :=
  match s.sched.gangs.find? (fun g => g.launch == s.wg.launch && g.index == s.wg.gang) with
  | some g => g.bars.getD id Barrier.blank
  | none => Barrier.blank

/-- The whole warp's hold, if it still stands; otherwise the state in which it has ended (R155, R159, R204, R240). -/
def State.pollHold (s : State) : Option State :=
  match s.cur.hold with
  | .none => some s
  | .waitk m => if (List.range 16).all (fun i => !(m.getLsbD i) || s.cur.k.getD i 0 == 0) then some s.wake else none
  | .bar id ph sc => if (s.wg.bars.getD id Barrier.blank).phase = ph then none else some (s.wake.acquireAt sc)
  | .barg id ph sc => if (s.gangBar id).phase = ph then none else some (s.wake.acquireAt sc)
  | .syscall _ _ => none
  | .sleep since till watch =>
    -- a pending fault ends it at once (R273)
    if !s.cur.pendFaults.isEmpty then some s.wake
    else if s.clk ≤ since then none
    else if till ≤ s.clk ∨ (watch ∧ !(s.mem.watch.any (fun w => w.1 == s.cur.id))) then some s.wake else none
  | .yield till left => if till ≤ s.clk ∨ left = [] then some s.wake else none

/-! ## Fetch and decode -/

/-- What executing an instruction comes to: `exec`, which the step passes in. -/
abbrev Meaning := Instr → State → Host.Outcome State Fault Refusal

/-- The instruction was held at issue (R240): its path stands where it stood and the warp waits in nothing new. -/
def heldNow (s t : State) : Bool :=
  t.cur.id == s.cur.id && t.cur.running && t.cur.path == s.cur.path && t.cur.stack.length == s.cur.stack.length &&
  t.cur.trapMode == s.cur.trapMode && (match t.cur.hold with
    | .syscall _ _ => false
    | _ => true)

/-- What a warp found held keeps of the try: the transfers that it waits for (R364), a wait of WAITK that holds the whole warp (R204), and a
0x16B or 0x16D that it has met (R366). -/
def State.keepHeld (s t : State) : State :=
  { s.modWarp t.cur.id (fun w => { w with pendFaults := t.cur.pendFaults, hold := t.cur.hold }) with mem := { s.mem with own := t.mem.own } }

/-- What trying to issue from one path comes to. -/
inductive Try where
  /-- an instruction to execute -/
  | go (i : Instr) (s : State)
  /-- the issue goes to a trap -/
  | act (s : State)
  /-- not ready -/
  | held (s : State)

/-- Keep the line and decode the slot (R98). -/
def State.decodeSlot (s : State) (a : Nat) (bs : List Byte) : Try :=
  let s := s.modCur (fun w => w.modPath (fun p => { p with line := some (a, bs), arr := none, refilled := false }))
  match decodeWord (slotWord bs (s.pc.toNat % 5)) with
  | .error c => .act (s.precise c 0)
  | .ok i => .go i s

/-- Bring the issuing path's line in (R71): within one line a fetch serves the slots in sequence; an arrival fetches anew and is
checked (R73). -/
def State.fetch (s : State) : Try :=
  let p := s.cur.path
  let a := lineAddr p.pc
  match refillCheck s p with
  | .fault c x => .act (s.stopAt c x)
  | .wait q va => .held (s.pathWaits q va)
  | .pass =>
    let have_ := match p.line, p.arr with
      | some (b, bs), none => if b = a then some bs else none
      | _, _ => none
    let got := match have_ with
      | some bs => FetchRes.ok bs
      | none => fetchLine s a
    match got with
    | .fault c => .act (s.stopAt c (BitVec.ofNat 64 a))
    | .wait q va => .held (s.pathWaits q va)
    | .ok bs =>
      match p.arr with
      | some x =>
        if !tgtBit bs (p.pc.toNat % 5) then .act (s.precise 0x005 x)
        else s.decodeSlot a bs
      | none => s.decodeSlot a bs

/-- An instruction whose own meaning holds it is not ready (R240); looked at where `exact` asks for it. -/
def Try.unlessHeld (does : Meaning) (exact : Bool) (i : Instr) (s : State) : Try :=
  if exact then (match does i s with
    | .next u => if heldNow s u then .held u else .go i s
    | _ => .go i s)
  else .go i s

/-- Try to issue from the live path at an index (R80–R82, R178, R240, R277). -/
def State.tryPath (does : Meaning) (exact : Bool) (s : State) (idx : Nat) : Try :=
  let s := s.modCur (fun w => { w with issuing := idx })
  match s.fetch with
  | .go i s =>
    (match hdrOf i with
     | none => .held s
     | some h =>
       if !s.cur.sbReady h then .held s
       else match s.slotMatch s.pc with
         | some j => .act (s.precise (0x018 + j) 0)
         | none =>
           if opClass i ≤ 3 then .unlessHeld does exact i s
           else
             let s := s.pollFence
             if s.cur.fence.isSome then .held s else .unlessHeld does exact i s)
  | r => r

/-- Issue from a live path of the focused warp (R146): the lower path goes first once it has been passed over seven times. -/
def State.tryPaths (does : Meaning) (exact : Bool) (s : State) : Try :=
  if !s.cur.twoLive then s.tryPath does exact 0
  else
    let first := if 7 ≤ s.cur.altCount then 1 else 0
    match s.tryPath does true first with
    | .held t => (match (s.keepHeld t).tryPath does true (1 - first) with
      -- a wait of the whole warp is no lone path's (R240)
      | r => if t.cur.hold = s.cur.hold then r else .held t)
    | .go i t => .go i (t.modCur (fun w => { w with altCount := if first = 1 then 0 else w.altCount + 1 }))
    | r => r

/-- Take the fault that is due (R273), or hold while the handler's push waits. -/
def State.tryFault (s : State) : Try :=
  match s.takeFault with
  | .ok t => .act t
  | .error (p, va) => .held (s.pathWaits p va)

/-- The live path beside one that waits at its reconvergence PC, or the paths on chip while a fill waits: a wait for a transfer holds no more
(R240). -/
def State.tryBeside (does : Meaning) (exact : Bool) (s : State) : Option Nat → Try
  | some i =>
    if s.cur.twoLive then (match s.cur.stack[1 - i]? with
      | some p => if p.pc == p.rpc && p.arr.isSome then .held s else s.tryPath does exact (1 - i)
      | none => .held s)
    else .held s
  | none => if s.cur.stack = [] then .held s else s.tryPaths does exact

/-- Try to issue from the focused warp (R145, R164, R273): a hold of the whole warp that has ended is left behind; the stack is settled; a
pending fault is taken before anything issues; a hold that stands lets nothing issue. -/
def State.tryWarp (does : Meaning) (exact : Bool) (s : State) : Try :=
  if !s.cur.running then .held s
  else
    let ended := s.pollHold
    let s := ended.getD s
    if ended.isNone && !s.faultDue then .held s
    else match s.settled with
      | .stop s i (.fault c a) => if s.faultDue then s.tryFault else .act ((s.modCur (fun w => { w with issuing := i.getD 0 })).stopAt c a)
      | .stop s i (.wait p va) =>
        if s.faultDue then s.tryFault
        else if ended.isNone then .held s
        else (((s.modCur (fun w => { w with issuing := i.getD 0 })).pathWaits p va).modCur (fun w => { w with issuing := 0 })).tryBeside does exact i
      | .ok s =>
        if s.faultDue then s.tryFault
        else if ended.isNone then .held s
        else s.tryPaths does exact

/-- Ready in this cycle (R240). -/
def Try.ready : Try → Bool
  | .held _ => false
  | _ => true

/-! ## The quadrant's choice -/

/-- The running warps of a quadrant, by slot. -/
def State.quadWarps (s : State) (core quad : Nat) : List Warp :=
  (List.range 16).filterMap (fun i => s.allWarps.find? (fun w => w.running && w.id.core == core && w.id.slot == 16 * quad + i &&
    -- a warp of a workgroup that stops for pre-emption begins nothing (R415)
    ((s.wgOf w.wg).map (fun g => decide (g.status ≠ .stopping))).getD false))

/-- Choose among ready warps (R241): slot in the quadrant, wait count, priority; the pointer of the quadrant. -/
def chooseWarp (ptr : Nat) (ws : List (Nat × Nat × Nat)) : Option Nat :=
  let best := fun (key : Nat × Nat × Nat → Nat) (dist : Nat → Nat) =>
    (ws.foldl (fun (m : Option (Nat × Nat × Nat)) x => match m with
      | none => some x
      | some y => if key y < key x ∨ (key x = key y ∧ dist x.1 < dist y.1) then some x else some y) none).map (fun x => x.1)
  if ws.any (fun x => decide (240 ≤ x.2.1)) then best (fun x => x.2.1) id
  else best (fun x => x.2.1 + 16 * x.2.2) (fun slot => (slot + 16 - ptr) % 16)

/-- One arithmetic-clock cycle passes (R161). -/
def State.tick (s : State) : State :=
  let f := max 1 s.mgmt.mhz
  { s with clk := s.clk + 1 }.passTime (s.time + ((s.clk + 1) * 1000 / f - s.clk * 1000 / f))

/-- The priority of a warp's queue. -/
def State.prioOf (s : State) (w : Warp) : Nat := ((s.wgOf w.wg).map (fun g => g.prio)).getD 0

/-- A warp has issued: the yielding warps of its quadrant wait for it no more (R159). -/
def State.peerIssued (s : State) (id : WarpId) : State :=
  s.modWarps (fun w => w.id.core == id.core && w.id.slot / 16 == id.slot / 16 && (match w.hold with
    | .yield _ _ => true
    | _ => false)) (fun w => match w.hold with
    | .yield till left => { w with hold := .yield till (left.filter (fun x => x != id.slot)) }
    | _ => w)

/-- A cycle of a quadrant in which the warp at a place has issued (R241): wait counts, pointer, the warps that had given the cycle away
(R84), the yielding warps, and the time. -/
def State.tookTurn (s : State) (id : WarpId) (tn : Turn) : State :=
  let quad := 4 * id.core + id.slot / 16
  let s := s.modWarps (fun w => tn.others.contains w.id) (fun w => { w with waitCount := w.waitCount + 1 })
  let s := s.modWarps (fun w => w.gives && w.id.core == id.core && w.id.slot / 16 == id.slot / 16) (fun w => { w with gives := false })
  let s := s.modWarp id (fun w => { w with waitCount := 0 })
  let s := if tn.aged then s else
    { s with sched := { s.sched with pointers := s.sched.pointers.set quad (BitVec.ofNat 8 ((id.slot % 16 + 1) % 16)) } }
  (s.peerIssued id).tick

/-- Try the warps of a quadrant in turn: what each came to, and what the held ones keep. -/
def State.tryAll (does : Meaning) (exact : Bool) (s : State) : List Warp → State × List (Warp × Try)
  | [] => (s, [])
  | w :: ws =>
    let r := (s.focusOn w.id).tryWarp does exact
    let x := (match r with
      | .held t => s.keepHeld t
      | _ => s).tryAll does exact ws
    (x.1, (w, r) :: x.2)

/-- ONE CYCLE OF A QUADRANT (R240, R241): the chosen warp comes into focus, with the instruction it issues if any. A warp whose last
instruction gave the cycle away is not ready while another is (R84). A warp that is alone is not tried beforehand: held, it leaves the cycle idle
just the same. -/
def State.issue (does : Meaning) (s : State) (core quad : Nat) : State × Option Instr :=
  let ws := s.quadWarps core quad
  let exact := decide (1 < ws.length)
  let (s, tries) := s.tryAll does exact ws
  let can := tries.filter (fun x => x.2.ready)
  let keen := can.filter (fun x => !x.1.gives)
  let ready := if keen = [] then can else keen
  let ptr := s.sched.pointers.get (4 * core + quad)
  match chooseWarp ptr.toNat (ready.map (fun x => (x.1.id.slot % 16, x.1.waitCount, s.prioOf x.1))) with
  | none => (s.draw.tick, none)
  | some slot =>
    let tn : Turn := { others := (ready.filter (fun x => x.1.id.slot % 16 != slot)).map (fun x => x.1.id)
                       aged := ready.any (fun x => decide (240 ≤ x.1.waitCount)), counted := false }
    match (ready.find? (fun x => x.1.id.slot % 16 == slot)).map (fun x => if exact then (s.focusOn x.1.id).tryWarp does exact else x.2) with
    | some (.go i t) => ({ t with turn := some tn }, some i)
    | some (.act t) => (t.tookTurn ⟨core, 16 * quad + slot⟩ tn, none)
    | _ => (s.draw.tick, none)

/-! ## After an instruction -/

/-- What an instruction that has issued leaves in its warp: the cycle it gives away (R84), and waits for transfers that are over (R365). -/
def State.noteIssue (s : State) (i : Instr) (t : State) : State :=
  (t.modWarp s.cur.id (fun w => { w with
    gives := w.gives || (match hdrOf i with
      | some h => h.yd
      | none => false)
    last := .other })).served (fun x => match x with
      | .path id wg pid _ => id == s.cur.id && wg == s.cur.wg && pid == s.cur.path.pid
      | .cmd _ => false)

/-! ## The data comparators -/

/-- The accesses that an instruction makes by addresses of its own: address and bytes, in ascending order of lanes. -/
def State.laneAccesses (s : State) (i : Instr) : List (DWord × Nat) :=
  let at_ := fun (h : Hdr) (a : Opd) (off : BitVec 20) (sz : Size) =>
    let t := (s.modCur (fun w => w.waited h false)).draw
    (Mask.lanes (t.active h)).map (fun l => ((t.readVec a 2).getD l 0 + off.signExtend 64, szBytes sz))
  match i with
  | .ld h _ sz _ _ _ off _ a => at_ h a off sz
  | .ldu h _ sz _ _ off _ a => (at_ h a off sz).take 1
  | .st h _ sz _ _ off a _ => at_ h a off sz
  | .atom h _ _ sz _ off _ a _ => at_ h a off sz
  | .cas h _ sz _ off _ a _ => at_ h a off sz
  | .red h _ _ sz _ off a _ => at_ h a off sz
  | _ => []

/-- The elements of pattern ports that an instruction has popped or pushed. -/
def State.portAccesses (s t : State) (i : Instr) : List (DWord × Nat) :=
  let lanes := ((hdrOf i).map (fun h => Mask.lanes (s.active h))).getD []
  (List.range 8).flatMap (fun n => match s.port n, t.port n with
    | some p, some q =>
      if p.isQueue ∨ p.binding ≠ q.binding ∨ q.pos ≤ p.pos then []
      else
        let js := if p.packed then (List.range (q.pos - p.pos)).map (fun i => p.pos + i) else lanes.map (fun l => p.pos + l)
        (js.filter (fun j => decide (j < p.len))).filterMap (fun j => ((layOf p.record).elem p.base j).map (fun e => (e.1, e.2.1)))
    | _, _ => [])

/-- The first data comparator that an instruction's access matches, with the address of the access (R275, R277). DESIGN CHOICE (log 75): it matches
an access that its address lies in. -/
def State.dataMatch (s t : State) (i : Instr) : Option (Nat × DWord) :=
  if (List.range 4).all (fun j => (s.mgmt.comparators.getD (4 + j) none).isNone) then none
  else
    let hits := s.laneAccesses i ++ s.portAccesses t i
    (List.range 4).findSome? (fun j => (s.mgmt.comparators.getD (4 + j) none).bind (fun c =>
      (hits.find? (fun x => decide ((c - x.1).toNat < x.2))).map (fun x => (j, x.1))))

/-! ## The rest of the issue group -/

/-- The focused warp's live path with an identity. -/
def Warp.livePid (w : Warp) (pid : Nat) : Option Nat :=
  w.liveIdx.find? (fun i => ((w.stack[i]?).map (fun p => p.pid)).getD w.base.pid == pid)

/-- Two instructions of two live paths may issue together (R146). -/
def together (i j : Instr) : Bool :=
  opClass i != 3 && opClass j != 3 && (unitOf i != unitOf j || unitOf i == .v) && !((portsOf i).any (fun p => (portsOf j).contains p))

/-- The other live path's instruction that issues in the same cycle as `i` (R146), ready before and after it, with the state in which it
issues. -/
def State.companion (does : Meaning) (s : State) (i : Instr) (u : State) : Option (Instr × State) :=
  if s.cur.second || !s.cur.twoLive || !u.cur.twoLive then none
  else
    match s.tryPath does true (1 - s.cur.issuing), (s.cur.stack[1 - s.cur.issuing]?).bind (fun p => u.cur.livePid p.pid) with
    | .go j _, some k => (match u.tryPath does true k with
      | .go j' v => if j = j' ∧ together i j then some (j, v) else none
      | _ => none)
    | _, _ => none

/-- An instruction of the same issue group comes next; the hardware's own faults that stand first on the agenda may still strike it. -/
def State.queueNext (s : State) (j : Instr) (tn : Option Turn) : State :=
  let strikes := fun (x : Instr) => match x with
    | .trapEntry _ _ _ _ _ => true
    | _ => false
  { s.modCur (fun w => { w with second := true }) with
    agenda := s.agenda.takeWhile strikes ++ j :: s.agenda.dropWhile strikes
    turn := tn.map (fun tn => { tn with counted := true }) }

/-- The issue group is over. -/
def State.groupOver (s : State) : State := { s.modCur (fun w => { w with second := false }) with turn := none }

/-- What follows an instruction's execution: a held one leaves the quadrant's cycle idle; one that has issued counts in the quadrant (R241); a data
comparator's trap comes before anything else of the warp (R271, R277); then comes the second of a pair (R74), or the other live path's (R146). -/
def State.afterInstr (does : Meaning) (s : State) (i : Instr) (t : State) : State :=
  let counted := (s.turn.map (fun tn => tn.counted)).getD false
  if heldNow s t then (if counted then t else t.tick).groupOver
  else
    let t' : State := match s.turn with
      | some tn => if tn.counted then t else t.tookTurn s.cur.id tn
      | none => t
    let u := s.noteIssue i t'
    if t.cur.id != s.cur.id || !t.cur.running || t.cur.trapMode != s.cur.trapMode then u.groupOver
    else match s.dataMatch t i with
      | some (j, a) =>
        ((u.modCur (fun w => { w with issuing := (w.livePid s.cur.path.pid).getD w.issuing })).trap (0x01C + j) (s.pc + 1) a).groupOver
      | none => match s.pairOf i, s.companion does i u with
        | some j, _ => if t.cur.path.pid == s.cur.path.pid && t.pc == s.pc + 1 && t.cur.path.arr.isNone then u.queueNext j s.turn else u.groupOver
        | none, some (j, v) => (v.modCur (fun w => { w with altCount := 0 })).queueNext j s.turn
        | none, none => u.groupOver

end Sys2Proof.Machine
end

