-- ==== Sys2Proof/Machine/RemoteInstr.lean ====
section
/-! DEFINITION. Remote regions (R191–R194): RBEGIN's checkpoint, RCOMMIT, the rollback. -/
namespace Sys2Proof.Machine

/-- The warp is in the base state and not in trap mode (R191). -/
def State.inBase (s : State) : Bool := s.cur.stack.isEmpty && decide (s.cur.spilled = 0) && !s.cur.trapMode

/-- The 17,536 bytes of a checkpoint (R192). -/
def State.checkpoint (s : State) : List Byte :=
  let preds := (List.range 31).map (fun i => s.readP i)
  leBytes 16 s.cur.em.toNat ++ leBytes 8 s.pc.toNat ++ leBytes 8 0 ++
  (List.range 16).flatMap (fun i => leBytes 4 (s.cur.k.getD i 0).toNat) ++
  (List.range 128).flatMap (fun i => leBytes 4 (s.readS i).toNat) ++
  (List.range 128).flatMap (fun l => leBytes 4 ((preds.zipIdx.foldl (fun n p => if p.1.getLsbD l then n + 2 ^ p.2 else n) 0) + 2 ^ 31)) ++
  leBytes 32 0 ++
  (List.range 32).flatMap (fun j => let v := s.readV j; (List.range 128).flatMap (fun l => leBytes 4 (v.getD l 0).toNat))

/-- The access of one 64-byte piece of the area: as a store, or as a load for the rollback (R192). -/
def areaAccess (write : Bool) : Access :=
  { kind := if write then 1 else 0, perm := ⟨!write, write, false⟩, space := .gen, size := 64, align := 1, atomic := none,
    fe := false, hflush := false, engine := false }

/-- The targets of the area's 274 pieces of 64 bytes. -/
def areaTargets (s : State) (write : Bool) (a : DWord) : Nat → EngRes (List (DWord × Target))
  | 0 => .ok []
  | n + 1 =>
    match resolve s (areaAccess write) 0 a with
    | .fault c => .fault c a
    | .wait p va => .wait p va
    | .ok t => match areaTargets s write (a + 64) n with
      | .ok ts => .ok ((a, t) :: ts)
      | e => e

/-- The window and alignment checks of the area, with access kind 3 (R192, R256). -/
def areaFault (s : State) (a : DWord) : Option Nat :=
  match window a with
  | .bad => some 0x0B8
  | .rank _ _ _ => some 0x0B8
  | .glob _ => if a.toNat % 128 ≠ 0 then some 0x0BC else none
  | .spad c _ => if c ≠ s.cur.id.core then some 0x0B9 else if a.toNat % 128 ≠ 0 then some 0x0BC else none
  | _ => some 0x0BB

/-- Write the checkpoint with ordinary stores; refused pieces are reported by the first (R189, R190). -/
def writeArea (s : State) : List (DWord × Target) → List Byte → State × Option (DWord × Nat)
  | [], _ => (s, none)
  | (a, t) :: r, bs =>
    if s.frozenRange 64 t then
      let (s, _) := writeArea s r (bs.drop 64)
      (s, some (a, match t with
        | .loc l _ => l
        | _ => 0))
    else writeArea (s.writeTarget 0 (bs.take 64) t) r (bs.drop 64)

/-- RBEGIN (R191, R192). -/
def openRegion (s : State) (h : Hdr) (d : Opd) (a : DWord) : Eff :=
  if s.cur.region.isSome then .trap 0x120 0
  else if !s.inBase then .trap 0x122 0
  else match areaFault s a with
    | some c => .trap c a
    | none => match areaTargets s true a 274 with
      | .fault c x => .trap c x
      | .wait p va => holdFor s p va
      | .ok ts =>
        let dn := match d with
          | .s n => n
          | _ => 0
        let r : Region := { area := a, slot := s.pc, d := dn, failed := none }
        let (t, bad) := writeArea s ts s.checkpoint
        let t := t.modCur (fun w => { w with region := some r })
        let t := t.putUni d 1 0 (varLat h)
        match bad with
        | some (x, l) => .ok ((t.logRefused l x).post s.cur.id 0x141 s.pc x s.cur.path.pid)
        | none => .ok t

/-- Remote operations of the open region are still under way (R193). DESIGN CHOICE (log 89): elements pushed to another device that stand in a
partly filled beat count as such. -/
def State.regionBusy (s : State) (id : WarpId) : Bool :=
  s.pendingOps id (fun o => o.inRegion) || s.eng.cmds.any (fun c => c.warp == id && c.remote && c.inRegion) ||
    s.eng.anvil.any (fun a => a.warp == id && a.inRegion && (match a.op with
      | .accld x _ _ => decide (x.toNat / 2 ^ 63 = 1)
      | .accst x _ _ => decide (x.toNat / 2 ^ 63 = 1)
      | _ => false))

/-- THE ROLLBACK (R194): registers come back from the area as it stands now, the divergence stack empties, the region is
left, D receives the cause, and the path goes on after the RBEGIN. -/
def State.rollback (s : State) : State :=
  match s.cur.region with
  | none => s
  | some r =>
    match areaTargets s false r.area 274 with
    | .ok ts =>
      if ts.any (fun p => (s.memError 0 p.2).isSome) then s.kill 0x123 r.slot r.area else
      let (bs, s) := ts.foldl (fun (acc : List Byte × State) p =>
        let (b, _, s) := acc.2.readTarget 0 2 64 [] p.2
        (acc.1 ++ b, s)) ([], s)
      let f := fun off len => recField bs off len
      s.modCur (fun w =>
        let em := BitVec.ofNat 128 (f 0 16) &&& ~~~w.exited
        { w with
          base := { w.base with mask := em, pc := r.slot + 1, line := none, arr := none }
          stack := [], spilled := 0, issuing := 0, region := none, pend := []
          k := Vector.ofFn (fun i : Fin 16 => BitVec.ofNat 32 (f (32 + 4 * i) 4))
          s := (Vector.ofFn (fun i : Fin 128 => BitVec.ofNat 32 (f (96 + 4 * i) 4))).setIfInBounds r.d (BitVec.ofNat 32 (r.failed.getD 0))
          p := Vector.ofFn (fun i : Fin 31 => maskOf (fun l => (f (608 + 4 * l) 4).testBit i))
          v := Vector.ofFn (fun j : Fin 240 => if j < 32 then
            Vector.ofFn (fun l : Fin 128 => BitVec.ofNat 32 (f (1152 + 512 * j + 4 * l) 4)) else w.v[j]) })
    | .fault c a => (s.logWalk s.cur.id c r.slot a).kill 0x123 r.slot a
    | .wait p va => s.pathWaits p va

/-- RBEGIN (R191, R192). -/
def execRbegin (h : Hdr) (d : Opd) (a : Opd) (s : State) : Host.Outcome State Fault Refusal :=
  run (.rbegin h d a) h (fun t act => if act = 0 then .ok t else openRegion t h d (t.readUni a 2)) s

/-- RCOMMIT (R191, R193, R194). -/
def execRcommit (h : Hdr) (s : State) : Host.Outcome State Fault Refusal :=
  run (.rcommit h) h (fun t act =>
    if act = 0 then .ok t
    else match t.cur.region with
      | none => .trap 0x121 0
      | some r =>
        if !t.inBase then .trap 0x122 0
        else if t.regionBusy t.cur.id then .hold t
        else if r.failed.isSome then .moved t.rollback
        else .ok (t.modCur (fun w => { w with region := none }))) s

end Sys2Proof.Machine
end

