-- ==== Sys2Proof/Machine/StreamEv.lean ====
section
/-! DEFINITION. What the tongs do on their own: prefetching elements (R315, R316), writing pushed beats (R313, R314, R317), sending the
beats of queues (R318). -/
namespace Sys2Proof.Machine

/-- Read an input port's record again after a restore (R320), before its first fetch; a failure is left to the port's first use. -/
def State.refreshIn (s : State) (n : Nat) (p : Port) : State :=
  match reRead s p with
  | .ok (q, s) => s.modCur (fun w => w.setPort n (some q))
  | .wait q va => s.wantOwner q va
  | .fault _ _ => s

/-- The lines of the elements held of the 128-element beat that a position belongs to, which the beat reads once (R263). -/
def beatLines (s : State) (p : Port) (pos : Nat) : List Nat :=
  ((p.pre.filter (fun e => e.pos / 128 == pos / 128)).flatMap (fun e => elemLines s p e.pos)).eraseDups

/-- Fetch one element of an input port ahead of its pop (R315): a fault is recorded against its position and its walk error logged (R278, R316);
an element on another device is read after the warp's earlier remote loads, stores and atomics (R308), as a beat of the STRB that bound the port,
and arrives later. Between a pop that faults and the next pop nothing is fetched. -/
def State.prefetch (s : State) (n pos : Nat) : State :=
  match s.port n with
  | none => s
  | some p =>
    if p.mode = .inp ∧ p.reread then s.refreshIn n p else
    let busy := s.fab.ops.any (fun o => o.warp == s.cur.id && o.wg == s.cur.wg && o.answered.isNone && (match o.dst with
      | .pre q b j _ => q == n && b == p.binding && j == pos
      | _ => false))
    if p.mode ≠ .inp ∨ p.deferred.isSome ∨ p.len ≤ pos ∨ pos < p.pos ∨ p.pos + 512 ≤ pos ∨ p.pre.any (fun e => e.pos == pos) ∨ busy then s
    else
      let put := fun (s : State) (e : PreElem) => s.modCur (fun w => w.setPort n (some { p with pre := e :: p.pre }))
      let bad := fun (c : Nat) (a : DWord) => put (s.logWalk s.cur.id c p.epc a) { pos := pos, val := 0, fault := some (c, a) }
      match (layOf p.record).elem p.base pos with
      | none => s
      | some (a, m, nib) =>
        match engTargets s 0 a m with
        | .fault c _ => bad c a
        | .wait q va => s.wantOwner q va
        | .ok ts =>
          match ts.head?.bind (fun t => match t with
            | .remote r g o job => some (r, g, o, job)
            | _ => none) with
          | some (r, g, o, job) =>
            if !s.fencedAt s.cur.id s.cur.wg p.binding || s.fencePending s.cur.id s.cur.wg p.binding then s else
            -- a frozen copy of its line may serve it (R261, R315)
            match (if o % 64 + m ≤ 64 then s.frozenCopy false s.cur.id.core r g o else none) with
            | some c => put s { pos := pos, val := p.clip (BitVec.ofNat 64 (leNat ((c.bytes.drop (o % 64)).take m)) >>> (4 * nib)), fault := none }
            | none =>
              let (tag, s) := s.takeTag
              s.issueOps [{ newOp s 0 tag r g o job (.read m) 4 (.pre n p.binding pos nib) a with
                epc := p.epc, pid := p.pid, fills := if p.hint = 7 then 0 else 1 }]
          | none => match elemAt s p (beatLines s p pos) pos with
            | .ok (x, s) => put s { pos := pos, val := x, fault := none }
            | .fault c b => bad c b
            | .wait q va => s.wantOwner q va

/-- Elements of a push still to come from another device or from the anvil (R306). -/
def State.beatWaits (s : State) (c : Cmd) : Bool :=
  s.fab.ops.any (fun o => o.answered.isNone && (match o.dst with
    | .push _ _ k _ _ => k == c.id
    | _ => false)) ||
  s.eng.anvil.any (fun a => match a.op with
    | .slotrd _ _ _ dsts _ => dsts.any (fun x => match x.2 with
      | .push _ _ k _ _ => k == c.id
      | _ => false)
    | _ => false)

/-- The elements of a beat, `w` bytes each. -/
def elementsOf (w : Nat) (bs : List (LandDest × DWord × Byte)) : List (List (LandDest × DWord × Byte)) :=
  (List.range (bs.length / max 1 w)).map (fun i => (bs.drop (w * i)).take w)

/-- Write a beat (R313, R317): an element that does not translate is refused with its bytes, the others land. -/
def State.writeBeat (s : State) (c : Cmd) (w : Nat) (p : Piece) : State :=
  let els := elementsOf w p.bytes
  let bad := els.filterMap (fun e => match landTargetsRaw (s.seenBy c.pins) e with
    -- the fault names the element (R317)
    | .fault cause a => some (cause, (e.head?.map (fun (x : LandDest × DWord × Byte) => x.2.1)).getD a)
    | _ => none)
  let good := els.filter (fun e => match landTargetsRaw (s.seenBy c.pins) e with
    | .fault _ _ => false
    | _ => true)
  let low := bad.foldl (fun (m : Option (Nat × DWord)) x => match m with
    | none => some x
    | some y => some (if x.2 < y.2 then x else y)) c.failed
  let drop := w * bad.length
  let s := s.countDown c.warp c.k drop c.epc c.pid
  let p' : Piece := { p with bytes := good.flatten, drop := p.drop - drop }
  let c' := { c with failed := low, pieces := c.pieces.map (fun q => if q.idx = p.idx then p' else q) }
  (s.modCmd c.id (fun _ => c')).landPieces c' [p']
where
  /-- The first failure among an element's bytes, with the cause of access kind 1. -/
  landTargetsRaw (s : State) : List (LandDest × DWord × Byte) → EngRes Unit
    | [] => .ok ()
    | (_, a, _) :: r => match resolve s (engAccess 1) 0 a with
      | .fault c => .fault c a
      | .wait q v => .wait q v
      | .ok _ => landTargetsRaw s r

/-- TONGS_PREFETCH (R315, R316). -/
def execTongsPrefetch (core : Nat) (slot : Nat) (port : Nat) (pos : Nat) (s : State) : Host.Outcome State Fault Refusal :=
  let back := s.cur.id
  match s.warpAt ⟨core, slot⟩ with
  | none => .next s
  | some w => if w.running then .next (((s.focusOn ⟨core, slot⟩).prefetch port pos).focusOn back) else .next s

/-- STREAM_BEAT_WRITE (R313, R314, R317): the oldest beat of a push is written. -/
def execStreamBeatWrite (id : Nat) (s : State) : Host.Outcome State Fault Refusal :=
  onCmd s id (fun t c => match c.kind, c.pieces with
    | .push w, p :: _ => if t.beatWaits c || !t.fenced c then t else t.writeBeat c w p
    | _, _ => t)

/-- QUEUE_BEAT_SEND (R318): a full beat goes to the joined queue when it fits. -/
def execQueueBeatSend (core : Nat) (slot : Nat) (port : Nat) (s : State) : Host.Outcome State Fault Refusal :=
  .next (s.pump ⟨core, slot⟩ port)

end Sys2Proof.Machine
end

