-- ==== Sys2Proof/Machine/IssueEv.lean ====
section
/-! DEFINITION. Events of issue and of warps: a quadrant's cycle (R240), results that are written (R81, R82), waking (R159), freeing a warp
slot (R151), faults (R162, R273, R274), the rollback of a remote region (R194), page walks (R264). -/
namespace Sys2Proof.Machine

/-- Instructions counted in a scoreboard entry that cannot be done yet: remote loads and atomics unanswered, anvil reads, a waiting
SYSCALL. -/
def State.countedOut (s : State) (w : Warp) (e : Nat) : Nat :=
  let remote := ((s.fab.ops.filter (fun o => o.warp == w.id && o.wg == w.wg && o.sb == e && o.answered.isNone)).map (fun o => o.group)).eraseDups.length
  let anvil := (s.eng.anvil.filter (fun a => a.warp == w.id && a.wg == w.wg && (match a.op with
    | .accrd _ _ _ _ sb => sb == e
    | .slotrd _ _ _ _ sb => sb == e
    | _ => false))).length
  remote + anvil + (match w.hold with
    | .syscall _ sb => if sb = e then 1 else 0
    | _ => 0)

/-- One instruction counted in an entry is done (R82); with the last one, every result of the entry stands. -/
def State.resultDone (s : State) (id : WarpId) (e : Nat) : State :=
  match s.warpAt id with
  | none => s
  | some w =>
    let finish := fun (w : Warp) => { w with pend := w.pend.map (fun p => match p.lat with
      | .var sb _ => if sb = e then { p with lat := .var sb true } else p
      | .fixed _ _ _ => p) }
    if e = 0 then (if s.countedOut w 0 = 0 then s.modWarp id finish else s)
    else
      let n := w.sb.getD (e - 1) 0
      if s.countedOut w e < n then
        s.modWarp id (fun w =>
          let w := { w with sb := w.sb.setIfInBounds (e - 1) (n - 1) }
          if n = 1 then finish w else w)
      else s

/-- Work of a warp that keeps its slot (R151): a scoreboard entry, or engine work that lowers one of its count registers. -/
def State.warpBusy (s : State) (w : Warp) : Bool :=
  w.sb.toList.any (fun n => n != 0) ||
  s.eng.cmds.any (fun c => c.warp == w.id && c.wg == w.wg) || s.eng.anvil.any (fun a => a.warp == w.id && a.wg == w.wg) ||
  s.eng.contribs.any (fun c => c.warp == w.id && c.wg == w.wg) ||
  s.fab.ops.any (fun o => o.warp == w.id && o.wg == w.wg && o.answered.isNone) ||
  s.mem.frz.toList.any (fun e => (e.owner.map (fun o => o.1 == w.id && o.2.1 == w.wg)).getD false)

/-- The remote operations of a warp that is no more: a write or an atomic that has been sent is still acknowledged (R412), to no warp; the others
are forgotten. -/
def State.orphanOps (s : State) (w : Warp) : State :=
  { s with fab := { s.fab with ops := s.fab.ops.filterMap (fun o =>
      if o.warp ≠ w.id ∨ o.wg ≠ w.wg then some o
      else if o.answered.isNone && !o.held && decide (o.kind = 1 ∨ o.kind = 2 ∨ o.kind = 3 ∧ o.drop ≠ 0) then
        some { o with warp := ⟨192, 0⟩, dst := .none, drop := 0, inRegion := false, sb := 0 }
      else none) } }

/-- The work of a warp is dropped where its workgroup is discarded or the device resets (R404, R417, R428). -/
def State.dropWork (s : State) (w : Warp) : State :=
  let mine := fun (id : WarpId) (g : Nat) => id == w.id && g == w.wg
  ({ s with
    eng := { s.eng with
      cmds := s.eng.cmds.filter (fun c => !mine c.warp c.wg)
      anvil := s.eng.anvil.filter (fun a => !mine a.warp a.wg)
      contribs := s.eng.contribs.filter (fun c => c.held || !mine c.warp c.wg) } }).orphanOps w

/-- Work of a killed warp that nothing can finish any more: a follow-on without its COPYM, a read of a slot that nobody releases or whose writes
have stopped (R217), a share of a collective of a cancelled launch that its members have not all issued (R208), and the partly filled beats of
its pushes, which are discarded (R319). -/
def State.dropDoomed (s : State) (w : Warp) : State :=
  let mine := fun (id : WarpId) (g : Nat) => id == w.id && g == w.wg
  let order := ((s.wgOf w.wg).map (fun g => g.order)).getD []
  let cut := s.sched.launches.any (fun l => l.cancelled && ((s.wgOf w.wg).map (fun g => g.launch)) == some l.key)
  let dead := s.eng.anvil.filter (fun a => mine a.warp a.wg && !a.started &&
    ((a.waitsCopy && !(s.eng.cmds.any (fun c => c.follow == some a.id))) ||
     order.any (fun x => a.reads.contains x.seq && !x.write && (x.needRelo ||
       (order.takeWhile (fun y => !(y.seq == x.seq && y.slot == x.slot))).any (fun y => y.slot == x.slot && y.write && y.lost)))))
  let s := s.modWg w.wg (fun g => { g with order := g.order.filter (fun x => x.write || !(dead.any (fun a => a.reads.contains x.seq))) })
  let gone := fun (c : Cmd) => mine c.warp c.wg && (match c.kind with
    | .push _ => c.pieces.isEmpty
    | _ => c.copyg.isSome && cut && decide ((s.collective c).length < ((s.wgOf c.wg).map (fun g => g.gangSize)).getD 0))
  { s with eng := { s.eng with
    anvil := s.eng.anvil.filter (fun a => !(dead.any (fun b => b.id == a.id)))
    cmds := (s.eng.cmds.filter (fun c => !gone c)).map (fun c => match c.kind with
      | .push _ => if mine c.warp c.wg then { c with todo := [] } else c
      | _ => c) } }

/-- Engine work of a killed warp that is still to finish before its slot is freed (R151, R239, R319). An ordered reduction goes on without the
warp (R300). -/
def State.workLeft (s : State) (w : Warp) : Bool :=
  let mine := fun (id : WarpId) (g : Nat) => id == w.id && g == w.wg
  s.eng.anvil.any (fun a => mine a.warp a.wg) ||
  s.eng.cmds.any (fun c => mine c.warp c.wg && !(s.eng.contribs.any (fun x => x.id == c.id && x.ord.isSome))) ||
  s.eng.contribs.any (fun c => mine c.warp c.wg && c.ord.isNone) ||
  s.mem.frz.toList.any (fun e => (e.owner.map (fun o => mine o.1 o.2.1)).getD false)

/-- A killed warp leaves: what remains of an ordered reduction has no register to lower. -/
def State.forgetWork (s : State) (w : Warp) : State :=
  ({ s with eng := { s.eng with cmds := s.eng.cmds.filter (fun c => !(c.warp == w.id && c.wg == w.wg)) } }).orphanOps w

/-- Free a warp slot: faults it never took are logged (R274), its watches end. -/
def State.freeWarp (s : State) (w : Warp) : State :=
  let part := ((s.wgOf w.wg).map (fun g => g.part)).getD 255
  let s := w.pendFaults.foldl (fun s f => s.event 5 f.cause part w.id.core w.id.slot f.epc f.addr) s
  let s := { s with mem := { s.mem with watch := s.mem.watch.filter (fun x => x.1 != w.id)
                                        own := s.mem.own.map (fun (o : OwnRegion) => { o with waiting := o.waiting.filter (fun x => !(x.warp == w.id && x.wg == w.wg)) }) } }
  if s.cur.id = w.id then { s with cur := { Warp.blank with id := w.id } }
  else { s with warps := s.warps.filter (fun x => x.id != w.id) }

/-! ## Faults that the hardware detects (R277) -/

/-- The next instruction of the issuing path, where it can be fetched and decoded. -/
def State.nextInstr (s : State) : Option Instr :=
  match s.fetch with
  | .go i _ => some i
  | _ => none

/-- An instruction reads registers of a kind of R277: 0 v, 1 s, 2 p, 3 k, 4 em, 5 the divergence stack on chip. -/
def readsKind (w : Warp) (i : Instr) (kind : Nat) : Bool :=
  let rs := match hdrOf i with
    | some h => readRegs h (uses i)
    | none => []
  match kind with
  | 0 => rs.any (fun r => match r with
    | .v _ => true
    | _ => false)
  | 1 => rs.any (fun r => match r with
    | .s _ => true
    | _ => false)
  | 2 => rs.any (fun r => match r with
    | .p _ => true
    | _ => false)
  | 3 => !(kNames i).isEmpty
  | 4 => true
  | _ => !w.stack.isEmpty

/-- The condition of a precise cause 0x010–0x017, 0x02A–0x02F at the issuing path (R277): what the decoded form or the registers must be. Which
moments the soft errors strike is the event's (log 75). -/
def State.mayStrike (s : State) (cause : Nat) : Bool :=
  if cause < 0x017 then (match s.nextInstr with
    | some i => decide (opClass i = cause - 0x010)
    | none => false)
  else if cause < 0x018 then true
  else if 0x148 ≤ cause then (match s.nextInstr with
    -- the table entry of the FRZ's or the THAW's scope holds an uncorrectable error
    | some (.frz _ sc _ _ _ _) => decide (sc.code = 2 + (cause - 0x148) / 8)
    | some (.thaw _ _ a) => decide ((s.mem.frz.getD ((s.readUni a 1).toNat % 64) FrzEntry.blank).sc = 2 + (cause - 0x148) / 8)
    | _ => false)
  else (match s.nextInstr with
    | some i => readsKind s.cur i (cause - 0x02A)
    | none => false)

/-- A pending result is not written: its register keeps its old value in the lanes it covers, unless a later result has taken its place. -/
def Warp.unwrite (w : Warp) (newer : List Pend) (p : Pend) : Warp :=
  if newer.any (fun q => q.reg == p.reg) then w
  else
    let keep := fun (x : VReg) => Vector.ofFn (fun l : Fin 128 => if p.mask.getLsbD l then p.old[l] else x[l])
    match p.reg with
    | .v n => { w with v := w.v.setIfInBounds n (keep (w.v.getD n (Vector.replicate 128 0))) }
    | .s n => { w with s := w.s.setIfInBounds n (p.old.getD 0 0) }
    | .p n => { w with p := w.p.setIfInBounds n ((w.p.getD n 0 &&& ~~~p.mask) |||
        ((List.range 128).foldl (fun m l => if (p.old.getD l 0) = 0 then m else m ||| (1#128 <<< l)) (0 : Mask) &&& p.mask)) }

/-- Undo the results of one instruction: those pending from its slot on its path. -/
def Warp.undo (w : Warp) (pid : Nat) (epc : DWord) : Warp :=
  let mine := fun (p : Pend) => p.path == pid && p.epc == epc
  let w' := (w.pend.zipIdx.filter (fun x => mine x.1)).foldl (fun (v : Warp) x => v.unwrite (w.pend.take x.2) x.1) w
  { w' with pend := w.pend.filter (fun p => !mine p) }

/-- The unit of the instruction at a slot (R92). -/
def State.unitAt (s : State) (pc : DWord) : Option Unit4 :=
  match fetchLine s (lineAddr pc) with
  | .ok bs => (match decodeWord (slotWord bs (pc.toNat % 5)) with
    | .ok i => some (unitOf i)
    | .error _ => none)
  | _ => none

/-- The units by their number in the residue causes (R277). -/
def Unit4.code : Unit4 → Nat
  | .v => 0
  | .f => 1
  | .u => 2
  | .m => 3

/-- A residue check fails on the `n`-th pending result of the focused warp (R277, R271): the instruction's results are not written, and the
fault names its slot. -/
def State.residueFault (s : State) (n cause : Nat) : State :=
  match s.cur.pend[n]? with
  | none => s
  | some p =>
    if (s.unitAt p.epc).map Unit4.code = some (cause % 4) ∧ (cause - 0x040) / 4 = s.cur.id.slot / 16 then
      (s.modCur (fun w => w.undo p.path p.epc)).post s.cur.id cause p.epc 0 p.path
    else s

/-- The focused warp may take a precise fault of the hardware: it stands between two instructions and its workgroup does not stop for
pre-emption, which takes effect first (R272). -/
def State.standing (s : State) : Bool := decide (s.cur.hold = .none ∧ s.wg.status = .resident)

/-- The location that an address reaches, in global memory or the coherent window. -/
def State.locOf (s : State) (addr : DWord) : Option Nat :=
  match window addr with
  | .glob va => (match walk s s.wg.part va with
    | .ok l => some (l.loc va)
    | .error _ => none)
  | .cwin off => if off < 2 ^ 22 then some (cwBase + off) else none
  | _ => none

/-- A line of a store of the core gets an uncorrectable error (R278, source 2): of the scratchpad at an address; with `place` 1 of a slot, at a
byte of the slots; with 2 of a tile, at a word of the tiles; with 3 the L1's copy of the address's line. -/
def State.spoilCore (s : State) (place : Nat) (addr : DWord) : Option State :=
  let mark := fun (x : Nat) => some { s with wg := { s.wg with bad := x :: s.wg.bad } }
  match place with
  | 1 => if addr.toNat < 20480 * s.wg.kern.oslots then mark (2 ^ 40 + addr.toNat / 64) else none
  | 2 => if addr.toNat < 16384 * s.wg.kern.atiles then mark (2 ^ 41 + addr.toNat / 16) else none
  | 3 => (s.locOf addr).map (fun l => { s with mem := { s.mem with copies := s.mem.copies.map (fun c =>
      if c.core = some s.cur.id.core ∧ c.key = .loc (l / 64) then { c with bytes := [] } else c) } })
  | _ => (match window addr with
    | .spad core off => if core = s.cur.id.core ∧ off < s.wg.kern.scratch then mark (off / 64) else none
    | _ => none)

/-- An uncorrectable error comes about in a line (R278), of a tier, of a store of the core or of a shared store. A store, a write-back or an
engine write that meets it (e 1 and 5) is logged and leaves the line poisoned; any other access takes its cause when it reads the line. With e 7
the address is an HBM4E offset, of a table entry. -/
def State.badLine (s : State) (place cause : Nat) (addr : DWord) : State :=
  let src := (cause - 0x0C0) / 8
  let e := cause % 8
  let log := fun (t : State) => if e = 1 ∨ e = 5 then t.warpEvent 0 cause s.pc addr else t
  if src = 2 then ((s.spoilCore place addr).map log).getD s
  else match (if e = 7 then (if addr.toNat < 2 ^ 39 then some (hbmLoc 0 addr.toNat) else none) else s.locOf addr) with
    | some l => if src = errSource l ∨ src = 3 then log (s.poisonLine l src) else s
    | none => s

/-- A debug comparator is set to an address, or with `path` not 0 switched off (R277, R432), unless the fuse disables access to it. -/
def State.setComparator (s : State) (j path : Nat) (addr : DWord) : State :=
  if Config.debugFused then s
  else { s with mgmt := { s.mgmt with comparators := s.mgmt.comparators.setIfInBounds j (if path = 0 then some addr else none) } }

/-- A fault that the hardware detects in the focused warp (R277); sr.fault is 0 (R275). -/
def State.hardFault (s : State) (path cause : Nat) (addr : DWord) : State :=
  if 0x0C0 ≤ cause ∧ cause < 0x0E0 then s.badLine path cause addr
  else if (0x010 ≤ cause ∧ cause < 0x018) ∨ (0x02A ≤ cause ∧ cause < 0x030) ∨ (0x148 ≤ cause ∧ cause < 0x160 ∧ cause % 8 = 7) then
    (match s.settled with
     | .stop _ _ _ => s
     | .ok t =>
       let t := t.modCur (fun w => { w with issuing := path })
       if s.standing && t.cur.liveIdx.contains path && t.mayStrike cause then t.precise cause 0 else s)
  else if 0x030 ≤ cause ∧ cause < 0x040 then
    (if cause - 0x030 = s.cur.id.slot % 16 ∧ (s.wg.status = .stopping ∨ s.cur.last = .restored) then s.kill cause s.pc 0 else s)
  else if 0x040 ≤ cause ∧ cause < 0x050 then s.residueFault path cause
  else if 0x058 ≤ cause ∧ cause < 0x060 then
    (match s.eng.anvil.find? (fun a => a.id == path && a.started && a.warp == s.cur.id && a.wg == s.wg.key) with
     | none => s
     | some a =>
       let s := s.retireOp a
       let s := { s with wg := { s.wg with live := s.wg.live.filter (fun t => t != a.tile) } }
       let s := match a.op with
         | .mma _ _ _ _ _ _ _ (some k) => s.countDown a.warp k 64 a.epc a.pid
         | _ => s
       s.post a.warp cause a.epc 0 a.pid)
  else s

/-- QUADRANT_ISSUE (R240, R241): a cycle of the quadrant comes next, before anything else moves: `step` has it choose a warp and execute its
instruction (`cycle`). -/
def execQuadrantIssue (core : Nat) (quad : Nat) (s : State) : Host.Outcome State Fault Refusal :=
  .next { s with due := some (core, quad) }

/-- What a register holds, in every lane. -/
def Warp.held (w : Warp) : PReg → VReg
  | .v n => w.v.getD n (Vector.replicate 128 0)
  | .s n => Vector.replicate 128 (w.s.getD n 0)
  | .p n => maskReg (w.p.getD n 0)

/-- FIXED_LATENCY_WRITEBACK (R81): the n-th pending result of a warp is written, and reads give it from now on; it stays pending for the counts
that the checking scoreboard keeps (R83). -/
def execFixedLatencyWriteback (core : Nat) (slot : Nat) (n : Nat) (s : State) : Host.Outcome State Fault Refusal :=
  .next (s.modWarp ⟨core, slot⟩ (fun w => { w with pend := w.pend.modify n (fun p => match p.lat with
    | .fixed _ _ _ => { p with old := w.held p.reg }
    | .var _ _ => p) }))

/-- VARIABLE_RESULT_DONE (R82): an instruction counted in entry `e` is done; entry 0 stands for results that no entry counts. -/
def execVariableResultDone (core : Nat) (slot : Nat) (e : Nat) (s : State) : Host.Outcome State Fault Refusal :=
  .next (s.resultDone ⟨core, slot⟩ e)

/-- SLEEP_WAKE (R159): at least one cycle after the SLEEP issued. -/
def execSleepWake (core : Nat) (slot : Nat) (s : State) : Host.Outcome State Fault Refusal :=
  match s.warpAt ⟨core, slot⟩ with
  | none => .next s
  | some w => match w.hold with
    | .sleep since _ _ => if s.clk ≤ since then .next s else .next ((s.focusOn w.id).wake.focusOn s.cur.id)
    | _ => .next s

/-- YIELD_EXPIRE (R159). -/
def execYieldExpire (core : Nat) (slot : Nat) (s : State) : Host.Outcome State Fault Refusal :=
  match s.warpAt ⟨core, slot⟩ with
  | none => .next s
  | some w => match w.hold with
    | .yield till left => if till ≤ s.clk ∨ left = [] then .next ((s.focusOn w.id).wake.focusOn s.cur.id) else .next s
    | _ => .next s

/-- WARP_SLOT_FREE (R151, R239). -/
def execWarpSlotFree (core : Nat) (slot : Nat) (s : State) : Host.Outcome State Fault Refusal :=
  match s.warpAt ⟨core, slot⟩ with
  | none => .next s
  | some w => match w.status with
    | .ended => if s.warpBusy w then .next s else .next (s.freeWarp w)
    | .killed =>
      let t := s.dropDoomed w
      .next (if t.workLeft w then t else (t.forgetWork w).freeWarp w)
    | _ => .next s

/-- The fault of the hardware, and what it leaves of an issue group: one that strikes before the group's second instruction has issued stops that
(R74). -/
def State.struck (s : State) (path cause : Nat) (addr : DWord) : State :=
  let t := s.hardFault path cause addr
  if s.cur.second && (t.cur.trapMode != s.cur.trapMode || !t.cur.running) then
    { t.groupOver with agenda := t.agenda.eraseP (fun i => (hdrOf i).isSome) }
  else t

/-- TRAP_ENTRY (R162, R271, R277): a fault that the hardware itself detects reaches a warp: a precise or after cause at the live path `path`, an
imprecise residue fault, an anvil check in the operation `path`, or a kill; or a debug comparator is set (R432). -/
def execTrapEntry (core : Nat) (slot : Nat) (path : Nat) (cause : Nat) (fault : DWord) (s : State) : Host.Outcome State Fault Refusal :=
  if 0x018 ≤ cause ∧ cause < 0x020 then .next (s.setComparator (cause - 0x018) path fault) else
  match s.warpAt ⟨core, slot⟩ with
  | none => .next s
  | some w => if w.running then .next (((s.focusOn w.id).struck path cause fault).focusOn s.cur.id) else .next s

/-- IMPRECISE_FAULT_TAKEN (R273, R274). -/
def execImpreciseFaultTaken (core : Nat) (slot : Nat) (s : State) : Host.Outcome State Fault Refusal :=
  match s.warpAt ⟨core, slot⟩ with
  | none => .next s
  | some w =>
    let t := s.focusOn w.id
    if w.running && t.faultDue then
      let u := match t.settled with
        | .ok u => u
        | .stop _ _ _ => t
      (match u.takeFault with
       | .ok v => .next (v.focusOn s.cur.id)
       | .error (p, va) => .next ((u.pathWaits p va).focusOn s.cur.id))
    else .next s

/-- The warp's wait or its trap mode keeps a fault pending (R274). -/
def Warp.keepsFault (w : Warp) : Bool :=
  w.trapMode || (match w.hold with
    | .bar _ _ _ => true
    | .barg _ _ _ => true
    | .syscall _ _ => true
    | _ => false)

/-- The n-th pending fault of a warp that has waited for 1 ms in a wait or in trap mode. -/
def Warp.lateFault (w : Warp) (n now : Nat) : Option PendFault :=
  (w.pendFaults[n]?).bind (fun f => if w.running && w.keepsFault && !f.late && decide (f.since + 1000000 ≤ now) then some f else none)

/-- Mark a pending fault logged. -/
def Warp.markLate (w : Warp) (n : Nat) : Warp := { w with pendFaults := w.pendFaults.modify n (fun f => { f with late := true }) }

/-- PENDING_FAULT_TIMEOUT (R274): 1 ms after its detection a fault that cannot be taken yet is written to the black box, once; also where its
warp has been saved meanwhile. -/
def execPendingFaultTimeout (core : Nat) (slot : Nat) (n : Nat) (s : State) : Host.Outcome State Fault Refusal :=
  let id : WarpId := ⟨core, slot⟩
  match (s.warpAt id).bind (fun w => (w.lateFault n s.time).map (fun f => (w, f))) with
  | some (w, f) =>
    .next ((s.modWarp id (fun w => w.markLate n)).event 0 f.cause (((s.wgOf w.wg).map (fun g => g.part)).getD 255) core slot f.epc f.addr)
  | none =>
    match s.sched.saved.findSome? (fun p => (p.2.find? (fun w => w.id == id)).bind (fun w => (w.lateFault n s.time).map (fun f => (p.1, f)))) with
    | some (g, f) => .next ((s.modSaved id g.key (fun w => w.markLate n)).event 0 f.cause g.part core slot f.epc f.addr)
    | none => .next s

/-- REMOTE_ROLLBACK (R194): at a boundary, out of trap mode, once every remote operation of the region is answered. -/
def execRemoteRollback (core : Nat) (slot : Nat) (s : State) : Host.Outcome State Fault Refusal :=
  match s.warpAt ⟨core, slot⟩ with
  | none => .next s
  | some w =>
    let t := s.focusOn w.id
    if w.running && (w.region.bind (fun r => r.failed)).isSome && !s.regionBusy w.id && t.atBoundary then
      .next (t.wake.rollback.focusOn s.cur.id)
    else .next s

/-- An entry taken into a TLB in place of an older one of its page: 256 of a core, 16,384 of a hearth, the oldest giving way (R268). -/
def addTlb (e : TlbEntry) (ts : List TlbEntry) : List TlbEntry :=
  let mine := fun (x : TlbEntry) => x.core == e.core && x.hearth == e.hearth
  limitTo (if e.core.isSome then 256 else 16384) mine
    (e :: ts.filter (fun x => !(mine x && x.asid == e.asid && x.va == e.va && x.size == e.size)))

/-- PAGE_WALK (R264, R268): a walker puts the leaf of a valid page into the TLBs of the focused warp's core and of its hearth. A table line that
holds an uncorrectable error is logged (R278, e 7). -/
def execPageWalk (part : Nat) (va : DWord) (s : State) : Host.Outcome State Fault Refusal :=
  let asid := (s.part part).asid
  match walk s part va.toNat with
  | .error f => .next (if f = 5 then s.logTable part s.cur.id.core 255 0 va [(part, va.toNat)] else s)
  | .ok l =>
    let e : TlbEntry := { core := none, hearth := hearthOf s.cur.id.core, asid := asid, va := va.toNat / 2 ^ l.size, size := l.size,
                          leaf := BitVec.ofNat 64 l.w, at_ := l.at_ }
    .next { s with mem := { s.mem with tlb := addTlb { e with core := some s.cur.id.core } (addTlb e s.mem.tlb) } }

end Sys2Proof.Machine
end

