-- ==== Sys2Proof/Machine/Sched.lean ====
section
/-! DEFINITION. The scheduler's operations: launch record and kernel descriptor checks (R63, R64, R230, R232), the size-class selector
(R402, R403), the resources of a core and placement (R228, R234–R236), the state of a dispatched workgroup (R39, R237). -/
namespace Sys2Proof.Machine

/-! ## Records -/

/-- Zero bytes throughout a range of a record. -/
def zeroAt (bs : List Byte) (off len : Nat) : Bool := recField bs off len == 0

/-- Workgroups of a record's grid (R230, R233). -/
def Rec.grid (r : Rec) : Nat := r.f 16 4 * r.f 20 4 * r.f 24 4
/-- Warps of a workgroup. -/
def Rec.wgw (r : Rec) : Nat := r.f 28 1
/-- Gang size. -/
def Rec.gangSize (r : Rec) : Nat := r.f 29 1
/-- The co-resident flag (R231). -/
def Rec.coResident (r : Rec) : Bool := (r.f 30 1).testBit 1

/-- Checks 1 and 2 of R232, with the join rule of R408: the cause of the first that fails. -/
def recordFault (r : Rec) : Option Nat :=
  if !(zeroAt r.bytes 31 1) || decide (8 ≤ r.f 30 1) || !(zeroAt r.bytes 200 56) then some 0x163
  else if r.f 0 8 % 128 ≠ 0 ∨ 2 ^ 32 ≤ r.grid ∨ r.wgw = 0 ∨ 16 < r.wgw ∨ r.gangSize = 0 ∨ 16 < r.gangSize ∨
      r.f 104 8 % 8 ≠ 0 ∨ 256 < r.f 116 4 ∨ r.f 120 8 % 8 ≠ 0 ∨ (r.f 116 4 = 0 ∧ r.f 120 8 ≠ 0) ∨
      ((r.f 104 8 = 0) ≠ (r.f 112 4 = 0)) ∨ [160, 168, 176, 184, 192].any (fun o => r.f o 8 % 8 != 0) then some 0x164
  else none

/-- The kernel descriptor's fields (R63). -/
def kernelOf (b : List Byte) : Kernel :=
  let f := recField b
  { entry := BitVec.ofNat 64 (f 0 8), handler := BitVec.ofNat 64 (f 32 8), vregs := 8 * f 8 1, sregs := 8 * f 9 1, scratch := f 12 4,
    oslots := f 16 1, atiles := f 17 1, ports := BitVec.ofNat 8 (f 18 1), dspill := f 20 4, priv := f 24 4 }

/-- Warps of a workgroup of W warps in quadrant q (R228). -/
def quadCount (w q : Nat) : Nat := (w + 3 - q) / 4

/-- The check of a kernel descriptor for workgroups of W warps (R64): the lowest cause that applies. -/
def kernelFault (b : List Byte) (w : Nat) : Option Nat :=
  let k := kernelOf b
  if !(zeroAt b 10 2) || !(zeroAt b 19 1) || !(zeroAt b 28 4) || !(zeroAt b 40 88) then some 0x160
  else if k.vregs = 0 ∨ 240 < k.vregs ∨ k.sregs = 0 ∨ 128 < k.sregs ∨ k.scratch % 128 ≠ 0 ∨ 2 ^ 20 < k.scratch ∨ 64 < k.oslots ∨
      16 < k.atiles ∨ 992 < k.dspill ∨ k.priv % 16 ≠ 0 ∨ 65536 < k.priv ∨ k.priv < 48 * k.dspill then some 0x161
  else if 512 < quadCount w 0 * k.vregs then some 0x162
  else none

/-- The first format slot that fails R31. -/
def fslotFault (r : Rec) : Option Nat :=
  ((List.range 8).find? (fun n => !fslotOk (BitVec.ofNat 64 (r.f (32 + 8 * n) 8)))).map (fun n => 0x050 + n)

/-- An address lies in window 0x00. -/
def inGlob (a : Nat) : Bool := decide (a < 2 ^ 56)

/-- A size-class table's bytes meet R402; `vs` are its variants: CAP, GRIDX, KDESC. -/
def classTableOk (b : List Byte) (vs : List (Nat × Nat × Nat)) : Bool :=
  inGlob (recField b 0 8) && decide (recField b 0 8 % 4 = 0) && zeroAt b 9 7 && decide (recField b 16 8 % 4 = 0) && zeroAt b 24 8 &&
  (vs.zip (vs.drop 1)).all (fun p => decide (p.1.1 < p.2.1)) && vs.all (fun v => inGlob v.2.2 && decide (v.2.2 % 128 = 0))

/-- Where the overflow word stands (R402, R403), for which the spec names no window: window 0x00, rank form naming this device or the
coherent window, whatever a store reaches without a core (log 92). -/
def State.storeTargets (s : State) (part : Nat) (a : DWord) : EngRes (List Target) :=
  match engTargets (s.ctlView part) 1 a 4 with
  | .ok ts => if ts.any (fun t => t.isRemote || (s.memError 0 t).isSome) then .fault 0 a else .ok ts
  | r => r

/-- The selector (R402, R403): the record with KDESC and GRIDX of its variant, or 0x178. -/
def State.selectClass (s : State) (part : Nat) (r : Rec) : EngRes (Rec × State) :=
  let a := r.f 96 8
  let bad : EngRes (Rec × State) := .fault 0x178 r.addr
  if a % 64 ≠ 0 then bad else
  -- one read of each line: the first holds the head and two variants
  (s.ctlGet part 0x178 (BitVec.ofNat 64 a) 64).andThen (fun (hd, s) =>
    let n := recField hd 8 1
    if n = 0 ∨ 8 < n then bad else
    (if n ≤ 2 then EngRes.ok ([], s) else s.ctlGet part 0x178 (BitVec.ofNat 64 (a + 64)) (16 * (n - 2))).andThen (fun (more, s) =>
      let vb := hd.drop 32 ++ more
      let vs := (List.range n).map (fun i => (recField vb (16 * i) 4, recField vb (16 * i + 4) 4, recField vb (16 * i + 8) 8))
      if !classTableOk hd vs then bad else
      (s.ctlGet part 0x178 (BitVec.ofNat 64 (recField hd 0 8)) 4).andThen (fun (cb, s) =>
        let c := leNat cb
        let put := fun (v : Nat × Nat × Nat) => ({ r with bytes := leBytes 8 v.2.2 ++ (r.bytes.drop 8).take 8 ++ leBytes 4 v.2.1 ++ r.bytes.drop 20 } : Rec)
        match vs.find? (fun v => decide (c ≤ v.1)) with
        | some v => .ok (put v, s)
        | none =>
          let ov := BitVec.ofNat 64 (recField hd 16 8)
          let last := fun (s : State) => match vs.getLast? with
            | some v => EngRes.ok (put v, s)
            | none => bad
          if ov = 0 then last s
          else match s.storeTargets part ov with
            | .wait p va => .wait p va
            | .ok ts => last (if s.anyFrozen ts then s else s.writeWord ts (leBytes 4 1))
            | .fault c b => last (if isWalkError c then s.logTable part 255 255 0 b (s.walked 0 part b) else s))))

/-! ## Resources of a core -/

/-- What a workgroup takes of its core (R234). -/
structure Claim where
  core : Nat
  /-- warps in each quadrant -/
  warps : List Nat
  vregs : Nat
  spad : Nat
  scratch : Nat
  slot : Nat
  oslots : Nat
  tile : Nat
  atiles : Nat
  deriving DecidableEq, Repr

/-- The claim of a workgroup that the device holds: one that has released all but its scratchpad range keeps only that (R239). -/
def Wgroup.claim (g : Wgroup) : Claim :=
  if g.released then
    { core := g.core, warps := [], vregs := 0, spad := g.spadBase, scratch := g.kern.scratch, slot := 0, oslots := 0, tile := 0, atiles := 0 }
  else
  { core := g.core, warps := (List.range 4).map (quadCount g.wgsize), vregs := g.kern.vregs, spad := g.spadBase, scratch := g.kern.scratch, slot := g.slotBase,
    oslots := g.kern.oslots, tile := g.tileBase, atiles := g.kern.atiles }

/-- The claims standing on the device's cores. -/
def State.claims (s : State) : List Claim := (s.allWgs.filter (fun g => g.key != 0)).map Wgroup.claim

/-- Warp slots that saved warps of a partition left (R416, R418): their private arenas (R422) hold saved bytes, so no other warp of the
partition takes them (log 43). -/
def State.keptSlots (s : State) (part : Nat) : List Claim :=
  (s.sched.saved.filter (fun p => p.1.part == part)).map (fun p =>
    { core := p.1.core, warps := (List.range 4).map (fun q => (p.2.filter (fun w => w.id.slot / 16 == q)).length), vregs := 0, spad := 0,
      scratch := 0, slot := 0, oslots := 0, tile := 0, atiles := 0 })

/-- The lowest range of `need` units free among `used` within `cap`. -/
def firstFit (cap need : Nat) (used : List (Nat × Nat)) : Option Nat :=
  if need = 0 then some 0 else
  let fits := fun (b : Nat) => decide (b + need ≤ cap) && used.all (fun r => decide (b + need ≤ r.1 ∨ r.1 + r.2 ≤ b ∨ r.2 = 0))
  ((0 :: used.map (fun r => r.1 + r.2)).filter fits).foldl (fun m b => match m with
    | none => some b
    | some x => some (min x b)) none

/-- The claim of one more workgroup on a core, if the core has all of R234 free. -/
def claimOn (cs : List Claim) (core : Nat) (k : Kernel) (w : Nat) : Option Claim :=
  let here := cs.filter (fun c => c.core == core)
  let sum := fun (f : Claim → Nat) => (here.map f).foldl (· + ·) 0
  if (List.range 4).all (fun q => decide (sum (fun c => c.warps.getD q 0) + quadCount w q ≤ 16) &&
      decide (sum (fun c => c.warps.getD q 0 * c.vregs) + quadCount w q * k.vregs ≤ 512)) then
    match firstFit (2 ^ 20) k.scratch (here.map (fun c => (c.spad, c.scratch))), firstFit 64 k.oslots (here.map (fun c => (c.slot, c.oslots))),
        firstFit 16 k.atiles (here.map (fun c => (c.tile, c.atiles))) with
    | some a, some b, some c => some { core := core, warps := (List.range 4).map (quadCount w), vregs := k.vregs, spad := a, scratch := k.scratch, slot := b, oslots := k.oslots, tile := c, atiles := k.atiles }
    | _, _, _ => none
  else none

/-- The rectangle of a gang (R235): rows and columns. -/
def gangRect (g : Nat) : Nat × Nat := if g ≤ 8 then (1, g) else (2, (g + 1) / 2)

/-- Claims for every core of a list, each on top of the standing ones. -/
def claimAll (cs : List Claim) (cores : BitVec 192) (k : Kernel) (w : Nat) : List Nat → Option (List Claim)
  | [] => some []
  | c :: r =>
    if !cores.getLsbD c then none
    else match claimOn cs c k w, claimAll cs cores k w r with
      | some x, some xs => some (x :: xs)
      | _, _ => none

/-- Place a gang (R235): hearths ascending, origins in row-major order, the first rectangle whose cores all have room; the claims of
its members. -/
def placeGang (cs : List Claim) (cores : BitVec 192) (hearths : List Nat) (k : Kernel) (w g : Nat) : Option (List Claim) :=
  let rc := gangRect g
  hearths.findSome? (fun h => (List.range 48).findSome? (fun o =>
    let r := o / 8
    let c := o % 8
    if r + rc.1 ≤ 6 ∧ c + rc.2 ≤ 8 then
      let xs := (List.range (rc.1 * rc.2)).map (fun i => 48 * h + 8 * (r + i / rc.2) + (c + i % rc.2))
      (claimAll cs cores k w xs).map (fun l => l.take g)
    else none))

/-- Place a number of gangs, each against what the earlier leave (R236). -/
def placeGangs (cs : List Claim) (cores : BitVec 192) (hearths : List Nat) (k : Kernel) (w g : Nat) : Nat → Option (List (List Claim))
  | 0 => some []
  | n + 1 =>
    match placeGang cs cores hearths k w g with
    | none => none
    | some l => (placeGangs (l ++ cs) cores hearths k w g n).map (fun r => l :: r)

/-- The hearths open to a core mask (R422). -/
def openHearths (cores : BitVec 192) : List Nat := (List.range 4).filter (fun h => (List.range 48).any (fun i => cores.getLsbD (48 * h + i)))

/-- Check 7 of R232: what the launch needs at once has room on the empty cores of its partition, and an arena holds its warps. -/
def fitsAlone (p : Part) (r : Rec) (k : Kernel) : Bool :=
  let n := r.grid / r.gangSize
  decide (k.priv * 128 ≤ p.privStride.toNat) &&
  (n == 0 || (placeGangs [] p.cores (openHearths p.cores) k r.wgw r.gangSize (if r.coResident then n else 1)).isSome)

/-- Read and check a record as its queue dispatches it (R232, R403): the record after the selector, and its kernel; or a cause; or what
it has to wait for (R365). -/
def State.checkRecord (s : State) (part : Nat) (r : Rec) : EngRes (Rec × Kernel × State) :=
  match recordFault r with
  | some c => .fault c r.addr
  | none =>
    (if r.f 96 8 = 0 then EngRes.ok (r, s) else s.selectClass part r).andThen (fun (r, s) =>
      (s.ctlGet part 0x165 (BitVec.ofNat 64 (r.f 0 8)) 128).andThen (fun (b, s) =>
        match kernelFault b r.wgw with
        | some c => .fault c r.addr
        | none => match fslotFault r with
          | some c => .fault c r.addr
          | none =>
            if r.grid % r.gangSize ≠ 0 then .fault 0x166 r.addr
            else if !fitsAlone (s.part part) r (kernelOf b) then .fault 0x167 r.addr
            else .ok (r, kernelOf b, s)))

/-! ## A workgroup at dispatch -/

/-- Put a warp on its slot. -/
def State.addWarp (s : State) (w : Warp) : State :=
  let rest := s.warps.filter (fun x => x.id != w.id)
  if s.cur.id = w.id then { s with cur := w } else { s with warps := rest ++ [w] }

/-- The warp slots of a quadrant of a core free to a partition, ascending: those that no saved warp left first, and none that a saved warp of
its own left (log 43). -/
def State.freeSlots (s : State) (part core q : Nat) : List Nat :=
  let free := ((List.range 16).map (fun i => 16 * q + i)).filter (fun n =>
    !(s.allWarps.any (fun w => w.id.core == core && w.id.slot == n && decide (w.status ≠ .free))))
  let left := fun (own : Bool) (n : Nat) => s.sched.saved.any (fun p => (p.1.part == part) == own && p.2.any (fun w => w.id.core == core && w.id.slot == n))
  let free := free.filter (fun n => !left true n)
  free.filter (fun n => !left false n) ++ free.filter (left false)

/-- The private arena of a warp slot (R422). -/
def Part.arena (p : Part) (core slot : Nat) : DWord := p.privBase + BitVec.ofNat 64 (64 * core + slot) * p.privStride

/-- A fresh warp (R39): its PC stands at ENTRY, an arrival. -/
def freshWarp (p : Part) (g : Wgroup) (r : Rec) (w slot : Nat) : Warp :=
  let args := BitVec.ofNat 64 (r.f 8 8)
  { Warp.blank with
    id := ⟨g.core, slot⟩
    wg := g.key
    index := w
    status := .running
    s := (((Warp.blank.s.setIfInBounds 0 (args.truncate 32)).setIfInBounds 1 ((args >>> 32).truncate 32)).setIfInBounds 2 (r.addr.truncate 32)).setIfInBounds 3 ((r.addr >>> 32).truncate 32)
    base := { Path.blank with pc := g.kern.entry, mask := Mask.full, creation := Mask.full, arr := some 0 }
    arena := p.arena g.core slot }

/-- A workgroup at dispatch (R230, R231, R233, R237). -/
def freshWg (l : Launch) (id key : Nat) (c : Claim) : Wgroup :=
  let r := l.record
  let gx := max 1 (r.f 16 4)
  let gy := max 1 (r.f 20 4)
  { Wgroup.blank with
    key := key
    launch := l.key
    part := l.part
    core := c.core
    prio := l.prio
    linear := id
    x := BitVec.ofNat 32 (id % gx)
    y := BitVec.ofNat 32 (id / gx % gy)
    z := BitVec.ofNat 32 (id / (gx * gy))
    wgsize := r.wgw
    gangSize := r.gangSize
    kern := l.kern
    check := (r.f 30 1).testBit 2
    idem := (r.f 30 1).testBit 0
    fs := Vector.ofFn (fun i : Fin 8 => BitVec.ofNat 64 (r.f (32 + 8 * i.val) 8))
    phase := BitVec.ofNat 32 (r.f 144 8)
    spadBase := c.spad
    slotBase := c.slot
    tileBase := c.tile
    status := .resident }

/-- Dispatch one workgroup onto its claim (R228, R237): an acquire at .dev on its core (R407). -/
def State.startWg (s : State) (l : Launch) (id : Nat) (c : Claim) : State :=
  let g := freshWg l id s.sched.nextWg c
  let s := { s with wgs := s.wgs ++ [g], sched := { s.sched with nextWg := s.sched.nextWg + 1 } }
  let free := (List.range 4).map (fun q => s.freeSlots l.part c.core q)
  let ws := (List.range g.wgsize).map (fun w => freshWarp (s.part l.part) g l.record w ((free.getD (w % 4) []).getD (w / 4) (16 * (w % 4))))
  (ws.foldl (fun s w => s.addWarp w) s).acquireL1 c.core

/-- Dispatch a gang in one step: its members in order, with fresh gang barriers (R233, R237). -/
def State.startGang (s : State) (l : Launch) (j : Nat) (cs : List Claim) : State :=
  let rest := s.sched.gangs.filter (fun x => !(x.launch == l.key && x.index == j))
  let s := { s with sched := { s.sched with gangs := rest ++ [{ launch := l.key, index := j, bars := Vector.replicate 8 Barrier.blank }] } }
  cs.zipIdx.foldl (fun s x => s.startWg l (j * l.record.gangSize + x.2) x.1) s

end Sys2Proof.Machine
end

