-- ==== Sys2Proof/Machine/SchedEv.lean ====
section
/-! DEFINITION. The steps of scheduling: records at the front of a queue and the join pool (R408, R409), dispatch and reservations (R410),
the end of a workgroup (R239, R411), the completion of a launch (R412), the time limit (R422). -/
namespace Sys2Proof.Machine

/-! ## Queues and the pool -/

/-- The records a queue holds, oldest first. -/
def State.held (s : State) (q : Nat) : List Rec := ((s.sched.queues.find? (fun x => x.1 == q)).map (fun x => x.2)).getD []

/-- Replace the records a queue holds. -/
def State.setHeld (s : State) (q : Nat) (rs : List Rec) : State :=
  let rest := s.sched.queues.filter (fun x => x.1 != q)
  { s with sched := { s.sched with queues := if rs = [] then rest else (q, rs) :: rest } }

/-- The launch of a queue that has begun placement and still has workgroups to place (R409, R410). -/
def State.placing (s : State) (q : Nat) : Option Launch :=
  s.sched.launches.find? (fun l => l.queue == q && !l.cancelled && l.started.isSome && decide (l.next < l.total))

/-- A launch read from the pool, or from the front of its queue, of which nothing is placed yet (R409, R410). -/
def State.unplaced (s : State) (q : Nat) (pooled : Bool) : Option Launch :=
  s.sched.launches.find? (fun l => l.queue == q && !l.cancelled && l.started.isNone && l.pooled == pooled)

/-- The record at the front of a queue is read (R408): one that names a join counter moves to the pool, or is rejected. -/
def State.readFront (s : State) (q : Nat) : State :=
  if s.mgmt.recovery then s else
  match s.held q with
  | [] => s
  | r :: rest =>
    let part := s.queuePart q
    if (r.f 104 8 = 0 ∧ r.f 112 4 = 0) ∨ (s.placing q).isSome ∨ (s.unplaced q false).isSome then s
    else match recordFault r with
      | some c => (s.setHeld q rest).cancelRec part r c
      | none =>
        if 4096 ≤ s.sched.pool.length then s
        else match s.ctlBlocked part 0 (BitVec.ofNat 64 (r.f 104 8)) 4 with
        | some (p, va) => s.wantOwner p va
        | none => match s.ctlTargets part 0 (BitVec.ofNat 64 (r.f 104 8)) 4 with
          | none => ((s.ctlLog part 0 (BitVec.ofNat 64 (r.f 104 8)) 4).setHeld q rest).cancelRec part r 0x164
          | some ts =>
            let (bs, t) := s.engBytes 0 0 [] ts
            let j := leNat bs
            if r.f 112 4 < j then (t.setHeld q rest).cancelRec part r 0x164
            else
              let loc := match ts.head? with
                | some (.loc l _) => l
                | _ => 0
              let p : Parked := { record := r, queue := q, loc := loc, ready := decide (j = 0), cancelled := none }
              let t := t.setHeld q rest
              let ready := t.sched.pool.filter (fun x => x.ready)
              let others := t.sched.pool.filter (fun x => !x.ready)
              { t with sched := { t.sched with pool := if p.ready then ready ++ p :: others else t.sched.pool ++ [p] } }

/-! ## Dispatch -/

/-- A candidate of R410. -/
inductive Cand where
  | launch (l : Launch)
  | pooled (p : Parked)
  | front (r : Rec)

/-- The candidates of a queue (R409, R410, R417): launches with discarded workgroups to dispatch again, then the launch being placed, or
the first ready record of the pool, or the record at the front. -/
def State.candsOf (s : State) (q : Nat) : List Cand :=
  let redo := (s.sched.launches.filter (fun l => l.queue == q && !l.cancelled && decide (l.redo ≠ []))).map Cand.launch
  let next := match s.placing q with
    | some l => if l.redo = [] then [Cand.launch l] else []
    | none => match s.unplaced q true, s.sched.pool.find? (fun p => p.ready && p.queue == q), s.unplaced q false with
      | some l, _, _ => [Cand.launch l]
      | none, some p, _ => [Cand.pooled p]
      | none, none, some l => [Cand.launch l]
      | none, none, none => match s.held q with
        | r :: _ => if r.f 104 8 = 0 ∧ r.f 112 4 = 0 then [Cand.front r] else []
        | [] => []
  redo ++ next

/-- The next workgroups of a launch to place in one step: the first gang index and how many gangs (R233, R236, R417). -/
def Launch.nextGangs (l : Launch) : Nat × Nat :=
  let g := max 1 l.record.gangSize
  match l.redo with
  | i :: r => (r.foldl min i / g, 1)
  | [] => (l.next / g, if l.record.coResident then l.total / g else 1)

/-- The hearths on which a launch may place nothing now: those that waiting candidates of a higher priority reserve, and those of its own
priority whose reservation is older than its own (R410). -/
def State.reservedFor (s : State) (l : Launch) : List Nat :=
  let older := s.sched.reserve.takeWhile (fun r => r.2.2 != l.key)
  ((s.sched.reserve.filter (fun r => r.2.2 != l.key && (decide (l.prio < r.1) || (decide (l.prio = r.1) && older.contains r)))).filter (fun r =>
    s.sched.launches.any (fun x => x.key == r.2.2 && !x.cancelled))).flatMap (fun r => r.2.1)

/-- Replace a launch. -/
def State.setLaunch (s : State) (l : Launch) : State :=
  { s with sched := { s.sched with launches := s.sched.launches.map (fun x => if x.key = l.key then l else x) } }

/-- Place a launch's next gang or whole grid, if it can be placed (R235, R236, R410). -/
def State.placeLaunch (s : State) (l : Launch) : Option State :=
  let p := s.part l.part
  let g := max 1 l.record.gangSize
  let (j, n) := l.nextGangs
  let hs := (openHearths p.cores).filter (fun h => !(s.reservedFor l).contains h)
  match placeGangs (s.claims ++ s.keptSlots l.part) p.cores hs l.kern l.record.wgw g n with
  | none => none
  | some gs =>
    let redo := l.redo.filter (fun i => i / g != j)
    let l' : Launch := { l with redo := redo, next := if l.redo = [] then l.next + n * g else l.next
                                started := some (l.started.getD s.time), waiting := none }
    let s := s.setLaunch l'
    let s := { s with sched := { s.sched with reserve := s.sched.reserve.filter (fun r => r.2.2 != l.key) } }
    some (gs.zipIdx.foldl (fun s x => s.startGang l' (j + x.2) x.1) s)

/-- A launch that cannot be placed waits from now on (R410). -/
def State.markWaiting (s : State) (l : Launch) : State := s.setLaunch { l with waiting := some (l.waiting.getD s.clk) }

/-- Read a record to dispatch it (R232): rejected, complete at once with no workgroup, or begun, and placed as far as it can be. The error
is the transfer that a read of it has to wait for (R365). -/
def State.beginRec (s : State) (q : Nat) (r : Rec) (pooled : Bool) : Except (Nat × Nat) State :=
  let part := s.queuePart q
  match s.checkRecord part r with
  | .wait p va => .error (p, va)
  | .fault c a => .ok ((if (c = 0x165 ∨ c = 0x178) ∧ a ≠ r.addr then s.ctlLog part 0 a 4 else s).cancelRec part r c)
  | .ok (r, k, s) => .ok <|
    if r.grid = 0 then s.finishRec part r 0 false
    else
      let l : Launch := { key := s.sched.nextLaunch, record := r, queue := q, part := part, prio := (s.mgmt.queues.getD q QReg.blank).prio, kern := k, next := 0, total := r.grid, redo := [], done := 0, cancelled := false, cause := 0, started := none, pooled := pooled, waiting := none }
      let s := { s with sched := { s.sched with nextLaunch := s.sched.nextLaunch + 1, launches := s.sched.launches ++ [l] } }
      (s.placeLaunch l).getD (s.markWaiting l)

/-- Try the candidates in order: the state, and the queue whose candidate moved. -/
def State.tryCands (s : State) : List (Nat × Cand) → State × Option Nat
  | [] => (s, none)
  | (q, .launch l) :: r =>
    (match s.placeLaunch l with
     | some t => (t, some q)
     | none => (s.markWaiting l).tryCands r)
  | (q, .pooled p) :: r =>
    (match ({ s with sched := { s.sched with pool := s.sched.pool.erase p } }).beginRec q p.record true with
     | .ok t => (t, some q)
     | .error (p, va) => (s.wantOwner p va).tryCands r)
  | (q, .front x) :: r =>
    (match (s.setHeld q ((s.held q).drop 1)).beginRec q x false with
     | .ok t => (t, some q)
     | .error (p, va) => (s.wantOwner p va).tryCands r)

/-- Dispatch the candidate of the highest priority that can be placed, queues of one priority in rotation (R410). -/
def State.dispatch (s : State) : State :=
  if s.mgmt.recovery then s else
  let qs := (List.range 256).map (fun i => (s.sched.rotor + i) % 256)
  let live := qs.filter (fun q => (s.part (s.queuePart q)).enable)
  let cands := live.flatMap (fun q => (s.candsOf q).map (fun c => (q, c)))
  let prio := fun (q : Nat) => (s.mgmt.queues.getD q QReg.blank).prio
  let order := ((List.range 8).map (fun i => cands.filter (fun c => prio c.1 == 7 - i))).flatten
  match s.tryCands order with
  | (t, some q) => { t with sched := { t.sched with rotor := (q + 1) % 256 } }
  | (t, none) => t

/-! ## Ends -/

/-- An address lies in the gang window of a member (R252). -/
def namesMember (pos : Nat) (a : DWord) : Bool :=
  match window a with
  | .gang m _ => m == pos
  | _ => false

/-- A command issued before a member ended still has accesses to make to its scratchpad (R239). -/
def Cmd.namesMember (c : Cmd) (key pos : Nat) : Bool :=
  (match c.kind with
   | .copy _ _ base cont _ => decide (c.todo ≠ []) && (Machine.namesMember pos base || (match cont with
     | .addr a => Machine.namesMember pos a
     | .slot _ => false))
   | _ => false) ||
  c.pieces.any (fun p => p.bytes.any (fun b => Machine.namesMember pos b.2.1 || (match b.1 with
    | .spad wg _ => wg == key
    | _ => false)))

/-- A workgroup that has ended may release its resources but for its scratchpad range (R239). -/
def State.wgIdle (s : State) (g : Wgroup) : Bool :=
  !g.here && decide (g.status ≠ .saved) && g.key != 0 &&
  !(s.allWarps.any (fun w => w.wg == g.key && decide (w.status ≠ .free))) &&
  !(s.eng.anvil.any (fun a => a.wg == g.key)) && !(s.eng.cmds.any (fun c => c.wg == g.key))

/-- It may release its scratchpad range too: the gang-window accesses of other members have been performed (R239). -/
def State.wgDone (s : State) (g : Wgroup) : Bool :=
  s.wgIdle g && !(s.eng.cmds.any (fun c => decide (c.id < g.endId) && (match s.wgOf c.wg with
    | some x => x.launch == g.launch && x.gang == g.gang && c.namesMember g.key (g.linear % max 1 g.gangSize)
    | none => false)))

/-- Release a workgroup and count it (R239, R411). -/
def State.endWg (s : State) (g : Wgroup) : State :=
  let s := if s.wg.key = g.key then { s with wg := Wgroup.blank } else { s with wgs := s.wgs.filter (fun x => x.key != g.key) }
  match s.sched.launches.find? (fun l => l.key == g.launch) with
  | none => s
  | some l =>
    let c := decide (g.status = .cancelled)
    (s.setLaunch { l with done := l.done + 1 }).control [.count g.part (l.record.f 160 8) (if c then g.endCause else 0) c]

/-- A launch completes (R412): every workgroup has ended and is released, or the launch is cancelled and none is left, and every remote write of
its warps has been acknowledged (R346). -/
def State.launchDone (s : State) (l : Launch) : Bool :=
  (l.cancelled || (decide (l.total ≤ l.next) && decide (l.redo = []))) &&
  !(s.allWgs.any (fun g => g.key != 0 && g.launch == l.key)) && !(s.sched.saved.any (fun p => p.1.launch == l.key)) &&
  !(s.fab.ops.any (fun o => o.launch == l.key && o.changes && !(s.acked o)))

/-- LAUNCH_QUEUE_FRONT (R408). -/
def execLaunchQueueFront (q : Nat) (s : State) : Host.Outcome State Fault Refusal :=
  .next (s.readFront q)

/-- LAUNCH_DISPATCH (R410). -/
def execLaunchDispatch (s : State) : Host.Outcome State Fault Refusal :=
  .next s.dispatch

/-- DISPATCH_RESERVATION (R410): the candidate of a queue that has waited 2^20 cycles reserves the hearths open to its partition. -/
def execDispatchReservation (q : Nat) (s : State) : Host.Outcome State Fault Refusal :=
  match s.sched.launches.find? (fun l => l.queue == q && !l.cancelled && (match l.waiting with
      | some t => decide (2 ^ 20 ≤ s.clk - t)
      | none => false) && !(s.sched.reserve.any (fun r => r.2.2 == l.key))) with
  | none => .next s
  | some l => .next { s with sched := { s.sched with reserve := s.sched.reserve ++ [(l.prio, openHearths (s.part l.part).cores, l.key)] } }

/-- WORKGROUP_END (R239, R411): the scratchpad range of a workgroup may be released after the rest. -/
def execWorkgroupEnd (wg : Nat) (s : State) : Host.Outcome State Fault Refusal :=
  match s.wgOf wg with
  | none => .next s
  | some g => .next (if s.wgDone g then s.endWg g else if s.wgIdle g then s.modWg g.key (fun g => { g with released := true }) else s)

/-- LAUNCH_COMPLETE (R412). -/
def execLaunchComplete (l : Nat) (s : State) : Host.Outcome State Fault Refusal :=
  match s.sched.launches.find? (fun x => x.key == l) with
  | none => .next s
  | some x =>
    if !s.launchDone x then .next s
    else
      let s := { s with sched := { s.sched with
        launches := s.sched.launches.filter (fun y => y.key != l)
        gangs := s.sched.gangs.filter (fun y => y.launch != l)
        reserve := s.sched.reserve.filter (fun r => r.2.2 != l) } }
      .next (s.finishRec x.part x.record x.cause x.cancelled)

/-- TIME_LIMIT_EXPIRY (R422). -/
def execTimeLimitExpiry (l : Nat) (s : State) : Host.Outcome State Fault Refusal :=
  match s.sched.launches.find? (fun x => x.key == l) with
  | none => .next s
  | some x =>
    match x.started with
    | none => .next s
    | some t =>
      let lim := (s.part x.part).tlimit.toNat
      if lim = 0 ∨ x.cancelled ∨ s.time - t < lim * 1000000 then .next s
      else .next ((s.cancelLaunch l 0x17D).event 2 0x17D x.part 255 255 0 0)

end Sys2Proof.Machine
end

