-- ==== Sys2Proof/Machine/PreemptEv.lean ====
section
/-! DEFINITION. Pre-emption (R415–R419): the request, saving or discarding a drained gang (R404, R416, R417, R320), restoring it (R418). -/
namespace Sys2Proof.Machine

/-- The members of a workgroup's gang that the device holds and that are stopping. -/
def State.stoppingGang (s : State) (g : Wgroup) : List Wgroup :=
  s.allWgs.filter (fun x => x.key != 0 && x.launch == g.launch && x.gang == g.gang && decide (x.status = .stopping))

/-- Requests whose workgroups have all been saved or discarded, or have ended, are complete (R415, R425). -/
def State.settlePreempts (s : State) : State :=
  let open_ := fun (k : Nat) => s.allWgs.any (fun g => g.key == k && decide (g.status = .stopping))
  let ps := s.sched.preempts.map (fun p => (p.1, p.2.filter open_))
  let ended := (ps.filter (fun p => p.2 == [])).map (fun p => p.1)
  let left := ps.filter (fun p => p.2 != [])
  let s := { s with sched := { s.sched with preempts := left } }
  ended.foldl (fun (s : State) p =>
    if left.any (fun x => x.1 == p) then s
    else ({ s with mgmt := { s.mgmt with parts := s.mgmt.parts.setIfInBounds p { s.part p with preemptBusy := false } } }).interrupt p 3) s

/-- Stop the workgroups of a partition on cores, with the whole gang of each (R415). -/
def State.stopCores (s : State) (part : Nat) (named : Nat → Bool) : State :=
  let hit := s.allWgs.filter (fun g => g.key != 0 && g.part == part && decide (g.status = .resident) && named g.core)
  let mine := fun (g : Wgroup) => decide (g.status = .resident) && hit.any (fun h => h.launch == g.launch && h.gang == g.gang)
  let keys := (s.allWgs.filter mine).map (fun g => g.key)
  let stop := fun (g : Wgroup) => if keys.contains g.key then { g with status := .stopping } else g
  { s with
    wg := stop s.wg
    wgs := s.wgs.map stop
    sched := { s.sched with preempts := s.sched.preempts ++ [(part, keys)] }
    mgmt := { s.mgmt with parts := s.mgmt.parts.setIfInBounds part { s.part part with preemptBusy := true } } }

/-- The scoreboard entries of a stopped warp that a save waits for: a SYSCALL in its wait keeps its own (R415, R416). -/
def Warp.sbIdle (w : Warp) : Bool :=
  (List.range 7).all (fun e =>
    let waits := match w.hold with
      | .syscall _ sb => if sb = e + 1 then 1 else 0
      | _ => 0
    decide (w.sb.getD e 0 ≤ waits))

/-- A command of a stopped workgroup is at a point where its context may be saved (R210, R416). -/
def State.cmdParked (s : State) (c : Cmd) : Bool :=
  match c.kind with
  | .copy _ r _ _ g =>
    -- at a granule boundary: nothing under way, and no granule left that has been begun
    g != 0 && c.pieces == [] && c.todo.all (fun b => !s.begun c g (layOf r).blocks b)
  | .tile =>
    -- an ordered reduction: every contribution is held by its slice or waits at its sender for room
    let cs := s.eng.contribs.filter (fun x => x.id == c.id)
    c.pieces == [] && cs != [] && cs.all (fun x => x.ord.isSome && (x.held || x.noRoom))
  | .push _ =>
    -- the beats sent have landed; the elements left stand in the port's partly filled beat (R320)
    c.pieces == []
  | _ => false

/-- An anvil operation of a stopped workgroup may be saved as it stands: not the accumulator's memory operations, and not an MMA without
a granule that has started (R291, R415, R416). -/
def AnvilOp.parked (a : AnvilOp) : Bool :=
  match a.op with
  | .accld _ _ _ => false
  | .accst _ _ _ => false
  | .accred _ _ _ ord _ => ord.isSome && !a.started
  | .mma _ _ _ sg _ _ _ _ => !(a.started && sg == 0)
  | _ => true

/-- Everything that R416 waits for has happened in a stopped workgroup. -/
def State.drained (s : State) (g : Wgroup) : Bool :=
  (s.allWarps.filter (fun w => w.wg == g.key && w.running)).all Warp.sbIdle &&
  (s.eng.cmds.filter (fun c => c.wg == g.key)).all (fun c => s.cmdParked c) &&
  (s.eng.anvil.filter (fun a => a.wg == g.key)).all AnvilOp.parked &&
  !(s.fab.ops.any (fun o => o.wg == g.key && o.answered.isNone))

/-- A port as it is saved (R320): prefetched elements and their deferred faults go, and the record is read again after the restore. -/
def Port.saved (p : Port) : Port :=
  if p.isQueue then p else { p with pre := [], deferred := none, reread := true }

/-- A warp as it is saved (R416): fixed-latency results complete, a sleeping or yielding warp awake (R159). -/
def Warp.saved (w : Warp) : Warp :=
  let w := w.settle
  -- the entries on chip are not checked after the restore (R418)
  let unchecked := fun (p : Path) => ({ p with refilled := false } : Path)
  { w with
    base := unchecked w.base, stack := w.stack.map unchecked
    ports := w.ports.map (fun o => o.map Port.saved)
    hold := (match w.hold with
      | .sleep _ _ _ => .none
      | .yield _ _ => .none
      | h => h)
    second := false, waitCount := 0 }

/-- Take the warps and the place of a workgroup off its core. -/
def State.vacate (s : State) (g : Wgroup) : State :=
  let blank : Warp := { Warp.blank with id := s.cur.id }
  let s := { s with
    mem := { s.mem with watch := s.mem.watch.filter (fun x => !(s.allWarps.any (fun w => w.id == x.1 && w.wg == g.key))) }
    warps := s.warps.filter (fun w => w.wg != g.key || decide (w.status = WarpStatus.free))
    cur := if s.cur.wg = g.key ∧ s.cur.status ≠ WarpStatus.free then blank else s.cur }
  if s.wg.key = g.key then { s with wg := Wgroup.blank } else { s with wgs := s.wgs.filter (fun x => x.key != g.key) }

/-- A running MMA or MMAS with SG 1–3 stops at its next granule boundary (R291): which granule that is depends on the moment and is free,
and the tile holds the k-steps before it. -/
def State.parkOps (s : State) (g : Wgroup) : State :=
  (s.eng.anvil.filter (fun a => a.wg == g.key && a.started)).foldl (fun (s : State) a =>
    match a.op with
    | .mma d z _ sg oa ob om _ =>
      let n := a.step + Config.freeNat s.freeCtr (2 ^ 35 + a.id) % max 1 (granulesOf d sg - a.step)
      if n = a.step then s
      else
        let s := s.modWg g.key (fun g => g.mmaPart d z sg oa ob om a.tile a.step n)
        { s with eng := { s.eng with anvil := s.eng.anvil.map (fun x => if x.id = a.id then { x with step := n } else x) } }
    | _ => s) s

/-- Where a context of n bytes goes in the area of its core: the lowest place that the contexts there leave (log 43). -/
def State.ctxPlace (s : State) (g : Wgroup) (n : Nat) : Option Nat :=
  let there := s.sched.saved.filter (fun p => p.1.core == g.core && p.1.part == g.part)
  firstFit 4718592 (64 * ((n + 63) / 64)) (there.filterMap (fun p => p.1.ctx.map (fun o => (o, 64 * (((ctxBytes p.1 p.2 s.eng).length + 63) / 64)))))

/-- Save one workgroup (R416), trap mode and handler path with the rest (R281), its context written to the area of its core: its anvil
operations stand ready to start again. -/
def State.saveWg (s : State) (g : Wgroup) : State :=
  let s := (s.parkOps g).draw
  let g := (s.wgOf g.key).getD g
  let ws := (s.allWarps.filter (fun w => w.wg == g.key && decide (w.status ≠ .free))).map Warp.saved
  let t := s.vacate g
  let bs := ctxBytes g ws t.eng
  let at_ := t.ctxPlace g bs.length
  let t := { t with
    sched := { t.sched with saved := t.sched.saved ++ [({ g with status := .saved, ctx := at_ }, ws)] }
    eng := { t.eng with anvil := t.eng.anvil.map (fun a => if a.wg = g.key then { a with started := false } else a) } }
  match at_ with
  | some off => t.ctxWrite g.part g.core off bs
  | none => t

/-- Discard one workgroup (R404, R417): its work is dropped, its pending faults are logged, and its linear id goes back to its launch. -/
def State.discardWg (s : State) (g : Wgroup) : State :=
  let ws := s.allWarps.filter (fun w => w.wg == g.key && decide (w.status ≠ .free))
  let s := ws.foldl (fun (s : State) w => ((s.dropWork w).freeWarp w)) s
  let s := s.vacate g
  { s with sched := { s.sched with launches := s.sched.launches.map (fun l =>
      if l.key = g.launch then { l with redo := l.redo ++ [g.linear] } else l) } }

/-- Save a drained gang, or discard it: only whole, of an idempotent launch, with no member past its idempotent region (R417). -/
def State.saveGang (s : State) (g : Wgroup) : State :=
  let gs := s.stoppingGang g
  if !gs.all (fun x => s.drained x) then s
  else if g.idem && gs.all (fun x => !x.idend) && decide (gs.length = g.gangSize) then (gs.foldl (fun s x => s.discardWg x) s).settlePreempts
  else (gs.foldl (fun s x => s.saveWg x) s).settlePreempts

/-! ## Restoring -/

/-- The saved members of a workgroup's gang. -/
def State.savedGang (s : State) (g : Wgroup) : List (Wgroup × List Warp) :=
  s.sched.saved.filter (fun p => p.1.launch == g.launch && p.1.gang == g.gang)

/-- Claims for every saved member on the core it left, each on top of the standing ones (R234, R418). -/
def reclaim (cs : List Claim) (cores : BitVec 192) : List (Wgroup × List Warp) → Option (List Claim)
  | [] => some []
  | (g, _) :: r =>
    if !cores.getLsbD g.core then none
    else match claimOn cs g.core g.kern g.wgsize with
      | none => none
      | some c => (reclaim (c :: cs) cores r).map (fun l => c :: l)

/-- Put a saved workgroup back (R418): an acquire at .dev on its core; a restore that fails shows before the first instruction (R277). -/
def State.restoreWg (s : State) (g : Wgroup) (ws : List Warp) (c : Claim) : State :=
  let g' : Wgroup := { g with status := if ws.any Warp.running then .resident else .ended, ctx := none, spadBase := c.spad, slotBase := c.slot, tileBase := c.tile }
  let s := { s with wgs := s.wgs ++ [g'], sched := { s.sched with saved := s.sched.saved.filter (fun p => p.1.key != g.key) } }
  (ws.foldl (fun s w => s.addWarp { w with last := .restored }) s).acquireL1 g.core

/-- Restore a saved gang once its cores have room and its warp slots are free; a core fenced meanwhile kills its warps (R418). -/
def State.restoreGang (s : State) (g : Wgroup) : State :=
  let ps := s.savedGang g
  match ps.find? (fun p => s.mgmt.fencedCore.getLsbD p.1.core) with
  | some (x, ws) =>
    let cause := 0x170 + ((s.mgmt.fenceKind.find? (fun k => k.1 == x.core)).map (fun k => k.2)).getD 0
    let s := ws.foldl (fun (s : State) w => s.event 1 cause x.part w.id.core w.id.slot 0 0) s
    (s.cancelLaunch x.launch cause).event 2 cause x.part 255 255 0 0
  | none =>
    let slotFree := fun (w : Warp) => !(s.allWarps.any (fun x => x.id == w.id && decide (x.status ≠ .free)))
    if !(ps.all (fun p => p.2.all slotFree)) then s
    else match reclaim s.claims (s.part g.part).cores ps with
      | none => s
      | some cs => (ps.zip cs).foldl (fun (s : State) x => s.restoreWg x.1.1 x.1.2 x.2) s

/-- PREEMPT_REQUEST (R415, R421): a write to PREEMPT of a partition's block. -/
def execPreemptRequest (part : Nat) (value : DWord) (s : State) : Host.Outcome State Fault Refusal :=
  let all := value.getLsbD 8
  let core := value.toNat % 256
  if 8 ≤ part then .next s
  else if !all ∧ 192 ≤ core then .next { s with mgmt := { s.mgmt with err := true } }
  else .next (s.stopCores part (fun c => if all then (s.part part).cores.getLsbD c else c == core)).settlePreempts

/-- CONTEXT_SAVE (R416, R417). -/
def execContextSave (wg : Nat) (s : State) : Host.Outcome State Fault Refusal :=
  match s.wgOf wg with
  | none => .next s
  | some g => .next (if g.status = .stopping then s.saveGang g else s)

/-- CONTEXT_RESTORE (R418). -/
def execContextRestore (wg : Nat) (s : State) : Host.Outcome State Fault Refusal :=
  match s.sched.saved.find? (fun p => p.1.key == wg) with
  | none => .next s
  | some p => .next (s.restoreGang p.1)

end Sys2Proof.Machine
end

