-- ==== Sys2Proof/Machine/Host.lean ====
section
/-! DEFINITION. The host's and the control cluster's operations: host-physical ranges (R361), host accesses (R361–R363), the rings of the
coherent window (R369, R436), services (R160, R368), ownership transfers (R364–R366). -/
namespace Sys2Proof.Machine

/-! ## Host-physical addresses -/

/-- Find a leaf that maps a tier offset, in one table and those below it: the virtual address of its page, and the leaf. -/
def scanTable (m : MemSys) (tier pa : Nat) : List Nat → Nat → Nat → Option (Nat × Leaf)
  | [], _, _ => none
  | sh :: rest, tab, va =>
    (List.range (if sh = 48 then 256 else 512)).findSome? (fun idx =>
      let at_ := hbmLoc 0 (tab + 8 * idx)
      let e := m.dword at_
      if e % 2 = 0 then none
      else if bits e 1 1 = 0 then scanTable m tier pa rest (bits e 47 12 * 4096) (va + idx * 2 ^ sh)
      else
        let size := if sh = 12 ∧ bits e 5 5 = 1 then 16 else sh
        let base := bits e 47 12 * 4096
        if leafOk e size ∧ bits e 11 11 = tier ∧ base ≤ pa ∧ pa < base + 2 ^ size then
          some ((va + idx * 2 ^ sh) / 2 ^ size * 2 ^ size, { w := e, size := size, at_ := at_ })
        else none)

/-- The partition and leaf that map a tier offset, if any enabled partition has one: what the home knows of the line (R326, R363). -/
def State.leafAt (s : State) (tier pa : Nat) : Option (Nat × Nat × Leaf) :=
  (List.range 8).findSome? (fun p =>
    let r := (s.part p).ptroot.toNat
    if !(s.part p).enable || r % 2 = 0 then none
    else (scanTable s.mem tier pa [48, 39, 30, 21, 12] (bits r 47 12 * 4096) 0).map (fun x => (p, x.1, x.2)))

/-- Where an address of the HDM decoder's range lies (R361): tier and offset; tier 2 is the coherent window; `none` beyond the range. -/
def hdm (addr : Nat) : Option (Nat × Nat) :=
  if addr < 2 ^ 39 then some (0, addr)
  else if addr < 2 ^ 39 + 2 ^ 40 then some (1, addr - 2 ^ 39)
  else if addr < 2 ^ 39 + 2 ^ 40 + 2 ^ 22 then some (2, addr - (2 ^ 39 + 2 ^ 40))
  else none

/-- The location of a tier offset for the host: by the channel-hash select of the leaf that maps it, by select 0 where none does. -/
def hdmLoc (tier off : Nat) (l : Option Leaf) : Nat :=
  if tier = 2 then cwBase + off else tierLoc tier ((l.map (fun x => bits x.w 10 8)).getD 0) off

/-- Log a write refused at its home, for a writer that is no warp (R189, R277). -/
def State.refuseHost (s : State) (loc : Nat) : State :=
  match s.mem.frz.toList.find? (fun e => e.active && e.covers loc) with
  | some e => s.event 0 (0x148 + 8 * (e.sc - 2)) e.part 255 255 0 (BitVec.ofNat 64 loc)
  | none => s

/-- Data for the host leave the device. -/
def State.toHost (s : State) (bs : List Byte) : State := { s with logs := { s.logs with out := s.logs.out ++ [.hostData bs] } }

/-- Coming up from reset, an image that fails leaves the device in recovery, where only CXL.io, BAR0 and the recovery mailbox are there
(R371): no other host interface acts. -/
def State.exposed (s : State) : Bool := !s.mgmt.recovery

/-- A host access performed at the home slice of a DRAM line (R259, R361): a write is checked against the frozen table (R189); to a
region that the processor owns it leaves no dirty line behind (R363). -/
def State.hostDram (s : State) (loc rmode : Nat) (owned : Bool) (data : Option (List Byte)) (n : Nat) : State :=
  match data with
  | none =>
    let h := s.mem.homeLine (loc / 64)
    (({ s with mem := s.mem.setHome { h with sharers := 0 } }).toHost (s.readLoc loc n))
  | some bs =>
    match (List.range bs.length).find? (fun i => s.mem.frozen (loc + i)) with
    | some i => s.refuseHost (loc + i)
    | none =>
      let s := s.homeWrite none loc rmode 0 bs
      if owned then s.writeBack (loc / 64) else s

/-- A host load or store of the coherent window (R255, R362): with `keep` the host's cache holds the line afterwards, a store then in it
until the window snoops it. -/
def State.hostCwin (s : State) (off : Nat) (data : Option (List Byte)) (n : Nat) (keep : Bool) : State :=
  let line := (cwBase + off) / 64
  let held := s.mem.hostLines.find? (fun p => p.1 == line)
  let rest := s.mem.hostLines.filter (fun p => p.1 != line)
  let cur := ((held.bind (fun p => p.2.filter (fun bs => bs.length == 64))).getD (s.readLoc (64 * line) 64))
  match data with
  | none =>
    let s := s.toHost ((cur.drop (off % 64)).take n)
    if keep ∧ held.isNone then { s with mem := { s.mem with hostLines := (line, none) :: rest } } else s
  | some bs =>
    if keep then
      -- a store of part of a poisoned line leaves the host's copy poisoned (R366)
      let bad := bs.length < 64 ∧ (held.map (fun p => p.2 == some [])).getD (s.mem.poisonOf (64 * line)).isSome
      { s with mem := { s.mem with hostLines := (line, some (if bad then [] else patch cur (off % 64) bs)) :: rest } }
    else
      -- what the host's cache holds of the line is performed first, then the bytes stored
      let s := { s with mem := { s.mem with hostLines := rest } }
      (match held.bind (fun p => p.2) with
       | some d => s.takeHostLine (64 * line) d
       | none => s).writeLoc (cwBase + off) bs

/-- The host's cache holds poisoned data of a line of the coherent window, which a snoop will return (R362, R366). -/
def State.hostPoison (s : State) (off : Nat) : State :=
  let line := (cwBase + off) / 64
  { s with mem := { s.mem with hostLines := (line, some []) :: s.mem.hostLines.filter (fun p => p.1 != line) } }

/-- Start a transfer of the region of a leaf (R364), unless one is under way or its owner's tenure runs (R365). -/
def State.startTransfer (s : State) (part va : Nat) (l : Leaf) (to_ : Nat) : State :=
  if (s.mem.ownOf l.at_).isSome then s
  else
    let o := OwnRegion.starting l.at_ to_ s.time part (s.part part).asid va
    { s with mem := { s.mem with own := s.mem.own ++ [o] } }

/-- Try a host access through CXL.mem, within one line (R361, R363, R364): performed, or it has to wait, for a transfer under way, for
one that it starts from a region of the accelerator's, or for the accelerator's tenure (R365). -/
def State.hostTry (s : State) (a : HostAccess) : Bool × State :=
  if a.tier = 2 then (true, s.hostCwin a.off a.data a.n false)
  else
    let l := s.leafAt a.tier a.off
    let loc := hdmLoc a.tier a.off (l.map (fun x => x.2.2))
    let rm := (l.map (fun x => x.2.2.rmode)).getD 0
    match l with
    | none => (true, s.hostDram loc rm false a.data a.n)
    | some (p, va, x) =>
      if x.own = 0 then (true, s.hostDram loc rm false a.data a.n)
      else match s.mem.ownOf x.at_ with
        | some o => if o.target.isNone ∧ x.own = 1 then (true, s.hostDram loc rm true a.data a.n) else (false, s)
        | none => if x.own = 1 then (true, s.hostDram loc rm true a.data a.n) else (false, s.startTransfer p va x 1)

/-- A host access through CXL.mem, kept while it has to wait (R365). -/
def State.hostMem (s : State) (a : HostAccess) : State :=
  let (done, s) := s.hostTry a
  if done then s else { s with host := { s.host with waiting := s.host.waiting ++ [a] } }

/-- The command ring's host copy has bytes that wait for an ownership transfer. -/
def State.copyWaits (s : State) : Bool := s.host.waiting.any (fun a => a.copy)

/-! ## Rings in the coherent window -/

/-- Write bytes of the coherent window line by line, as the device does (R255, R362). -/
def State.cwWrite (s : State) (off : Nat) (bs : List Byte) : State :=
  (List.range ((off % 64 + bs.length + 63) / 64)).foldl (fun (s : State) i =>
    let lo := if i = 0 then 0 else 64 * i - off % 64
    let hi := min bs.length (64 * (i + 1) - off % 64)
    s.homeWrite none (cwBase + off + lo) 0 0 ((bs.drop lo).take (hi - lo))) s

/-- Read bytes of the coherent window. -/
def State.cwRead (s : State) (off n : Nat) : List Byte := s.readLoc (cwBase + off) n

/-- Offset of the entry of the command ring that completes next (R369), while the ring is enabled. -/
def State.cmdEntry (s : State) : Option Nat :=
  let r := s.mgmt.cmdRing.toNat
  if bits r 63 63 = 0 then none else some (64 * bits r 21 6 + 64 * (s.host.nextCmd % 2 ^ bits r 27 24))

/-- Complete the next command (R369, R370): its result, then `done`. What a success writes as result, and the non-zero `done`, are free. -/
def State.doneCmd (s : State) (off : Nat) (result : Option Word) : State :=
  let r := result.getD ((Config.freeWord s.freeCtr 1).setWidth 32)
  let d := (Config.freeWord s.freeCtr 2).setWidth 32 ||| 1#32
  let s := ((s.cwWrite (off + 56) (leBytes 4 r.toNat)).cwWrite (off + 60) (leBytes 4 d.toNat)).draw
  { s with host := { s.host with nextCmd := s.host.nextCmd + 1 } }

/-- Carry out the next command of the ring if its code is the one named: `none` says that an operand is outside its limits (R370). A
command whose bytes still wait is not done, and the ring waits with it. Reading the ring makes the host's writes visible (R351). -/
def State.hostCmd (s : State) (code : Nat) (f : State → Option State) : State :=
  match s.cmdEntry with
  | none => s
  | some off =>
    if !s.exposed || s.copyWaits then s else
    let s := if s.mem.hostLines = [] then s else s.mergeHostLines
    if leNat (s.cwRead (off + 8) 2) ≠ code then s
    else match f s with
      | some t => if t.copyWaits then t else t.doneCmd off none
      | none => s.doneCmd off (some 0xFFFFFFFF#32)

/-- Try the host accesses that waited again, in order of arrival (R365); with the last bytes of a host copy its command is done. -/
def State.retryHost (s : State) : State :=
  let xs := s.host.waiting
  if xs = [] then s
  else
    let copy := s.copyWaits
    let s := xs.foldl (fun (s : State) a => s.hostMem a) { s with host := { s.host with waiting := [] } }
    match s.cmdEntry with
    | some off => if copy && !s.copyWaits then s.doneCmd off none else s
    | none => s

/-- Append bytes to a partition's log ring (R436): the state and how many were dropped. -/
def State.appendLog (s : State) (part : Nat) (bs : List Byte) : State × Nat :=
  let p := s.part part
  let r := p.logRing.toNat
  let size := 2 ^ bits r 28 24
  let used := (p.logHead - p.logTail).toNat
  let room := if bits r 63 63 = 0 ∨ size < used then 0 else size - used
  let a := min bs.length room
  let s := (List.range a).foldl (fun (s : State) i =>
    s.cwWrite (64 * bits r 21 6 + (p.logHead.toNat + i) % size) [bs.getD i 0]) s
  ({ s with mgmt := { s.mgmt with parts := s.mgmt.parts.setIfInBounds part { p with logHead := p.logHead + BitVec.ofNat 64 a } } }, bs.length - a)

/-! ## Services -/

/-- Every warp of a workgroup that has not ended has arrived at SYSCALL, and no service of it is under way (R160). -/
def State.sysReady (s : State) (g : Wgroup) : Bool :=
  g.sys != [] && decide (g.sys.length = s.aliveIn g.key) && !(s.host.services.any (fun x => x.wg == g.key))

/-- A warp that waits in SYSCALL. -/
def Warp.inSyscall (w : Warp) : Bool :=
  w.running && (match w.hold with
    | .syscall _ _ => true
    | _ => false)

/-- Carry out an operation on a warp as if it were in focus. -/
def State.onWarp (s : State) (w : Warp) (f : State → State) : Warp := (f { s with cur := w }).cur

/-- The end of a SYSCALL for one warp: the status in D, and the next slot (R160). -/
def State.sysReturn (s : State) (w : Warp) (status : Word) : Warp :=
  match w.hold with
  | .syscall d sb => s.onWarp w (fun s => ((s.modCur (fun w => { w with hold := .none })).writeS d status (.var sb false)).advance)
  | _ => w

/-- Return a status to the waiting warps of a workgroup, on its core or saved (R160, R416): an acquire at .host. -/
def State.sysStatus (s : State) (key : Nat) (status : Word) : State :=
  let t := { s with
    cur := if s.cur.wg = key ∧ s.cur.inSyscall then s.sysReturn s.cur status else s.cur
    warps := s.warps.map (fun (w : Warp) => if w.wg = key ∧ w.inSyscall then s.sysReturn w status else w)
    sched := { s.sched with saved := s.sched.saved.map (fun (p : Wgroup × List Warp) =>
      if p.1.key = key then ({ p.1 with sys := [] }, p.2.map (fun (w : Warp) => if w.inSyscall then s.sysReturn w status else w)) else p) } }
  let t := t.modWg key (fun g => { g with sys := [] })
  match t.wgOf key with
  | some g => t.acquireOn g.core 5
  | none => match t.sched.saved.find? (fun p => p.1.key == key) with
    | some (g, _) => (t.acquireOn g.core 5).ctxRefresh key
    | none => t

/-- Every waiting warp of a workgroup traps precisely at its SYSCALL (R160, R368), which then counts nowhere. -/
def State.sysTrap (s : State) (key cause : Nat) : State :=
  let ids := (s.allWarps.filter (fun w => w.wg == key && w.inSyscall)).map (fun w => w.id)
  let s := ids.foldl (fun (s : State) id =>
    let back := s.cur.id
    let t := (s.focusOn id).modCur (fun w => match w.hold with
      | .syscall _ sb => { w with hold := .none, sb := if sb = 0 then w.sb else w.sb.setIfInBounds (sb - 1) (w.sb.getD (sb - 1) 0 - 1) }
      | _ => w)
    (t.precise cause 0).focusOn back) s
  s.modWg key (fun g => { g with sys := [] })

/-- The end of a SYSCALL without a status: every waiting warp of the workgroup, on its core or saved, goes on with D as it was, and
takes an imprecise cause (R277, R369). -/
def State.failService (s : State) (key cause : Nat) : State :=
  let wait := fun (w : Warp) => decide (w.wg = key) && w.inSyscall
  let ended := fun (w : Warp) => s.onWarp w (fun s => (s.modCur (fun w => { w with hold := .none })).advance)
  let fault := fun (w : Warp) => (w.id, w.path.pc, w.path.pid)
  let here := (s.allWarps.filter wait).map fault
  let saved := (s.sched.saved.filter (fun p => p.1.key == key)).flatMap (fun p => (p.2.filter Warp.inSyscall).map fault)
  let t := { s with
    cur := if wait s.cur then ended s.cur else s.cur
    warps := s.warps.map (fun (w : Warp) => if wait w then ended w else w)
    sched := { s.sched with saved := s.sched.saved.map (fun (p : Wgroup × List Warp) =>
      if p.1.key = key then ({ p.1 with sys := [] }, p.2.map (fun (w : Warp) => if w.inSyscall then ended w else w)) else p) } }
  let t := t.modWg key (fun g => { g with sys := [] })
  (here ++ saved).foldl (fun (s : State) f => s.postOwned f.1 key cause f.2.1 0 f.2.2) t

/-- The 64 bytes of an argument block (R160, R368): in window 0x00 or in rank form naming this device, a multiple of 64; one that waits
for an ownership transfer is not unreadable (R365), and one whose transfer the silent host has stopped takes 0x16B (R366). -/
def State.argBlock (s : State) (part : Nat) (a : DWord) : EngRes (List Byte × State) :=
  if a.toNat % 64 ≠ 0 then .fault 0x169 a
  else
    let read : EngRes (List Byte × State) := match engTargets (s.ctlView part) 0 a 64 with
      | .ok ts => if ts.any (fun t => t.isRemote || (s.memError 0 t).isSome) then .fault 0x169 a else .ok (s.engBytes 0 0 [] ts)
      | .fault c b => .fault (if c = 0x16B then c else 0x169) b
      | .wait p va => .wait p va
    match window a with
    | .glob _ => read
    | .rank _ _ _ => read
    | _ => .fault 0x169 a

/-- Forward a service to the host (R369): at once unknown while the ring is disabled; a ring whose next entry is not free holds the
workgroup. -/
def State.forward (s : State) (g : Wgroup) (n : Nat) (block : List Byte) : State :=
  let r := s.mgmt.svcRing.toNat
  if bits r 63 63 = 0 then s.sysStatus g.key 0xFFFFFFFF#32
  else if s.host.services.any (fun x => x.seq % 2 ^ bits r 27 24 == s.host.nextService % 2 ^ bits r 27 24) then s
  else
    let seq := s.host.nextService
    let lid := ((s.sched.launches.find? (fun l => l.key == g.launch)).map (fun l => l.record.ident .launch)).getD 0
    let entry := leBytes 8 seq ++ leBytes 4 n ++ leBytes 4 g.part ++ leBytes 8 lid ++ leBytes 4 g.x.toNat ++ leBytes 4 g.y.toNat ++
      leBytes 4 g.z.toNat ++ leBytes 28 0 ++ block
    let s := s.cwWrite (128 * bits r 21 7 + 128 * (seq % 2 ^ bits r 27 24)) entry
    ({ s with host := { s.host with nextService := seq + 1, services := s.host.services ++ [Service.mk seq g.key s.time] } }).msix 1

/-- Run the service of a workgroup whose warps have all arrived (R160, R368): with the host link down it fails as a .host operation (R366). -/
def State.runService (s : State) (g : Wgroup) : State :=
  match g.sys with
  | [] => s
  | x :: xs =>
    if xs.any (fun y => y.n != x.n || y.a != x.a) then s.sysTrap g.key 0x068
    else if !s.host.linkUp then s.failService g.key 0x16C
    else match s.argBlock g.part x.a with
      | .fault c b => if c = 0x16B then s.failService g.key c else (s.ctlLog g.part 0 b 4).sysTrap g.key c
      | .wait p va => s.wantOwner p va
      | .ok (block, s) =>
        if x.n = 0 then s.sysStatus g.key 0
        else if x.n = 1 then
          let (t, dropped) := s.appendLog g.part (block.drop 8)
          t.sysStatus g.key (BitVec.ofNat 32 dropped)
        else if x.n = 2 then s.sysStatus g.key (BitVec.ofNat 32 (s.time / 1000))
        else if x.n < 0x8000 then s.sysStatus g.key 0xFFFFFFFF#32
        else s.forward g x.n block

/-! ## Ownership -/

/-- The lines of a 2 MiB region, by line number. -/
def Leaf.lines (l : Leaf) : List Nat := (List.range 8192).flatMap (fun i => (List.range 4).map (fun j => l.loc (256 * i) / 64 + j))

/-- Complete the OWNREQs at the front that ask for the state reached (R365). -/
def State.servedOwn (s : State) (o : OwnRegion) (own : Nat) : State × OwnRegion :=
  let done := o.waiting.takeWhile (fun r => r.want == own)
  (done.foldl (fun (s : State) r => s.countOwned r.warp r.wg r.k 64 r.epc r.pid) s, { o with waiting := o.waiting.drop done.length })

/-- Replace a region's record. -/
def State.setOwn (s : State) (o : OwnRegion) : State :=
  { s with mem := { s.mem with own := s.mem.own.map (fun x => if x.leafLoc = o.leafLoc then o else x) } }

/-- Merge data that the host returned to a back-invalidation, by line of the region (R364, R366): poisoned data marks its line. -/
def State.mergeHost (s : State) (l : Leaf) (merge : List (Nat × Option (List Byte))) : State :=
  merge.foldl (fun (s : State) m =>
    let loc := l.loc (64 * (m.1 % 32768))
    match m.2 with
    | some bs => if bs.length = 64 then s.homeWrite none loc 0 0 bs else s
    | none => s.poisonLine loc 4) s

/-- A TLB entry maps some of the region of a leaf, by tier and tier offset, whatever its address space (R364). -/
def TlbEntry.within (e : TlbEntry) (l : Leaf) : Bool :=
  let w := e.leaf.toNat
  bits w 11 11 == l.tier && decide (bits w 47 12 * 4096 < bits l.w 47 12 * 4096 + 2 ^ 21 ∧ bits l.w 47 12 * 4096 < bits w 47 12 * 4096 + 2 ^ e.size)

/-- The caches of translations drop entries (R270, R364), and issued engine work translates the addresses under them anew (R331). -/
def State.dropTlb (s : State) (p : TlbEntry → Bool) : State :=
  { s with
    mem := { s.mem with tlb := s.mem.tlb.filter (fun e => !p e) }
    eng := { s.eng with cmds := s.eng.cmds.map (fun c => { c with pins := { c.pins with pages := c.pins.pages.filter (fun e => !p e) } }) } }

/-- A recorded waiter still stands (R365): a live path of that warp at that slot, or engine work that has not ended. -/
def State.waiterStands (s : State) : Waiter → Bool
  | .path id wg pid pc => s.allWarps.any (fun w => w.id == id && w.wg == wg && w.running &&
      w.liveIdx.any (fun i => match ({ w with issuing := i } : Warp).path with
        | p => p.pid == pid && p.pc == pc))
  | .cmd n => s.eng.cmds.any (fun c => c.id == n) || s.eng.anvil.any (fun a => a.id == n)

/-- Carry out a region's transfer (R364, R365). -/
def State.transfer (s : State) (o : OwnRegion) (to_ : Nat) (merge : List (Nat × Option (List Byte))) : State :=
  let l : Leaf := { w := s.mem.dword o.leafLoc, size := 21, at_ := o.leafLoc }
  let s := if to_ = 1 then
      let ls := l.lines
      let hit := fun (c : CacheLine) => match c.key with
        | .loc n => ls.contains n
        | _ => false
      let homes := (s.mem.home.filter (fun h => ls.contains h.line)).map (fun h => h.line)
      let s := { s with mem := { s.mem with copies := s.mem.copies.filter (fun c => !hit c) } }
      homes.foldl (fun (s : State) n =>
        let s := s.writeBack n
        { s with mem := s.mem.setHome { s.mem.homeLine n with sharers := 0 } }) s
    else s.mergeHost l merge
  let w := l.w / 2 ^ 8 * 2 ^ 8 + to_ * 2 ^ 6 + l.w % 2 ^ 6
  let s := s.homeWrite none o.leafLoc 0 0 (leBytes 8 w)
  let s := s.dropTlb (fun e => e.within l)
  let (s, o) := s.servedOwn { o with target := none, asked := false, tenure := s.time + 2000 } to_
  s.setOwn o

end Sys2Proof.Machine
end

