-- ==== Sys2Proof/Machine/RemoteTarget.lean ====
section
/-! DEFINITION. This device as the target of another one's requests: performing them at the point of coherence (R252, R346, R385), the
answers with their frozen tags (R261, R354), landing counters and deadlines (R347, R377, R396, R397). -/
namespace Sys2Proof.Machine

/-! ## Performing a request -/

/-- What serving a request comes to. -/
inductive Served where
  /-- performed or refused: the answer's data, failure kind and frozen tag -/
  | done (data : List Byte) (fail : Option Nat) (frz : Option FrzTag) (s : State)
  /-- waits for an ownership transfer of the region at this virtual address of the partition (R365) -/
  | wait (part va : Nat)

/-- The runs of masked bytes of a write: offset of each run's first byte, and its bytes. -/
def maskRuns : List (Option Byte) → Nat → List (Nat × List Byte)
  | [], _ => []
  | none :: r, i => maskRuns r (i + 1)
  | some b :: r, i => match maskRuns r (i + 1) with
    | (j, bs) :: rest => if j = i + 1 then (i, b :: bs) :: rest else (i, [b]) :: (j, bs) :: rest
    | [] => [(i, [b])]

/-- The bytes a request touches. -/
def remSize : RemOp → Nat
  | .read n => n
  | .write bs => bs.length
  | .atomic _ w _ => w
  | .cas w _ _ => w
  | .frzq => 1

/-- The access kind of R171 and the permissions of a request. -/
def remAccess : RemOp → Nat × Perm
  | .read _ => (0, ⟨true, false, false⟩)
  | .write _ => (1, ⟨false, true, false⟩)
  | .atomic _ _ _ => (2, ⟨true, true, false⟩)
  | .cas _ _ _ => (2, ⟨true, true, false⟩)
  | .frzq => (3, ⟨true, false, false⟩)

/-- Perform an atomic at a location (R175, R346): refused at a frozen byte with kind 5 (R189). -/
def State.serveAtomic (s : State) (l rm w : Nat) (op : AtomOp) (b c : DWord) : Served :=
  match (List.range w).find? (fun i => s.mem.frozen (l + i)) with
  | some i => .done [] (some 5) none (s.refuseHost (l + i))
  | none =>
    let (o, s) := s.atomRead w (.loc l rm)
    match op.new (8 * w) o b c with
    | some x => .done (leBytes w o) none none (s.homeWrite none l rm 0 (leBytes w x))
    | none => .done (leBytes w o) none none s

/-- Perform a request at a location; `minSc` is the narrowest scope that holds the initiator (R261, R354, R359). -/
def State.serveAt (s : State) (minSc l rm : Nat) : RemOp → Served
  | .read n =>
    let (bs, s) := s.homeRead (l / 64) rm 0 (homeHearth l)
    (match (if l % 64 + n ≤ 64 then s.mem.tagFor minSc l else none) with
     | some t => .done bs none (some t) s
     | none => .done (if l % 64 + n ≤ 64 then (bs.drop (l % 64)).take n else s.readLoc l n) none none s)
  | .write bs =>
    (match (List.range bs.length).find? (fun i => (bs.getD i none).isSome && s.mem.frozen (l + i)) with
     | some i => .done [] (some 5) none (s.refuseHost (l + i))
     | none => .done [] none none ((maskRuns bs 0).foldl (fun (s : State) r => s.homeWrite none (l + r.1) rm 0 r.2) s))
  | .atomic op w b => s.serveAtomic l rm w (.op op) b 0
  | .cas w cmp new => s.serveAtomic l rm w .cas cmp new
  | .frzq => .done (leBytes 8 (s.mem.frzState l).toNat) none none s

/-- SERVE A REQUEST of another device (R252, R277): kind 3 beyond the region, 4 for the walk or the permissions, 2 for a fenced
channel, 6 for a poisoned line, 5 for a frozen byte. -/
def State.serve (s : State) (minSc : Nat) (r : RemReq) : Served :=
  let reg := s.mgmt.regions.getD r.region { base := 0, len := 0, part := 0, valid := false }
  if !reg.valid || reg.len < r.off + remSize r.op then .done [] (some 3) none s
  else match translatePerm s reg.part (remAccess r.op).1 (remAccess r.op).2 (reg.base.toNat + r.off) with
    | .fault c =>
      let s := if isWalkError c then s.logTable reg.part 255 255 0 (BitVec.ofNat 64 (reg.base.toNat + r.off)) [(reg.part, reg.base.toNat + r.off)] else s
      .done [] (some (if c / 32 = 4 ∧ c % 8 = 6 then 2 else 4)) none s
    | .wait p v => .wait p v
    | .ok (.loc l rm) =>
      if (s.memError (remAccess r.op).1 (.loc l rm)).isSome then .done [] (some 6) none s else s.serveAt minSc l rm r.op
    | .ok _ => .done [] (some 4) none s

/-- Keep a request until the transfer it waits for is over, the transfer being started (R364, R365). -/
def State.holdInbound (s : State) (x : Inbound) (part va : Nat) : State :=
  let s := s.wantOwner part va
  { s with fab := { s.fab with held := s.fab.held ++ [x] } }

/-! ## Pod requests -/

/-- Serve a request of a pod slot and answer it over a path of this device's own choice (R346, R392). -/
def State.servePod (s : State) (slot : Nat) (r : RemReq) : State :=
  match s.serve 3 r with
  | .wait p v => s.holdInbound (.pod slot r) p v
  | .done data fail frz s => (s.toPeer slot (.resp { tag := r.tag, gen := 0, idx := 0, data := data, fail := fail, frz := frz })).getD s

/-! ## Job packets -/

/-- The coordinate of a rank (R380). -/
def State.coordOf (s : State) (rank : Nat) : Nat := rankCoord ((rankEntry s rank).getD 0)

/-- The moment by which a packet must have been performed (R347). -/
def pktDeadline (p : JobPacket) : Nat := (p.win + 2) * 2 ^ p.logW - 500

/-- The landing counter of a packet. -/
def pktMine (p : JobPacket) (c : Landing) : Bool := c.init == p.init && c.tag == p.tag && c.gen == p.gen

/-- A packet that is counted: a write's or an atomic's. -/
def pktCounted (p : JobPacket) : Bool :=
  match p.op with
  | .read _ => false
  | .frzq => false
  | _ => true

/-- Send a response to a packet's initiator. -/
def State.respond (s : State) (p : JobPacket) (r : RemResp) : State :=
  { s with logs := { s.logs with out := s.logs.out ++ [.response (s.coordOf p.init) r] } }

/-- The response of a packet. -/
def pktResp (p : JobPacket) (data : List Byte) (fail : Option Nat) (frz : Option FrzTag) : RemResp :=
  { tag := p.tag, gen := p.gen, idx := p.idx, data := data, fail := fail, frz := frz }

/-- Replace a packet's landing counter. -/
def State.setLanding (s : State) (p : JobPacket) (f : Landing → Landing) : State :=
  { s with fab := { s.fab with landings := s.fab.landings.map (fun c => if pktMine p c then f c else c) } }

/-- Mark a packet of a write; the completion is sent with the last one, and the counter freed (R377). -/
def State.markPacket (s : State) (p : JobPacket) : State :=
  let s := s.setLanding p (fun c => { c with marked := p.idx :: c.marked })
  match s.fab.landings.find? (pktMine p) with
  | none => s
  | some c =>
    if c.marked.length < p.count then s
    else
      let s := s.setLanding p (fun c => { c with freed := true })
      { s with logs := { s.logs with out := s.logs.out ++ [.completion (s.coordOf p.init) p.tag p.gen c.refused] } }

/-- PERFORM AN ACCEPTED PACKET (R347, R377, R396): late ones are refused, a duplicate write is discarded, a duplicate atomic is answered
with the result kept, a duplicate read again. A packet of a counter that its completion has freed is refused as late (R397), or discarded as the
duplicate it is (R379 allows it): a free choice (log 47). -/
def State.performPacket (s : State) (p : JobPacket) : State :=
  let c := (s.fab.landings.find? (pktMine p)).getD { init := p.init, tag := p.tag, gen := p.gen, marked := [], refused := 0, kept := [], deadline := pktDeadline p, freed := false }
  if pktDeadline p < s.time then s.respond p (pktResp p [] (some 0) none)
  else match c.kept.find? (fun k => k.1 == p.idx) with
    | some k => s.respond p k.2
    | none =>
      if c.freed && Config.freeBit s.freeCtr (2 ^ 44 + 65536 * p.tag + p.idx) then s.respond p (pktResp p [] (some 0) none)
      else if c.marked.contains p.idx then s.deviceEvent 0x13E
      else match s.serve 4 { init := p.init, tag := p.tag, region := p.region, off := p.off, op := p.op } with
        | .wait q v => s.holdInbound (.job p) q v
        | .done data fail frz s =>
          let r := pktResp p data fail frz
          match p.op with
          | .write _ =>
            if fail = none then s.markPacket p
            else if fail = some 5 then ((s.respond p r).setLanding p (fun c => { c with refused := c.refused + 1 })).markPacket p
            else s.respond p r
          | .read _ => s.respond p r
          | .frzq => s.respond p r
          | _ => (s.respond p r).setLanding p (fun c => { c with kept := (p.idx, r) :: c.kept, freed := true })

/-- A job packet arrives (R377, R397): it is accepted where a landing counter stands or one of 65,536 is free, and then performed. -/
def State.receivePacket (s : State) (p : JobPacket) : State :=
  -- a device in recovery trains no interface (R371)
  if s.mgmt.recovery then s
  else if pktDeadline p < s.time then s.respond p (pktResp p [] (some 0) none)
  else if !pktCounted p then s.performPacket p
  else
    let have_ := s.fab.landings.any (pktMine p)
    if !have_ && decide (65536 ≤ (s.fab.landings.filter (fun c => !c.freed)).length) then s
    else
      let c : Landing := { init := p.init, tag := p.tag, gen := p.gen, marked := [], refused := 0, kept := [], deadline := pktDeadline p, freed := false }
      let s := if have_ then s else { s with fab := { s.fab with landings := s.fab.landings ++ [c] } }
      let s := { s with logs := { s.logs with out := s.logs.out ++ [OutMsg.accept (s.coordOf p.init) p.tag p.gen p.idx] } }
      s.performPacket p

/-! ## Requests that waited -/

/-- Serve again, in order of arrival, the requests that waited for a transfer (R365). -/
def State.retryInbound (s : State) : State :=
  let xs := s.fab.held
  let s := { s with fab := { s.fab with held := [] } }
  xs.foldl (fun (s : State) x => match x with
    | .pod slot r => s.servePod slot r
    | .job p => s.performPacket p) s

/-- What waited for a region's transfer or tenure goes on (R365): host accesses, requests of other devices, the control cluster. -/
def State.retryAll (s : State) : State := s.retryHost.retryInbound.retryCtl

end Sys2Proof.Machine
end

