-- ==== Sys2Proof/Machine/Fabric.lean ====
section
/-! DEFINITION. The link layers: dealing flits over planes with their replay buffers (R384–R388), handing them on in order (R386, R392),
resending (R387, R389), peers out of reach (R390), and resending job packets (R376, R378, R395). -/
namespace Sys2Proof.Machine

/-! ## Sending flits -/

/-- Flits that the replay buffer of a plane group holds, over all peers (R388). -/
def State.groupHeld (s : State) (g : Nat) : Nat :=
  s.fab.peers.foldl (fun n p => n + (p.unacked.filter (fun u => u.plane / 4 == g)).length) 0

/-- The replay buffer of a plane group is full (R388). -/
def State.groupFull (s : State) (g : Nat) : Bool := decide (4096 ≤ s.groupHeld g)

/-- A mask of planes. -/
def planeMask (ps : List Nat) : BitVec 16 := ps.foldl (fun m p => m ||| (1#16 <<< p)) 0

/-! ## Flits as they stand on the wire -/

/-- One bit of the CRC of R384: the polynomial of ECMA-182, the most significant bit first. -/
def crcBit (c : DWord) : DWord := if c.msb then (c <<< 1) ^^^ 0x42F0E1EBA9EA3693#64 else c <<< 1

/-- The CRC of bytes, from 0 on (log 93). -/
def crc64 (bs : List Byte) : DWord :=
  bs.foldl (fun c b => (List.range 8).foldl (fun c _ => crcBit c) (c ^^^ ((b.setWidth 64 : DWord) <<< (56 : Nat)))) (0 : DWord)

/-- The data that a transaction carries in its slot, up to 64 bytes (R385). -/
def txnData : Txn → List Byte
  | .req r => (match r.op with
    | .read _ => []
    | .write bs => bs.map (fun b => b.getD 0)
    | .atomic _ w x => leBytes w x.toNat
    | .cas w x y => leBytes w x.toNat ++ leBytes w y.toNat
    | .frzq => [])
  | .resp r => r.data
  | .retire _ _ _ _ => []
  | .retired _ => []
  | .summary _ _ => []
  | .install _ _ _ _ => []
  | .relay _ _ t => txnData t

/-- A transaction fits its slot (R385). -/
def txnFits (t : Txn) : Bool := decide ((txnData t).length ≤ 64)

/-- The 80 bytes of a slot (R385): a header of 16 bytes and the data. -/
def slotBytes (t : Txn) : List Byte :=
  (List.range 16).map (Config.slotHeader t) ++ (txnData t ++ List.replicate 64 0).take 64

/-- Bytes 0–7 of a flit (R384). -/
def flitHead (f : Flit) : List Byte :=
  leBytes 2 f.seq ++ leBytes 2 f.ack ++ leBytes 1 f.typ ++ leBytes 1 f.nslot ++ leBytes 2 f.live.toNat

/-- A flit with the bytes of its slots and its CRC (R384). -/
def mkFlit (seq ack typ : Nat) (live : BitVec 16) (slots : List Txn) : Flit :=
  let f : Flit := { seq := seq, ack := ack, typ := typ, nslot := slots.length, live := live, slots := slots,
                    body := (slots.flatMap slotBytes ++ List.replicate 240 0).take 240, crc := 0 }
  { f with crc := crc64 (flitHead f ++ f.body) }

/-- A flit that the receiver takes (R384): its CRC holds, no zero field is set, its type is one of the four, and its slots carry what fits. -/
def flitGood (f : Flit) : Bool :=
  decide (f.seq < 65536 ∧ f.ack < 65536 ∧ f.typ < 4 ∧ f.nslot < 4 ∧ f.slots.length = f.nslot ∧ f.body.length = 240) &&
  f.slots.all txnFits && f.crc == crc64 (flitHead f ++ f.body)

/-- A flit on the wire to a pod slot, on a plane and on the wavelength (d − s) mod 144 of the pair (R383). -/
def State.transmit (s : State) (slot plane : Nat) (f : Flit) : State :=
  { s with logs := { s.logs with out := s.logs.out ++ [OutMsg.flit slot plane ((slot + 144 - s.selfSlot) % 144) f] } }

/-- The plane of a flit number over a list of planes (R386). -/
def dealPlane (planes : List Nat) (seq : Nat) : Nat := planes.getD (seq % max 1 planes.length) 0

/-- The full groups among those of a pair's planes, each logged once per episode (R388). -/
def State.logFull (s : State) (planes : List Nat) : State :=
  ((planes.map (fun p => p / 4)).eraseDups).foldl (fun (s : State) g =>
    if s.groupFull g ∧ !s.fab.overflow.contains g then
      ({ s with fab := { s.fab with overflow := g :: s.fab.overflow } }).deviceEvent 0x139
    else s) s

/-- SEND THE NEXT FLIT to a peer (R386, R388): up to three transactions, on the plane that its number deals. -/
def State.sendFlit (s : State) (slot : Nat) : State :=
  let p := s.peer slot
  if slot = s.selfSlot ∨ p.waiting = [] ∨ 4096 ≤ p.unacked.length then s
  else
    let live := s.livePlanes p
    let s := s.logFull live
    let planes := live.filter (fun i => !s.groupFull (i / 4))
    if planes = [] then s
    else
      let plane := dealPlane planes p.nextSeq
      let f := mkFlit p.nextSeq p.expected 0 (planeMask live) (p.waiting.take 3)
      let u : Unacked := { flit := f, plane := plane, sends := 1, at_ := s.time }
      let p := { p with nextSeq := (p.nextSeq + 1) % 65536, waiting := p.waiting.drop 3, unacked := p.unacked ++ [u], ackDue := none }
      (s.setPeer p).transmit slot plane f

/-- Send a flit without transactions: an acknowledgement (type 1) or a nack (type 2); it takes no sequence number (R384, R387). -/
def State.sendControl (s : State) (slot typ : Nat) : State :=
  let p := s.peer slot
  if slot = s.selfSlot then s else
  match s.livePlanes p with
  | [] => s
  | live =>
    let f := mkFlit p.nextSeq p.expected typ (planeMask live) []
    (s.setPeer { p with ackDue := none }).transmit slot (dealPlane live p.nextSeq) f

/-- Resend the unacknowledged flits that a test picks, in ascending order, on the live planes of the moment (R386, R387, R389), none of them more
than 8 times in all (R392). -/
def State.resend (s : State) (slot : Nat) (pick : Unacked → Bool) : State :=
  let p := s.peer slot
  match s.livePlanes p with
  | [] => s
  | live =>
    let pick := fun (u : Unacked) => pick u && decide (u.sends < 8)
    let us := p.unacked.filter pick
    if us = [] then s
    else
      let s := us.foldl (fun (s : State) u =>
        s.transmit slot (dealPlane live u.flit.seq) (mkFlit u.flit.seq p.expected u.flit.typ (planeMask live) u.flit.slots)) s
      s.setPeer { p with unacked := p.unacked.map (fun u => if pick u then { u with sends := u.sends + 1, at_ := s.time } else u), ackDue := none }

/-! ## Peers out of reach -/

/-- The tag of one of this device's own requests in a transaction. -/
def ownTag (self : Nat) : Txn → Option Nat
  | .req r => some r.tag
  | .relay _ f (.req r) => if f = self then some r.tag else none
  | _ => none

/-- Take the requests with some tags out of every queue and every unacknowledged flit, so that none is sent any more (R390). -/
def State.stopSending (s : State) (tags : List Nat) : State :=
  let keep := fun (t : Txn) => match ownTag s.selfSlot t with
    | some n => !tags.contains n
    | none => true
  { s with fab := { s.fab with peers := s.fab.peers.map (fun p =>
      { p with waiting := p.waiting.filter keep
               unacked := p.unacked.map (fun u => if u.flit.slots.all keep then u else
               { u with flit := mkFlit u.flit.seq u.flit.ack u.flit.typ u.flit.live (u.flit.slots.filter keep) }) }) } }

/-- Fail operations with a kind of R277. -/
def State.failOps (s : State) (tags : List Nat) (f : Nat) : State :=
  tags.foldl (fun (s : State) t => s.answer t [] (some f) none) (s.stopSending tags)

/-- Fail at once what waits for, or is under way to, a peer with no path left (R390). -/
def State.failUnreachable (s : State) : State :=
  s.failOps ((s.fab.ops.filter (fun o => !o.job && o.answered.isNone && !o.held && (s.podPath o.coord).isNone)).map (fun o => o.tag)) 1

/-- The tags of the messages that some operations belong to (R391): what an engine instruction sends to one slot is one message. -/
def State.messageTags (s : State) (tags : List Nat) : List Nat :=
  let hit := s.fab.ops.filter (fun o => tags.contains o.tag)
  (s.fab.ops.filter (fun o => o.answered.isNone && (tags.contains o.tag ||
    (decide (o.kind = 3) && hit.any (fun x => decide (x.kind = 3) && x.group == o.group && x.coord == o.coord && x.job == o.job))))).map (fun o => o.tag)

/-- A transaction of this device's queued again over a path chosen anew: a request keeps the path with its message. -/
def State.again (s : State) (d : Nat) (t : Txn) : State :=
  match t with
  | .req r => (match s.fab.ops.find? (fun o => o.tag == r.tag && o.answered.isNone) with
    | some o => (s.sendOp o).2
    | none => (s.toPeer d t).getD s)
  | t => (s.toPeer d t).getD s

/-- What this device has not sent yet over a slot whose planes are all dark chooses its path again (R390, R391, log 85). -/
def State.repath (s : State) (slot : Nat) : State :=
  let p := s.peer slot
  if (s.livePlanes p) != [] then s
  else
    let mine := fun (t : Txn) => match t with
      | .relay _ f _ => f == s.selfSlot
      | _ => true
    let move := p.waiting.filter mine
    let s := s.setPeer { p with waiting := p.waiting.filter (fun t => !mine t) }
    let s := { s with fab := { s.fab with ops := s.fab.ops.map (fun (o : RemoteOp) =>
      if o.via = some (some slot) ∨ (o.via = some none ∧ o.coord = slot) then { o with via := none } else o) } }
    move.foldl (fun (s : State) t =>
      match t with
      | .relay d _ x => s.again d x
      | x => s.again slot x) s

/-- The planes that laser source module m feeds are 4m to 4m + 3 (R383): those of every module that a list of planes names. -/
def laserPlanes (planes : List Nat) : List Nat := (List.range 16).filter (fun p => planes.any (fun q => q / 4 == p / 4))

/-- PLANES GO DARK (R389), for one pair or for all: with a lost laser module its four planes, for all. Each pair that loses a plane resends. -/
def State.darken (s : State) (planes : List Nat) (pair : Option Nat) (laser : Bool) : State :=
  let planes := if laser then laserPlanes planes else planes
  let pair := if laser then none else pair
  let was := fun (p : Nat) => s.fab.dark.getLsbD p || (match pair with
    | some d => (s.peer d).dark.contains p
    | none => false)
  let lost := (planes.filter (fun p => decide (p < 16) && !was p)).eraseDups
  if lost = [] then s
  else
    let s := match pair with
      | some d => let p := s.peer d; s.setPeer { p with dark := p.dark ++ lost }
      | none => { s with fab := { s.fab with dark := s.fab.dark ||| planeMask lost } }
    let s := { s with mgmt := { s.mgmt with planeEn := s.mgmt.planeEn &&& ~~~(planeMask lost) } }
    let s := lost.foldl (fun (s : State) _ => s.deviceEvent 0x138) s
    let s := if laser then s.deviceEvent 0x13A else s
    let s := s.msix 0
    let slots := match pair with
      | some d => [d]
      | none => s.fab.peers.map (fun (p : Peer) => p.slot)
    -- a pair that had lost a plane before loses nothing with it now
    let had := fun (d : Nat) => match pair with
      | some _ => []
      | none => (s.peer d).dark
    let s := slots.foldl (fun (s : State) d => (s.resend d (fun u => lost.contains u.plane && !(had d).contains u.plane)).repath d) s
    s.failUnreachable

/-! ## Receiving flits -/

/-- Sequence number a is below b, modulo 65,536 (R384). -/
def seqBelow (a b : Nat) : Bool := a != b && decide ((b + 65536 - a) % 65536 < 32768)

/-- Take in a cumulative acknowledgement: full replay buffers that empty end their episode (R384, R388). -/
def State.takeAck (s : State) (slot ack : Nat) : State :=
  let p := s.peer slot
  let s := s.setPeer { p with unacked := p.unacked.filter (fun u => !seqBelow u.flit.seq ack) }
  { s with fab := { s.fab with overflow := s.fab.overflow.filter (fun g => s.groupFull g) } }

/-- Hand a transaction that has come from a slot on to the transaction layer (R385, R386, R390, R392). -/
def State.handOn (s : State) (slot : Nat) : Txn → State
  | .req r => s.servePod slot r
  | .resp r => s.answer r.tag r.data r.fail r.frz
  | .retire home e gen sc => s.receiveRetire home e gen sc
  | .retired e => s.slotRetired slot e
  -- a freeze install of a peer: copies are tagged by the home's answers (R261), so nothing is to be done here (log 94)
  | .install _ _ _ _ => s
  | .summary from_ peers => (s.setPeer { s.peer from_ with summary := peers }).failUnreachable
  | .relay to_ from_ t =>
    if to_ = s.selfSlot then s.handOn from_ t
    else
      let p := s.peer to_
      s.setPeer { p with waiting := p.waiting ++ [.relay to_ from_ t] }

/-- Hand on, in order, what the expected number and the flits held early allow (R386). -/
def State.handFlits (s : State) (slot : Nat) : Nat → State
  | 0 => s
  | n + 1 =>
    let p := s.peer slot
    match p.early.find? (fun f => f.seq == p.expected) with
    | none => s
    | some f =>
      let s := s.setPeer { p with expected := (p.expected + 1) % 65536, early := p.early.filter (fun x => x.seq != f.seq) }
      (f.slots.foldl (fun (s : State) t => s.handOn slot t) s).handFlits slot n

/-- A FLIT ARRIVES (R384, R386, R387). -/
def State.receiveFlit (s : State) (slot : Nat) (f : Flit) : State :=
  if !flitGood f then s
  else
    let s := s.takeAck slot f.ack
    if f.typ = 2 then s.resend slot (fun u => !seqBelow u.flit.seq f.ack)
    else if f.typ ≠ 0 then s
    else
      let p := s.peer slot
      let p := { p with ackDue := some (p.ackDue.getD s.time) }
      if f.seq != p.expected && !seqBelow p.expected f.seq then s.setPeer p
      else if p.early.any (fun x => x.seq == f.seq) then s.setPeer p
      else
        let s := (s.setPeer { p with early := p.early ++ [f] }).handFlits slot (p.early.length + 1)
        let q := s.peer slot
        -- a gap closed starts the time of the next one (R387)
        s.setPeer { q with gapSince := if q.early = [] then none else if q.expected = p.expected then some (p.gapSince.getD s.time) else some s.time }

/-! ## Job packets sent again -/

/-- Send one packet again, on its next entropy value (R376, R395). -/
def State.resendPacket (s : State) (x : SentPacket) : State :=
  let p := { x.pkt with entropy := (x.pkt.entropy + 1) % (x.nent + 1) }
  let port := s.ethPort x.dest p.entropy
  let s := { s with fab := { s.fab with sent := s.fab.sent.map (fun y =>
      if y = x then { y with pkt := p, sends := y.sends + 1, at_ := s.time, port := port } else y) } }
  { s with logs := { s.logs with out := s.logs.out ++ [OutMsg.packet port p x.dest] } }

/-- A packet is due to be sent again (R378): at most 8 sends, and at once without a port. -/
def State.packetDue (s : State) (x : SentPacket) : State :=
  if s.fab.ports = [] then s.answer x.pkt.tag [] (some 1) none
  else if 8 ≤ x.sends then s.answer x.pkt.tag [] (some 7) none
  else s.resendPacket x

/-- Count a congestion drop (R395): more than 1,024 to one destination within 1 ms are logged. -/
def State.countDrop (s : State) (dest : Nat) : State :=
  let ds := (dest, s.time) :: s.fab.drops.filter (fun d => decide (s.time < d.2 + 1000000))
  if 1024 < (ds.filter (fun d => d.1 == dest)).length then
    ({ s with fab := { s.fab with drops := ds.filter (fun d => d.1 != dest) } }).deviceEvent 0x13F
  else { s with fab := { s.fab with drops := ds } }

/-- A port leaves the list of live ports (R395). -/
def State.portDown (s : State) (port : Nat) : State :=
  if !s.fab.ports.contains port then s
  else
    let lost := s.fab.sent.filter (fun x => !x.accepted && x.port == port)
    let s := (({ s with fab := { s.fab with ports := s.fab.ports.filter (fun p => p != port) } }).deviceEvent 0x13B).msix 0
    if s.fab.ports = [] then
      ((s.fab.ops.filter (fun o => o.job && o.answered.isNone && !o.held)).map (fun o => o.tag)).foldl
        (fun (s : State) t => s.answer t [] (some 1) none) s
    else lost.foldl (fun (s : State) x => if s.fab.sent.contains x then s.packetDue x else s) s

/-- An accepted packet of a message (R346). -/
def State.markAccepted (s : State) (tag idx : Nat) : State :=
  { s with fab := { s.fab with sent := s.fab.sent.map (fun x =>
      if x.pkt.tag = tag ∧ x.pkt.idx = idx then { x with accepted := true } else x) } }

/-- A packet of a message of several has failed: the message's address is now the lowest that the failing packet writes, or a lower one
refused before (R190, R203). -/
def RemoteOp.failedAt (o : RemoteOp) (idx : Nat) : RemoteOp :=
  match o.lines[idx]? with
  | none => o
  | some l =>
    let off := l.1 + (l.2.findIdx? Option.isSome).getD 0
    let a : DWord := BitVec.ofNat 64 (2 ^ 63 + o.rank * 2 ^ 46 + o.region * 2 ^ 42 + off)
    { o with addr := if o.refused != [] && decide (o.addr.toNat < a.toNat) then o.addr else a }

/-- The bytes that a line of a message writes. -/
def lineBytes (l : Nat × List (Option Byte)) : Nat := (l.2.filter Option.isSome).length

/-- A packet of a message of several has been refused at frozen bytes (R189, R378): the count register falls at once by its bytes, and a region
that it belongs to has failed (R194); the message ends with its completion, once every refusal that the completion counts is here. -/
def State.refusePacket (s : State) (o : RemoteOp) (idx : Nat) : State :=
  if o.refused.contains idx then s
  else
    let n := min o.drop ((o.lines[idx]?.map lineBytes).getD 0)
    let o' : RemoteOp := { o.failedAt idx with refused := idx :: o.refused, drop := o.drop - n }
    let s := { s with fab := { s.fab with ops := s.fab.ops.map (fun (x : RemoteOp) => if x.tag = o.tag then o' else x) } }
    let s := if n = 0 then s else s.countDown o.warp o.k n o.epc o.pid
    let s := if o.inRegion then s.failRegion o.warp (o.cause 5) else s
    match o.complete with
    | some m => if m ≤ o'.refused.length then s.answer o.tag [] none none else s
    | none => s

/-- An acknowledgement, response or refusal of a job packet arrives (R346, R378). -/
def State.jobResponse (s : State) (r : RemResp) : State :=
  match s.fab.ops.find? (fun o => o.tag == r.tag && o.job && o.answered.isNone && !o.held) with
  | none => s
  | some o =>
    if s.genOf r.tag ≠ r.gen then s
    else
      let write : Bool := match o.op with
        | .write _ => true
        | _ => false
      let atomic : Bool := match o.op with
        | .atomic _ _ _ => true
        | .cas _ _ _ => true
        | _ => false
      match r.fail with
      | none =>
        if write || (atomic && r.data == []) then (s.markAccepted r.tag r.idx).releaseHeld s.fab.ops.length
        else s.answer r.tag r.data none r.frz
      | some f =>
        let put := fun (y : RemoteOp) =>
          { s with fab := { s.fab with ops := s.fab.ops.map (fun (x : RemoteOp) => if x.tag = r.tag then y else x) } }
        if f = 5 ∧ 1 < o.lines.length then s.refusePacket o r.idx
        else (put (o.failedAt r.idx)).answer r.tag [] (some f) none

/-- The completion of a message arrives (R377), with the number of packets refused at frozen bytes: it waits for their refusals where it has
overtaken them. -/
def State.jobCompletion (s : State) (tag gen refused : Nat) : State :=
  match s.fab.ops.find? (fun o => o.tag == tag && o.job && o.answered.isNone && !o.held) with
  | some o =>
    let write : Bool := match o.op with
      | .write _ => true
      | _ => false
    if write && s.genOf tag == gen then
      if refused ≤ o.refused.length then s.answer tag [] none none
      else { s with fab := { s.fab with ops := s.fab.ops.map (fun (x : RemoteOp) => if x.tag = tag then { x with complete := some refused } else x) } }
    else s
  | none => s

/-! ## Time -/

/-- Precise time is lost (R348, R398): logged, and delivered to every warp held in a FENCE.job; the fences before other instructions (R202) are
no FENCE. -/
def State.loseTime (s : State) : State :=
  if !s.mgmt.timeHeld then s
  else
    let s := (({ s with mgmt := { s.mgmt with timeHeld := false } }).deviceEvent 0x13C).msix 0
    let held := (s.allWarps ++ s.sched.saved.flatMap (fun p => p.2)).filterMap (fun (w : Warp) => match w.fence with
      | some f => if w.running ∧ f.sc = 4 ∧ f.cmd = 0 then some (w.id, w.wg, f.epc, f.pid) else none
      | none => none)
    held.foldl (fun (s : State) x => s.postOwned x.1 x.2.1 0x13C x.2.2.1 0 x.2.2.2) s

end Sys2Proof.Machine
end

