-- ==== Sys2Proof/Machine/FabricEv.lean ====
section
/-! DEFINITION. The steps of the pod's and the job's fabric (R384–R397), of windows (R347) and of precise time (R398). -/
namespace Sys2Proof.Machine

/-- POD_FLIT_RECEIVE (R386). -/
def execPodFlitReceive (peer : Nat) (flit : Flit) (s : State) : Host.Outcome State Fault Refusal :=
  .next (if peer < 144 ∧ peer ≠ s.selfSlot then s.receiveFlit peer flit else s)

/-- POD_FLIT_SEND (R386). -/
def execPodFlitSend (peer : Nat) (s : State) : Host.Outcome State Fault Refusal :=
  .next (if peer < 144 then s.sendFlit peer else s)

/-- POD_ACK_TIMER (R387): no flit has gone to the peer for 256 ns after a receipt. -/
def execPodAckTimer (peer : Nat) (s : State) : Host.Outcome State Fault Refusal :=
  match (s.peer peer).ackDue with
  | some t => .next (if t + 256 ≤ s.time then s.sendControl peer 1 else s)
  | none => .next s

/-- POD_NACK_TIMER (R387): a gap in SEQ has stood for 512 ns. -/
def execPodNackTimer (peer : Nat) (s : State) : Host.Outcome State Fault Refusal :=
  match (s.peer peer).gapSince with
  | some t =>
    if t + 512 ≤ s.time then .next ((s.setPeer { s.peer peer with gapSince := some s.time }).sendControl peer 2) else .next s
  | none => .next s

/-- POD_RESEND_TIMER (R387, R392): a flit unacknowledged 4 µs after it was sent is sent again; after 8 sends its messages have reached
the retransmission limit. -/
def execPodResendTimer (peer : Nat) (seq : Nat) (s : State) : Host.Outcome State Fault Refusal :=
  match (s.peer peer).unacked.find? (fun u => u.flit.seq == seq) with
  | none => .next s
  | some u =>
    if s.time < u.at_ + 4000 then .next s
    else if 8 ≤ u.sends then .next (s.failOps (s.messageTags (u.flit.slots.filterMap (ownTag s.selfSlot))) 7)
    else if (s.livePlanes (s.peer peer)) = [] then
      let p := s.peer peer
      .next (s.setPeer { p with unacked := p.unacked.map (fun x => if x.flit.seq = seq then { x with sends := x.sends + 1, at_ := s.time } else x) })
    else .next (s.resend peer (fun x => x.flit.seq == seq))

/-- PLANE_DARK (R389). -/
def execPlaneDark (planes : List Nat) (pair : Option Nat) (laser : Bool) (s : State) : Host.Outcome State Fault Refusal :=
  .next (s.darken planes pair laser)

/-- LINK_SUMMARY_SEND (R390): every 10 µs, to each pod peer, the peers to which this device has a live plane. -/
def execLinkSummarySend (s : State) : Host.Outcome State Fault Refusal :=
  if s.time < s.fab.summaryAt + 10000 then .next s
  else
    let me := s.selfSlot
    let self := (rankEntry s s.mgmt.selfRank).getD 0
    let slots := ((List.range s.mgmt.nRank).filterMap (fun r => match rankEntry s r with
      | some e => if bits e 11 2 = bits self 11 2 ∧ bits e 19 12 ≠ me then some (bits e 19 12) else none
      | none => none)).eraseDups
    let lit := slots.filter (fun d => (s.livePlanes (s.peer d)) != [])
    let s := slots.foldl (fun (s : State) d => (s.toPeer d (.summary me lit)).getD s) s
    .next { s with fab := { s.fab with summaryAt := s.time } }

/-- JOB_PACKET_RECEIVE (R377). -/
def execJobPacketReceive (pkt : JobPacket) (s : State) : Host.Outcome State Fault Refusal :=
  .next (s.receivePacket pkt)

/-- JOB_COMPLETION_RECEIVE (R377). -/
def execJobCompletionReceive (tag : Nat) (done : Completion) (s : State) : Host.Outcome State Fault Refusal :=
  .next (s.jobCompletion tag done.gen done.refused)

/-- JOB_RESPONSE_RECEIVE (R346). -/
def execJobResponseReceive (resp : RemResp) (s : State) : Host.Outcome State Fault Refusal :=
  .next (s.jobResponse resp)

/-- JOB_RETRANSMIT_TIMER (R378, R395): packet `i` of a message has not been acknowledged for RETXT, or congestion management dropped it. -/
def execJobRetransmitTimer (tag : Nat) (i : Nat) (dropped : Bool) (s : State) : Host.Outcome State Fault Refusal :=
  match s.fab.sent.find? (fun x => x.pkt.tag == tag && x.pkt.idx == i && !x.accepted) with
  | none => .next s
  | some x =>
    if dropped then .next ((s.countDrop x.dest).packetDue x)
    else if s.time < x.at_ + s.mgmt.retxt then .next s
    else .next (s.packetDue x)

/-- LANDING_COUNTER_DEADLINE (R397). -/
def execLandingCounterDeadline (rank : Nat) (tag : Nat) (gen : Nat) (s : State) : Host.Outcome State Fault Refusal :=
  .next { s with fab := { s.fab with landings := s.fab.landings.filter (fun c =>
    !(c.init == rank && c.tag == tag && c.gen == gen && decide (c.deadline < s.time))) } }

/-- ETHERNET_PORT_DOWN (R395). -/
def execEthernetPortDown (port : Nat) (s : State) : Host.Outcome State Fault Refusal :=
  .next (s.portDown port)

/-- WINDOW_BOUNDARY (R347): device time reaches the next boundary, the arithmetic clock moving with it. -/
def execWindowBoundary (s : State) : Host.Outcome State Fault Refusal :=
  let t := (s.windowNo + 1) * 2 ^ s.mgmt.logW
  .next { (s.passTime t) with clk := s.clk + (t - s.time) * s.mgmt.mhz / 1000 }

/-- PTP_SYNC (R161, R398): device time steps forward by an offset in ns, and never back, where it waits to be overtaken; an offset beyond
δ = 250 ns is a loss of precise time. -/
def execPtpSync (offset : Int) (s : State) : Host.Outcome State Fault Refusal :=
  let t := s.passTime (s.time + offset.toNat)
  let t := { t with fab := { t.fab with syncAt := t.time } }
  if -250 ≤ offset ∧ offset ≤ 250 then .next { t with mgmt := { t.mgmt with timeHeld := true } } else .next t.loseTime

/-- PRECISE_TIME_LOSS (R398): no synchronisation has arrived for 1 s. -/
def execPreciseTimeLoss (s : State) : Host.Outcome State Fault Refusal :=
  .next (if s.fab.syncAt + 1000000000 ≤ s.time then s.loseTime else s)

end Sys2Proof.Machine
end

