-- ==== Sys2Proof/Machine/FloatInstr.lean ====
section
/-! DEFINITION. Class 2: floating point, conversion and special functions (R124–R142). -/
namespace Sys2Proof.Machine

/-- The element format of a float type, and its elements (R124). -/
def fmtOf : Ty → Fmt × Nat
  | .f64 => (.f64, 1)
  | .f16 => (.f16, 1)
  | .bf16 => (.bf16, 1)
  | .f16x2 => (.f16, 2)
  | .bf16x2 => (.bf16, 2)
  | _ => (.f32, 1)

/-- The i-th of a list of numbers. -/
def num (y : List Nat) (i : Nat) : Nat := y.getD i 0

/-- A computation on each element of a type, sources negated on request (R124, R125). -/
def onElems (t : Ty) (neg : List Bool) (f : Fmt → List Nat → Nat) (xs : List DWord) : DWord :=
  let g := (fmtOf t).1
  let w := 1 + g.eb + g.mb
  BitVec.ofNat 64 ((List.range (fmtOf t).2).foldl (fun acc i =>
    acc + f g ((xs.zip neg).map (fun p => fNeg g p.2 (p.1.toNat / 2 ^ (w * i) % 2 ^ w))) * 2 ^ (w * i)) 0)

/-! ## Conversion -/

/-- A value being converted. -/
inductive NumVal where
  | int (x : Int)
  | flt (v : FVal)
  deriving DecidableEq, Repr

/-- The integer type of a kind code 0–7 (R90, R133). -/
def kindInt (k : Nat) : Option Ty := if k < 8 then Ty.ofCode k else none

/-- The float format of one element of a kind (R133). -/
def kindFmt (k : Nat) : Fmt :=
  match k with
  | 9 => .f64
  | 10 => .f16
  | 11 => .bf16
  | 12 => .f16
  | 13 => .bf16
  | 14 => .e4m3
  | 15 => .e5m2
  | 16 => .e4m3
  | 17 => .e5m2
  | 18 => .e2m1
  | 19 => .e5m3
  | 20 => .e2m1
  | _ => .f32

/-- Bits of one element of a kind as held in its register. -/
def kindBits (k : Nat) : Nat :=
  let f := kindFmt k
  f.eb + f.mb + (if f.signed then 1 else 0)

/-- Element i of a register of a kind. -/
def readKind (k : Nat) (i : Nat) (x : DWord) : NumVal :=
  match kindInt k with
  | some t => .int (intVal t x)
  | none => .flt ((kindFmt k).val (x.toNat / 2 ^ (kindBits k * i) % 2 ^ kindBits k))

/-- A value converted to one element of a kind (R23, R136). -/
def toKind (k : Nat) (rm : Rm) (sat : Bool) (sk : Nat) (v : NumVal) : DWord :=
  match kindInt k, v with
  | some t, .int x =>
    -- narrower, or one width with the other signedness: clamped under SAT; wider: extended by the source
    let narrower := match kindInt sk with
      | some u => decide (tyBits t ≤ tyBits u)
      | none => true
    intRes t (sat && narrower) x
  | some t, .flt v => intRes t false (v.toInt rm (tyRange t).1 (tyRange t).2)
  | none, .int x => BitVec.ofNat 64 ((kindFmt k).convert rm sat (.fin (decide (x < 0)) x.natAbs 0) false)
  | none, .flt v => BitVec.ofNat 64 ((kindFmt k).convert rm sat v false)

/-- Latency of a conversion: 12 when a kind is 64 bits wide (R92). -/
def cvtLat (dk sk : Nat) : Nat := if kindRegs dk = 2 ∨ kindRegs sk = 2 then 12 else 6

/-- Write n consecutive v registers of one lane value each. -/
def State.putRun (s : State) (d : Opd) (mask : Mask) (xs : List Lanes) (lat : Lat) : State :=
  match d with
  | .v r => xs.zipIdx.foldl (fun s x => s.writeV (r + x.2) mask (x.1.map (fun (y : DWord) => y.setWidth 32)) lat) s
  | _ => s

/-- The v registers r … r + n − 1 as sources. -/
def runOf (a : Opd) (n : Nat) : List (Opd × Nat) :=
  match a with
  | .v r => (List.range n).map (fun i => (Opd.v (r + i), 1))
  | _ => []

/-- The effect of CVT between two kinds (R135, R136): scalar or packed, pack, or unpack. -/
def cvtEff (dk sk : Nat) (rm : Rm) (sat : Bool) (d a : Opd) : State → Mask → Eff :=
  let lat := cvtLat dk sk
  let nd := kindElems dk
  let ns := kindElems sk
  if sk = 8 ∧ nd ≠ 0 then
    vecOp (runOf a nd) d 1 lat (fun _ x => BitVec.ofNat 64 ((List.range nd).foldl (fun acc i =>
      acc + (toKind dk rm sat sk (readKind sk 0 (arg x i))).toNat * 2 ^ (kindBits dk * i)) 0))
  else if dk = 8 ∧ ns ≠ 0 then
    withSrcs [(a, 1)] (fun s => s.fixed lat) (fun s live xs =>
      let x := xs.getD 0 (Vector.replicate 128 0)
      .ok (s.putRun d live ((List.range ns).map (fun i => x.map (fun y => toKind dk rm sat sk (readKind sk i y)))) (s.fixed lat)))
  else if nd ≠ 0 then
    vecOp [(a, 1)] d 1 lat (fun _ x => BitVec.ofNat 64 ((List.range nd).foldl (fun acc i =>
      acc + (toKind dk rm sat sk (readKind sk i (arg x 0))).toNat * 2 ^ (kindBits dk * i)) 0))
  else
    vecOp [(a, kindRegs sk)] d (kindRegs dk) lat (fun _ x => toKind dk rm sat sk (readKind sk 0 (arg x 0)))

/-- The quantised element of CVTQ (R137), from the source encoding, the scale and the zero point as read. -/
def cvtqOf (t : QTarget) (f : Fmt) (rm : Rm) (sat : Bool) (x b c : Nat) : Nat :=
  match t with
  | .q4 => quantise rm 4 (f.val x) (Fmt.f16.val (b % 65536)) (c % 16)
  | .q8 => quantise rm 8 (f.val x) (Fmt.f16.val (b % 65536)) (c % 256)
  | .e2m1b => let q := (f.val x).div (Fmt.e5m3.val (b % 256)); Fmt.e2m1.convert rm sat q.1 q.2
  | .e4m3b => let q := (f.val x).div (Fmt.e5m3.val (b % 256)); Fmt.e4m3.convert rm sat q.1 q.2

/-- The exact value of DQ (R138). -/
def dqOf (t : QTarget) (a b c : Nat) : FVal :=
  match t with
  | .q4 => dequantise (Fmt.f16.val (b % 65536)) (a % 16) (c % 16)
  | .q8 => dequantise (Fmt.f16.val (b % 65536)) (a % 256) (c % 256)
  | .e2m1b => blockValue (Fmt.e5m3.val (b % 256)) (Fmt.e2m1.val (a % 16))
  | .e4m3b => blockValue (Fmt.e5m3.val (b % 256)) (Fmt.e4m3.val (a % 256))

/-- FADD (R127). -/
def execFadd (h : Hdr) (ty : Ty) (rm : Rm) (sat : Bool) (na : Bool) (nb : Bool) (d : Opd) (a : Opd) (b : Opd) (s : State) : Host.Outcome State Fault Refusal :=
  run (.fadd h ty rm sat na nb d a b) h (vecOp [(a, tyRegs ty), (b, tyRegs ty)] d (tyRegs ty) (if ty = .f64 then 12 else 6) (fun _ x =>
    onElems ty [na, nb] (fun f y => fAdd f rm sat (num y 0) (num y 1)) [arg x 0, arg x 1])) s

/-- FADD (R127), immediate form (R102). -/
def execFaddImm (h : Hdr) (ty : Ty) (rm : Rm) (sat : Bool) (d : Opd) (a : Opd) (imm : BitVec 32) (s : State) : Host.Outcome State Fault Refusal :=
  run (.faddImm h ty rm sat d a imm) h (vecOp [(a, tyRegs ty)] d (tyRegs ty) (if ty = .f64 then 12 else 6) (fun _ x =>
    onElems ty [false, false] (fun f y => fAdd f rm sat (num y 0) (num y 1)) [arg x 0, immVal ty imm])) s

/-- FMUL (R127). -/
def execFmul (h : Hdr) (ty : Ty) (rm : Rm) (sat : Bool) (na : Bool) (nb : Bool) (d : Opd) (a : Opd) (b : Opd) (s : State) : Host.Outcome State Fault Refusal :=
  run (.fmul h ty rm sat na nb d a b) h (vecOp [(a, tyRegs ty), (b, tyRegs ty)] d (tyRegs ty) (if ty = .f64 then 12 else 6) (fun _ x =>
    onElems ty [na, nb] (fun f y => fMul f rm sat (num y 0) (num y 1)) [arg x 0, arg x 1])) s

/-- FMUL (R127), immediate form (R102). -/
def execFmulImm (h : Hdr) (ty : Ty) (rm : Rm) (sat : Bool) (d : Opd) (a : Opd) (imm : BitVec 32) (s : State) : Host.Outcome State Fault Refusal :=
  run (.fmulImm h ty rm sat d a imm) h (vecOp [(a, tyRegs ty)] d (tyRegs ty) (if ty = .f64 then 12 else 6) (fun _ x =>
    onElems ty [false, false] (fun f y => fMul f rm sat (num y 0) (num y 1)) [arg x 0, immVal ty imm])) s

/-- FFMA (R127). -/
def execFfma (h : Hdr) (ty : Ty) (rm : Rm) (sat : Bool) (na : Bool) (nb : Bool) (nc : Bool) (d : Opd) (a : Opd) (b : Opd) (c : Opd) (s : State) : Host.Outcome State Fault Refusal :=
  run (.ffma h ty rm sat na nb nc d a b c) h (vecOp [(a, tyRegs ty), (b, tyRegs ty), (c, tyRegs ty)] d (tyRegs ty) (if ty = .f64 then 12 else 6) (fun _ x =>
    onElems ty [na, nb, nc] (fun f y => fFma f rm sat (num y 0) (num y 1) (num y 2)) [arg x 0, arg x 1, arg x 2])) s

/-- FFMA (R127), immediate form (R102). -/
def execFfmaImm (h : Hdr) (ty : Ty) (rm : Rm) (sat : Bool) (d : Opd) (a : Opd) (imm : BitVec 32) (s : State) : Host.Outcome State Fault Refusal :=
  run (.ffmaImm h ty rm sat d a imm) h (vecOp [(a, tyRegs ty), (d, tyRegs ty)] d (tyRegs ty) (if ty = .f64 then 12 else 6) (fun _ x =>
    onElems ty [false, false, false] (fun f y => fFma f rm sat (num y 0) (num y 1) (num y 2)) [arg x 0, immVal ty imm, arg x 1])) s

/-- FMIN (R128). -/
def execFmin (h : Hdr) (ty : Ty) (na : Bool) (nb : Bool) (d : Opd) (a : Opd) (b : Opd) (s : State) : Host.Outcome State Fault Refusal :=
  run (.fmin h ty na nb d a b) h (vecOp [(a, tyRegs ty), (b, tyRegs ty)] d (tyRegs ty) (if ty = .f64 then 12 else 6) (fun _ x =>
    onElems ty [na, nb] (fun f y => fMinMax f false (num y 0) (num y 1)) [arg x 0, arg x 1])) s

/-- FMIN (R128), immediate form (R102). -/
def execFminImm (h : Hdr) (ty : Ty) (d : Opd) (a : Opd) (imm : BitVec 32) (s : State) : Host.Outcome State Fault Refusal :=
  run (.fminImm h ty d a imm) h (vecOp [(a, tyRegs ty)] d (tyRegs ty) (if ty = .f64 then 12 else 6) (fun _ x =>
    onElems ty [false, false] (fun f y => fMinMax f false (num y 0) (num y 1)) [arg x 0, immVal ty imm])) s

/-- FMAX (R128). -/
def execFmax (h : Hdr) (ty : Ty) (na : Bool) (nb : Bool) (d : Opd) (a : Opd) (b : Opd) (s : State) : Host.Outcome State Fault Refusal :=
  run (.fmax h ty na nb d a b) h (vecOp [(a, tyRegs ty), (b, tyRegs ty)] d (tyRegs ty) (if ty = .f64 then 12 else 6) (fun _ x =>
    onElems ty [na, nb] (fun f y => fMinMax f true (num y 0) (num y 1)) [arg x 0, arg x 1])) s

/-- FMAX (R128), immediate form (R102). -/
def execFmaxImm (h : Hdr) (ty : Ty) (d : Opd) (a : Opd) (imm : BitVec 32) (s : State) : Host.Outcome State Fault Refusal :=
  run (.fmaxImm h ty d a imm) h (vecOp [(a, tyRegs ty)] d (tyRegs ty) (if ty = .f64 then 12 else 6) (fun _ x =>
    onElems ty [false, false] (fun f y => fMinMax f true (num y 0) (num y 1)) [arg x 0, immVal ty imm])) s

/-- FCMP (R129). -/
def execFcmp (h : Hdr) (ty : Ty) (cmp : FCmp) (na : Bool) (nb : Bool) (pd : Nat) (a : Opd) (b : Opd) (s : State) : Host.Outcome State Fault Refusal :=
  run (.fcmp h ty cmp na nb pd a b) h (vecTest [(a, tyRegs ty), (b, tyRegs ty)] pd (if ty = .f64 then 12 else 6) (fun _ x =>
    fCmp (fmtOf ty).1 cmp (fNeg (fmtOf ty).1 na (pat (tyBits ty) (arg x 0))) (fNeg (fmtOf ty).1 nb (pat (tyBits ty) (arg x 1))))) s

/-- FCMP (R129), immediate form. -/
def execFcmpImm (h : Hdr) (ty : Ty) (cmp : FCmp) (pd : Nat) (a : Opd) (imm : BitVec 32) (s : State) : Host.Outcome State Fault Refusal :=
  run (.fcmpImm h ty cmp pd a imm) h (vecTest [(a, tyRegs ty)] pd (if ty = .f64 then 12 else 6) (fun _ x =>
    fCmp (fmtOf ty).1 cmp (fNeg (fmtOf ty).1 false (pat (tyBits ty) (arg x 0))) (fNeg (fmtOf ty).1 false (pat (tyBits ty) (immVal ty imm))))) s

/-- FCLASS (R130). -/
def execFclass (h : Hdr) (ty : Ty) (d : Opd) (a : Opd) (s : State) : Host.Outcome State Fault Refusal :=
  run (.fclass h ty d a) h (vecOp [(a, tyRegs ty)] d 1 (if ty = .f64 then 12 else 6) (fun _ x => BitVec.ofNat 64 (2 ^ fClass (fmtOf ty).1 (pat (tyBits ty) (arg x 0))))) s

/-- FCLASS.test (R130). -/
def execFclassTest (h : Hdr) (ty : Ty) (pd : Nat) (a : Opd) (b : Opd) (s : State) : Host.Outcome State Fault Refusal :=
  run (.fclassTest h ty pd a b) h (vecTest [(a, tyRegs ty), (b, 1)] pd (if ty = .f64 then 12 else 6) (fun _ x =>
    (arg x 1).getLsbD (fClass (fmtOf ty).1 (pat (tyBits ty) (arg x 0))))) s

/-- FRND (R131). -/
def execFrnd (h : Hdr) (ty : Ty) (rm : Rm) (d : Opd) (a : Opd) (s : State) : Host.Outcome State Fault Refusal :=
  run (.frnd h ty rm d a) h (vecOp [(a, tyRegs ty)] d (tyRegs ty) (if ty = .f64 then 12 else 6) (fun _ x => onElems ty [false] (fun f y => fRnd f rm (num y 0)) [arg x 0])) s

/-- FFRAC (R131). -/
def execFfrac (h : Hdr) (ty : Ty) (d : Opd) (a : Opd) (s : State) : Host.Outcome State Fault Refusal :=
  run (.ffrac h ty d a) h (vecOp [(a, tyRegs ty)] d (tyRegs ty) (if ty = .f64 then 12 else 6) (fun _ x => onElems ty [false] (fun f y => fFrac f (num y 0)) [arg x 0])) s

/-- FSCALE (R132): B is read as i32. -/
def execFscale (h : Hdr) (ty : Ty) (rm : Rm) (sat : Bool) (d : Opd) (a : Opd) (b : Opd) (s : State) : Host.Outcome State Fault Refusal :=
  run (.fscale h ty rm sat d a b) h (vecOp [(a, tyRegs ty), (b, 1)] d (tyRegs ty) (if ty = .f64 then 12 else 6) (fun _ x =>
    onElems ty [false] (fun f y => fScale f rm sat (num y 0) (intVal .i32 (arg x 1))) [arg x 0])) s

/-- CVT (R134–R136). -/
def execCvt (h : Hdr) (ty : Ty) (sel : Nat) (sk : Nat) (rm : Rm) (sat : Bool) (d : Opd) (a : Opd) (s : State) : Host.Outcome State Fault Refusal :=
  run (.cvt h ty sel sk rm sat d a) h (cvtEff (cvtKind ty sel) sk rm sat d a) s

/-- CVTQ (R137). -/
def execCvtq (h : Hdr) (tk : QTarget) (sk : Ty) (rm : Rm) (sat : Bool) (d : Opd) (a : Opd) (b : Opd) (c : Opd) (s : State) : Host.Outcome State Fault Refusal :=
  run (.cvtq h tk sk rm sat d a b c) h (vecOp ([(a, tyRegs sk), (b, 1)] ++ (if tk.grouped then [(c, 1)] else [])) d 1 (if sk = .f64 then 12 else 6) (fun _ x =>
    BitVec.ofNat 64 (cvtqOf tk (fmtOf sk).1 rm sat (pat (tyBits sk) (arg x 0)) (arg x 1).toNat (arg x 2).toNat))) s

/-- DQ (R138). -/
def execDq (h : Hdr) (ty : Ty) (kind : QTarget) (rm : Rm) (sat : Bool) (d : Opd) (a : Opd) (b : Opd) (c : Opd) (s : State) : Host.Outcome State Fault Refusal :=
  run (.dq h ty kind rm sat d a b c) h (vecOp ([(a, 1), (b, 1)] ++ (if kind.grouped then [(c, 1)] else [])) d (tyRegs ty) (if ty = .f64 then 12 else 6) (fun _ x =>
    BitVec.ofNat 64 ((fmtOf ty).1.round rm sat (dqOf kind (arg x 0).toNat (arg x 1).toNat (arg x 2).toNat)))) s

/-- RCP (R139–R142). -/
def execRcp (h : Hdr) (ty : Ty) (na : Bool) (d : Opd) (a : Opd) (s : State) : Host.Outcome State Fault Refusal :=
  run (.rcp h ty na d a) h (vecOp [(a, tyRegs ty)] d (tyRegs ty) (if ty = .f64 then 40 else 20) (fun _ x =>
    onElems ty [na] (fun f y => fSpecial 0x10D f (num y 0)) [arg x 0])) s

/-- RSQ (R139–R142). -/
def execRsq (h : Hdr) (ty : Ty) (na : Bool) (d : Opd) (a : Opd) (s : State) : Host.Outcome State Fault Refusal :=
  run (.rsq h ty na d a) h (vecOp [(a, tyRegs ty)] d (tyRegs ty) (if ty = .f64 then 40 else 20) (fun _ x =>
    onElems ty [na] (fun f y => fSpecial 0x10E f (num y 0)) [arg x 0])) s

/-- SQRT (R139–R141). -/
def execSqrt (h : Hdr) (ty : Ty) (rm : Rm) (na : Bool) (d : Opd) (a : Opd) (s : State) : Host.Outcome State Fault Refusal :=
  run (.sqrt h ty rm na d a) h (vecOp [(a, tyRegs ty)] d (tyRegs ty) (if ty = .f64 then 40 else 20) (fun _ x =>
    onElems ty [na] (fun f y => fSqrt f rm (num y 0)) [arg x 0])) s

/-- EXP2 (R139–R142). -/
def execExp2 (h : Hdr) (ty : Ty) (na : Bool) (d : Opd) (a : Opd) (s : State) : Host.Outcome State Fault Refusal :=
  run (.exp2 h ty na d a) h (vecOp [(a, tyRegs ty)] d (tyRegs ty) (if ty = .f64 then 40 else 20) (fun _ x =>
    onElems ty [na] (fun f y => fSpecial 0x110 f (num y 0)) [arg x 0])) s

/-- LOG2 (R139–R142). -/
def execLog2 (h : Hdr) (ty : Ty) (na : Bool) (d : Opd) (a : Opd) (s : State) : Host.Outcome State Fault Refusal :=
  run (.log2 h ty na d a) h (vecOp [(a, tyRegs ty)] d (tyRegs ty) (if ty = .f64 then 40 else 20) (fun _ x =>
    onElems ty [na] (fun f y => fSpecial 0x111 f (num y 0)) [arg x 0])) s

/-- SINR (R139–R142). -/
def execSinr (h : Hdr) (ty : Ty) (na : Bool) (d : Opd) (a : Opd) (s : State) : Host.Outcome State Fault Refusal :=
  run (.sinr h ty na d a) h (vecOp [(a, tyRegs ty)] d (tyRegs ty) (if ty = .f64 then 40 else 20) (fun _ x =>
    onElems ty [na] (fun f y => fSpecial 0x112 f (num y 0)) [arg x 0])) s

/-- COSR (R139–R142). -/
def execCosr (h : Hdr) (ty : Ty) (na : Bool) (d : Opd) (a : Opd) (s : State) : Host.Outcome State Fault Refusal :=
  run (.cosr h ty na d a) h (vecOp [(a, tyRegs ty)] d (tyRegs ty) (if ty = .f64 then 40 else 20) (fun _ x =>
    onElems ty [na] (fun f y => fSpecial 0x113 f (num y 0)) [arg x 0])) s

end Sys2Proof.Machine
end

