-- ==== Sys2Proof/Machine/HostEv.lean ====
section
/-! DEFINITION. What the host and the control cluster do to the machine: services (R160, R368, R369), commands (R370), accesses (R361,
R362), ownership transfers and the host link (R364–R366). -/
namespace Sys2Proof.Machine

/-- SYSCALL_SERVICE_RUN (R160, R368). -/
def execSyscallServiceRun (wg : Nat) (s : State) : Host.Outcome State Fault Refusal :=
  match s.wgOf wg with
  | none => .next s
  | some g => .next (if s.exposed && s.sysReady g then s.runService g else s)

/-- SERVICE_DONE (R369): the host has written status and done into the entry, and the status returns to the waiting warps. -/
def execServiceDone (seq : Nat) (status : Word) (s : State) : Host.Outcome State Fault Refusal :=
  match s.host.services.find? (fun x => x.seq == seq) with
  | none => .next s
  | some x =>
    let r := s.mgmt.svcRing.toNat
    let off := 128 * bits r 21 7 + 128 * (seq % 2 ^ bits r 27 24)
    let done := (Config.freeWord s.freeCtr 3) ||| 1#64
    let s := (s.hostCwin (off + 36) (some (leBytes 4 status.toNat ++ leBytes 8 done.toNat)) 12 false).draw
    .next (({ s with host := { s.host with services := s.host.services.filter (fun y => y.seq != seq) } }).sysStatus x.wg status)

/-- SERVICE_TIMEOUT (R369): after SVCTO every warp of the workgroup takes 0x16A, and a later answer is ignored. -/
def execServiceTimeout (seq : Nat) (s : State) : Host.Outcome State Fault Refusal :=
  match s.host.services.find? (fun x => x.seq == seq) with
  | none => .next s
  | some x =>
    if s.time - x.since < s.mgmt.svcto * 1000000 then .next s
    else
      .next (({ s with host := { s.host with services := s.host.services.filter (fun y => y.seq != seq) } }).failService x.wg 0x16A)

/-- TLB_INVALIDATE (R270, R370): command 0x0001. -/
def execTlbInvalidate (asid : Nat) (va : DWord) (len : DWord) (s : State) : Host.Outcome State Fault Refusal :=
  .next (s.hostCmd 1 (fun s =>
    if 2 ^ 16 ≤ asid then none
    else some (s.dropTlb (fun e =>
      e.asid == asid && decide (e.va * 2 ^ e.size < va.toNat + len.toNat ∧ va.toNat < (e.va + 1) * 2 ^ e.size)))))

/-- CANCEL_LAUNCH_CMD (R370, R413): command 0x0002 cancels the launches of that identifier with 0x16E. -/
def execCancelLaunchCmd (lid : DWord) (s : State) : Host.Outcome State Fault Refusal :=
  .next (s.hostCmd 2 (fun s => some ((List.range 8).foldl (fun (s : State) p => s.cancelIdent p .launch lid.toNat 0x16E) s)))

/-- SET_JOB_WINDOW (R370, R399): command 0x0003. -/
def execSetJobWindow (lw : Nat) (s : State) : Host.Outcome State Fault Refusal :=
  .next (s.hostCmd 3 (fun s =>
    if lw < 10 ∨ 16 < lw then none
    else some (({ s with mgmt := { s.mgmt with logW := lw } }).deviceEvent 0x13D)))

/-- The parts of a range of host-physical addresses that lie in one 64-byte line each: address and length. -/
def hostChunks : Nat → Nat → Nat → List (Nat × Nat)
  | 0, _, _ => []
  | _, _, 0 => []
  | fuel + 1, addr, n + 1 =>
    let k := min (n + 1) (64 - addr % 64)
    (addr, k) :: hostChunks fuel (addr + k) (n + 1 - k)

/-- HOST_COPY (R370): command 0x0004 moves the bytes between host memory and a device address of the HDM decoder's range (R361); it is done
when every byte has moved, those that wait for an ownership transfer too. -/
def execHostCopy (toHost : Bool) (addr : Nat) (data : List Byte) (s : State) : Host.Outcome State Fault Refusal :=
  let n := data.length
  .next (s.hostCmd 4 (fun s =>
    if 2 ^ 39 + 2 ^ 40 + 2 ^ 22 < addr + n then none
    else some ((hostChunks n addr n).foldl (fun (s : State) c => match hdm c.1 with
      | some (t, o) => s.hostMem { tier := t, off := o, data := if toHost then none else some ((data.drop (c.1 - addr)).take c.2), n := c.2, copy := true }
      | none => s) s)))

/-- UNKNOWN_COMMAND (R370): any other code writes result 0xFFFF_FFFF. -/
def execUnknownCommand (code : Nat) (s : State) : Host.Outcome State Fault Refusal :=
  .next (if 1 ≤ code ∧ code ≤ 4 then s else s.hostCmd code (fun _ => none))

/-- CXL_MEM_ACCESS (R361, R363): a host access within one line of the HDM decoder's range. -/
def execCxlMemAccess (addr : Nat) (data : Option (List Byte)) (len : Nat) (s : State) : Host.Outcome State Fault Refusal :=
  let n := match data with
    | some bs => bs.length
    | none => len
  match hdm addr with
  | none => .fault .hdmRange
  | some (t, o) =>
    if !s.exposed ∨ n = 0 ∨ 64 < o % 64 + n then .next s
    else .next (s.hostMem { tier := t, off := o, data := data, n := n, copy := false })

/-- HOST_CWIN_ACCESS (R255, R362): a host load or store within one line of the coherent window; a store without bytes that is kept says that
the host's copy of the line is poisoned (R366). -/
def execHostCwinAccess (off : Nat) (data : Option (List Byte)) (len : Nat) (keep : Bool) (s : State) : Host.Outcome State Fault Refusal :=
  let n := match data with
    | some bs => bs.length
    | none => len
  if !s.exposed ∨ 2 ^ 22 ≤ off then .next s
  else if keep ∧ data = some [] then .next (s.hostPoison off)
  else if n = 0 ∨ 64 < off % 64 + n then .next s else .next (s.hostCwin off data n keep)

/-- OWNERSHIP_TRANSFER (R364, R365): the transfer under way of a region completes, the host having answered where it must. -/
def execOwnershipTransfer (region : Nat) (merge : List (Nat × Option (List Byte))) (s : State) : Host.Outcome State Fault Refusal :=
  match s.mem.own.find? (fun o => o.leafLoc == region) with
  | none => .next s
  | some o => match o.target with
    | none => .next s
    | some t => if o.stuck ∨ (t = 2 ∧ !s.host.linkUp) then .next s else .next (s.transfer o t merge).retryAll

/-- TENURE_EXPIRY (R365): the oldest waiting request proceeds; with no OWNREQ waiting the accesses that wait may start a transfer. The
accelerator's tenure does not end before the device accesses that waited for it have been performed. -/
def execTenureExpiry (region : Nat) (s : State) : Host.Outcome State Fault Refusal :=
  match s.mem.own.find? (fun o => o.leafLoc == region) with
  | none => .next s
  | some o =>
    if o.target.isSome ∨ s.time < o.tenure ∨ (bits (s.mem.dword region) 7 6 = 2 ∧ o.due.any s.waiterStands) then .next s
    else match o.waiting with
      | [] => .next ({ s with mem := { s.mem with own := s.mem.own.filter (fun x => x.leafLoc != region) } }).retryAll
      | r :: _ => .next (s.setOwn { o with target := some r.want, asked := true, since := s.time })

/-- BACKINV_TIMEOUT (R366): the host has been silent for 10 ms; the transfer stops, its region transferring, and the OWNREQ that
started it takes 0x16B. -/
def execBackinvTimeout (region : Nat) (s : State) : Host.Outcome State Fault Refusal :=
  match s.mem.own.find? (fun o => o.leafLoc == region) with
  | none => .next s
  | some o =>
    if o.target ≠ some 2 ∨ o.stuck ∨ s.time < o.since + 10000000 then .next s
    else match o.waiting with
      | r :: rest =>
        if r.want = 2 ∧ o.asked then .next ((s.setOwn { o with stuck := true, waiting := rest }).postOwned r.warp r.wg 0x16B r.epc r.addr r.pid).retryAll
        else .next (s.setOwn { o with stuck := true }).retryAll
      | [] => .next (s.setOwn { o with stuck := true }).retryAll

/-- HOST_LINK_DOWN (R366): the host link goes down, or comes back; in recovery it trains no link but CXL.io (R371). -/
def execHostLinkDown (down : Bool) (s : State) : Host.Outcome State Fault Refusal :=
  .next { s with host := { s.host with linkUp := !down && s.exposed } }

end Sys2Proof.Machine
end

