-- ==== Sys2Proof/Machine/Lane.lean ====
section
/-! DEFINITION. Predicate and lane instructions (R114–R123), with the trees of R34 and R35. -/
namespace Sys2Proof.Machine

/-- A predicate source, negated on request (R114). -/
def predSrc (s : State) (n : Nat) (neg : Bool) : Mask := if neg then ~~~(s.readP n) else s.readP n

/-- Every predicate of each lane: bit i is p_i, bit 31 is 1 (R114, R192). -/
def savedPreds (s : State) : Lanes :=
  let ps := (List.range 31).map (fun i => s.readP i)
  Vector.ofFn (fun l : Fin 128 =>
    BitVec.ofNat 64 (2 ^ 31 + (ps.zipIdx.foldl (fun n p => if p.1.getLsbD l then n + 2 ^ p.2 else n) 0)))

/-- Load p0–p30 in the lanes of a mask from the bits of a vector (R114). -/
def loadPreds (s : State) (act : Mask) (x : Lanes) : State :=
  (List.range 31).foldl (fun s i => s.writeP i act (maskOf (fun l => (x.getD l 0).getLsbD i)) (s.fixed 2)) s

/-- The verdict of VOTE (R116). -/
def voteOf (m : VoteMode) (act v : Mask) : Bool :=
  match m with
  | .all => act &&& ~~~v == 0
  | .any => act &&& v != 0
  | .uni => (act &&& ~~~v == 0) || (act &&& v == 0)

/-- The four words of BALLOT (R117). -/
def ballotPut (s : State) (d : Opd) (m : Mask) : State :=
  match d with
  | .s r => (List.range 4).foldl (fun s i => s.writeS (r + i) ((m >>> (32 * i)).setWidth 32) (s.fixed 10)) s
  | _ => s

/-- The source lane of LGET in groups of `g` (R118). -/
def lgetSrc (m : LgetMode) (g l n : Nat) : Nat :=
  let base := l - l % g
  let off := l % g
  match m with
  | .abs => base + n % g
  | .rot => base + (off + n) % g
  | .rev => base + (g - 1 - (off + n) % g)
  | .xor => base + Nat.xor off (n % g)

/-- The negation of PSWAP.neglo (R119). -/
def pswapNeg (t : Ty) (x : DWord) : DWord :=
  match t with
  | .f64 => x ^^^ (1 <<< 63)
  | .f32 => x ^^^ (1 <<< 31)
  | .f16 | .bf16 => x ^^^ (1 <<< 15)
  | .f16x2 | .bf16x2 => x ^^^ (1 <<< 31) ^^^ (1 <<< 15)
  | t => intRes t false (-(intVal t x))

/-- One node of the tree: op(x, y), x the first operand (R34, R121). DESIGN CHOICE (log 71): a lane that meets only empty nodes passes its bits
unchanged, a NaN that is not canonical too: R34 gives comb(x, empty) = x, where R19 makes the NaNs an operation produces canonical. -/
def comb2 (op : RedOp) (rm : Rm) (t : Ty) (x y : DWord) : DWord :=
  let f := if t = .f64 then Fmt.f64 else Fmt.f32
  let isF := decide (t = .f32) || decide (t = .f64)
  match op with
  | .add => if isF then BitVec.ofNat 64 (fAdd f rm false (pat (tyBits t) x) (pat (tyBits t) y)) else aluAdd t false false false x y
  | .min => if isF then BitVec.ofNat 64 (fMinMax f false (pat (tyBits t) x) (pat (tyBits t) y)) else aluMinMax t false x y
  | .max => if isF then BitVec.ofNat 64 (fMinMax f true (pat (tyBits t) x) (pat (tyBits t) y)) else aluMinMax t true x y
  | .and => aluBit .and t false false x y
  | .or => aluBit .or t false false x y
  | .xor => aluBit .xor t false false x y

/-- Nodes may be empty (R34). -/
def comb (op : RedOp) (rm : Rm) (t : Ty) : Option DWord → Option DWord → Option DWord
  | none, y => y
  | x, none => x
  | some x, some y => some (comb2 op rm t x y)

/-- One level of the tree from the level below. -/
def pairUp (op : RedOp) (rm : Rm) (t : Ty) : List (Option DWord) → List (Option DWord)
  | x :: y :: r => comb op rm t x y :: pairUp op rm t r
  | r => r

/-- The levels of the tree, from a level upward. -/
def levels (op : RedOp) (rm : Rm) (t : Ty) : Nat → List (Option DWord) → List (List (Option DWord))
  | 0, x => [x]
  | n + 1, x => x :: levels op rm t n (pairUp op rm t x)

/-- The tree over the active lanes (R34). -/
def treeOf (op : RedOp) (rm : Rm) (t : Ty) (act : Mask) (x : Lanes) : List (List (Option DWord)) :=
  levels op rm t 7 ((List.range 128).map (fun l => if act.getLsbD l then some (x.getD l 0) else none))

/-- N[7][0] (R34). -/
def treeTop (tree : List (List (Option DWord))) : Option DWord := ((tree.getD 7 []).headD none)

/-- The scan value of the first `c` lanes (R35). -/
def scanAt (op : RedOp) (rm : Rm) (t : Ty) (tree : List (List (Option DWord))) (c : Nat) : Option DWord :=
  ((List.range 8).reverse.foldl (fun (p : Option DWord × Nat) j =>
    if c / 2 ^ j % 2 = 1 then (comb op rm t p.1 ((tree.getD j []).getD (p.2 / 2 ^ j) none), p.2 + 2 ^ j) else p) (none, 0)).1

/-- The identity of R121. -/
def redIdentity (op : RedOp) (t : Ty) : DWord :=
  match op, t with
  | .min, .f32 => 0x7F800000
  | .min, .f64 => 0x7FF0000000000000
  | .max, .f32 => 0xFF800000
  | .max, .f64 => 0xFFF0000000000000
  | .min, t => intRes t false (tyRange t).2
  | .max, t => intRes t false (tyRange t).1
  | .and, t => intRes t false (-1)
  | _, _ => 0

/-- PLUT3 (R114). -/
def execPlut3 (h : Hdr) (lut : BitVec 8) (na : Bool) (nb : Bool) (nc : Bool) (pd : Nat) (pa : Nat) (pb : Nat) (pc : Nat) (s : State) : Host.Outcome State Fault Refusal :=
  run (.plut3 h lut na nb nc pd pa pb pc) h (fun t act => .ok (t.writeP pd act (lutBits lut (predSrc t pa na) (predSrc t pb nb) (predSrc t pc nc)) (t.fixed 2))) s

/-- PMOV.tov (R114). -/
def execPmovTov (h : Hdr) (na : Bool) (d : Opd) (pa : Nat) (s : State) : Host.Outcome State Fault Refusal :=
  run (.pmovTov h na d pa) h (fun t act => t.putVec d 1 act (Vector.ofFn (fun l : Fin 128 => if (predSrc t pa na).getLsbD l then 1 else 0)) (t.fixed 2)) s

/-- PMOV.fromv (R114). -/
def execPmovFromv (h : Hdr) (pd : Nat) (a : Opd) (s : State) : Host.Outcome State Fault Refusal :=
  run (.pmovFromv h pd a) h (vecTest [(a, 1)] pd 2 (fun _ x => decide (pat 32 (arg x 0) ≠ 0))) s

/-- PMOV.save (R114): bit i of a lane is p_i, bit 31 is 1. -/
def execPmovSave (h : Hdr) (d : Opd) (s : State) : Host.Outcome State Fault Refusal :=
  run (.pmovSave h d) h (fun t act => t.putVec d 1 act (savedPreds t) (t.fixed 2)) s

/-- PMOV.load (R114). -/
def execPmovLoad (h : Hdr) (a : Opd) (s : State) : Host.Outcome State Fault Refusal :=
  run (.pmovLoad h a) h (fun t act => .ok (loadPreds t act (t.readVec a 1))) s

/-- VOTE (R116). -/
def execVote (h : Hdr) (mode : VoteMode) (na : Bool) (pd : Nat) (pa : Nat) (s : State) : Host.Outcome State Fault Refusal :=
  run (.vote h mode na pd pa) h (fun t act => .ok (t.writeP pd act (if voteOf mode act (predSrc t pa na) then Mask.full else 0) (t.fixed 10))) s

/-- BALLOT (R117): four uniform registers, also with no lane active. -/
def execBallot (h : Hdr) (na : Bool) (d : Opd) (pa : Nat) (s : State) : Host.Outcome State Fault Refusal :=
  run (.ballot h na d pa) h (fun t act => .ok (ballotPut t d (act &&& predSrc t pa na))) s

/-- LGET (R118). -/
def execLget (h : Hdr) (mode : LgetMode) (g : Nat) (ty : Ty) (pd : Nat) (d : Opd) (a : Opd) (b : Opd) (s : State) : Host.Outcome State Fault Refusal :=
  run (.lget h mode g ty pd d a b) h (fun t act =>
    let x := t.readVec a (tyRegs ty)
    let n := t.readVec b 1
    let src := fun (l : Nat) => lgetSrc mode (128 / 2 ^ g) l (pat 32 (n.getD l 0))
    match t.putVec d (tyRegs ty) act (Vector.ofFn (fun l : Fin 128 => x.getD (src l) 0)) (t.fixed 10) with
    | .ok u => .ok (u.writeP pd act (maskOf (fun l => act.getLsbD (src l))) (t.fixed 10))
    | e => e) s

/-- PSWAP (R119): lanes at distance 2^ln exchanged. -/
def execPswap (h : Hdr) (ln : Nat) (neglo : Bool) (ty : Ty) (d : Opd) (a : Opd) (s : State) : Host.Outcome State Fault Refusal :=
  run (.pswap h ln neglo ty d a) h (fun t act =>
    let x := t.readVec a (tyRegs ty)
    t.putVec d (tyRegs ty) act (Vector.ofFn (fun l : Fin 128 =>
      let v := x.getD (Nat.xor l (2 ^ ln)) 0
      if neglo && decide ((l : Nat) / 2 ^ ln % 2 = 0) then pswapNeg ty v else v)) (t.fixed 10)) s

/-- MATCH (R120). -/
def execMatchv (h : Hdr) (ty : Ty) (pd : Nat) (d : Opd) (a : Opd) (s : State) : Host.Outcome State Fault Refusal :=
  run (.matchv h ty pd d a) h (fun t act =>
    let x := t.readVec a (tyRegs ty)
    let first := fun (l : Nat) => ((Mask.lanes act).find? (fun j => x.getD j 0 == x.getD l 0)).getD l
    match t.putVec d 1 act (Vector.ofFn (fun l : Fin 128 => BitVec.ofNat 64 (first l))) (t.fixed 10) with
    | .ok u => .ok (u.writeP pd act (maskOf (fun l => first l == l)) (t.fixed 10))
    | e => e) s

/-- LRED (R121): the tree of R34, to every active lane, or once to an s register. -/
def execLred (h : Hdr) (op : RedOp) (rm : Rm) (ty : Ty) (d : Opd) (a : Opd) (s : State) : Host.Outcome State Fault Refusal :=
  run (.lred h op rm ty d a) h (fun t act =>
    let r := (treeTop (treeOf op rm ty act (t.readVec a (tyRegs ty)))).getD (redIdentity op ty)
    let lat := t.fixed (if ty = .f64 then 20 else 10)
    match d with
    | .s _ => .ok (t.putUni d (tyRegs ty) r lat)
    | _ => t.putVec d (tyRegs ty) act (Vector.replicate 128 r) lat) s

/-- SCAN (R121): the scan of R35 to the active lanes. -/
def execScan (h : Hdr) (op : RedOp) (excl : Bool) (rm : Rm) (ty : Ty) (d : Opd) (a : Opd) (s : State) : Host.Outcome State Fault Refusal :=
  run (.scan h op excl rm ty d a) h (fun t act =>
    let tree := treeOf op rm ty act (t.readVec a (tyRegs ty))
    t.putVec d (tyRegs ty) act (Vector.ofFn (fun l : Fin 128 =>
      (scanAt op rm ty tree (if excl then (l : Nat) else l + 1)).getD (redIdentity op ty)))
      (t.fixed (if ty = .f64 then 20 else 10))) s

/-- READL (R122): one lane, by a uniform index. -/
def execReadl (h : Hdr) (ty : Ty) (d : Opd) (a : Opd) (b : Opd) (s : State) : Host.Outcome State Fault Refusal :=
  run (.readl h ty d a b) h (fun t act => if act = 0 then .ok t else
    .ok (t.putUni d (tyRegs ty) ((t.readVec a (tyRegs ty)).getD ((t.readUni b 1).toNat % 128) 0) (varLat h))) s

/-- READL.first (R122): the lowest active lane. -/
def execReadlFirst (h : Hdr) (ty : Ty) (d : Opd) (a : Opd) (s : State) : Host.Outcome State Fault Refusal :=
  run (.readlFirst h ty d a) h (fun t act => if act = 0 then .ok t else
    .ok (t.putUni d (tyRegs ty) ((t.readVec a (tyRegs ty)).getD ((Mask.lanes act).headD 0) 0) (varLat h))) s

end Sys2Proof.Machine
end

