-- ==== Sys2Proof/Machine/Module.lean ====
section
/-! DEFINITION. The module: channel counters (R332), fencing and what it stops (R274, R282, R427), partition reset (R427), warm reset (R428),
bring-up (R371, R431). -/
namespace Sys2Proof.Machine

/-! ## Channel counters -/

/-- A channel counter (R332). -/
def State.counter (s : State) (ch i : Nat) : Nat := ((s.logs.counters.find? (fun x => x.1 == ch && x.2.1 == i)).map (fun x => x.2.2)).getD 0

/-- One channel's record, written as one piece (R333); LPDDR-6 channels have no row operations (R332). -/
def State.channelRecord (s : State) (ch : Nat) : List Byte :=
  leBytes 8 s.logs.snapshot ++
  (List.range 5).flatMap (fun i => leBytes 8 (s.counter ch i)) ++
  (List.range 4).flatMap (fun i => leBytes 4 (if ch < 256 then s.counter ch (5 + i) else 0))

/-- The activity of the DRAMs since the last snapshot, which the spec does not fix, is free: no counter falls, and a conflict is an
activation too (R332, log 57). -/
def State.countDrams (s : State) : State :=
  let more := fun (ch i : Nat) => Config.freeNat s.freeCtr (2 ^ 32 + 8 * ch + i)
  let now := (List.range 288).flatMap (fun ch => (List.range 5).map (fun i =>
    (ch, i, s.counter ch i + more ch i + (if i = 0 then more ch 1 else 0))))
  { s with logs := { s.logs with counters := now ++ s.logs.counters.filter (fun x => decide (5 ≤ x.2.1)) } }

/-- Write a snapshot of every channel (R332). -/
def State.snapshotAll (s : State) : State :=
  let s := s.countDrams
  let cb := 64 * bits s.mgmt.cntCtl.toNat 21 6
  let t := (List.range 288).foldl (fun (t : State) ch => t.cwWrite (cb + 64 * ch) (s.channelRecord ch)) s
  { t with freeCtr := t.freeCtr + 1, logs := { t.logs with snapshot := s.logs.snapshot + 1, snapshotAt := s.time } }

/-! ## Fencing -/

/-- FENCE A CORE (R282, R427): it leaves every partition, its warps are killed with 0x170 + f, and the launches with workgroups on it end. -/
def State.fenceCore (s : State) (c f : Nat) : State :=
  if 192 ≤ c then s
  else
    let cause := 0x170 + f % 8
    let gs := s.allWgs.filter (fun g => g.key != 0 && g.core == c && decide (g.status ≠ .saved))
    let partOf := fun (w : Warp) => ((gs.find? (fun g => g.key == w.wg)).map (fun g => g.part)).getD 255
    let ws := s.allWarps.filter (fun w => w.running && w.id.core == c)
    let s := { s with mgmt := { s.mgmt with
      fencedCore := s.mgmt.fencedCore ||| (1#192 <<< c)
      fenceKind := (c, f % 8) :: s.mgmt.fenceKind.filter (fun k => k.1 != c)
      parts := s.mgmt.parts.map (fun p => { p with cores := p.cores &&& ~~~(1#192 <<< c) }) } }
    let s := ws.foldl (fun (s : State) w => s.event 1 cause (partOf w) c w.id.slot w.path.pc 0) s
    let s := s.modWarps (fun w => w.running && w.id.core == c) Warp.stop
    let s := gs.foldl (fun (s : State) g =>
      match s.sched.launches.find? (fun l => l.key == g.launch && !l.cancelled) with
      | some l => (s.cancelLaunch l.key cause).event 2 cause l.part c 255 0 0
      | none => s) s
    ({ s with mem := { s.mem with copies := s.mem.copies.filter (fun x => x.core != some c) } }).msix 0

/-- The count register of an abandoned anvil operation, and the bytes it falls by (R277). -/
def State.abandons (s : State) (a : AnvilOp) : Option (Nat × Nat) :=
  match a.op with
  | .mma _ _ _ _ _ _ _ (some k) => some (k, 64)
  | .accld _ _ k => (match s.eng.cmds.find? (fun c => match c.kind with
      | .tileLoad i => i == a.id
      | _ => false) with
    | some c => some (k, 512 * c.pieces.length)
    | none => some (k, 65536))
  | .accst _ _ k => some (k, 65536)
  | .accred _ _ _ _ k => some (k, 65536)
  | _ => none

/-- Abandon an anvil operation (R277): a value it would have given is free; its register falls at once. -/
def State.abandonOp (s : State) (a : AnvilOp) : State :=
  let left := s.abandons a
  let s := match a.op with
    | .accrd d _ rows mask _ => (List.range rows).foldl (fun (s : State) j =>
        s.giveLanes a.warp (d + j) ((Mask.lanes mask).map (fun l => (l, (Config.freeWord s.freeCtr (128 * j + l)).setWidth 32)))) s
    | .slotrd _ _ _ dsts _ => dsts.foldl (fun (s : State) (x : Nat × RemDst) =>
        s.deliver { newOp s 0 (slotTag a.id) 0 0 0 false (.read 4) 0 x.2 0 with warp := a.warp, wg := a.wg }
          (leBytes 4 ((Config.freeWord s.freeCtr x.1).toNat))) s
    | _ => s
  let s := s.draw.retireOp a
  let s := { s with eng := { s.eng with
    cmds := (s.eng.cmds.filter (fun (c : Cmd) => match c.kind with
      | .tileLoad i => i != a.id
      | _ => true)).map (fun (c : Cmd) => if c.follow = some a.id then { c with follow := none } else c) } }
  match left with
  | some (k, n) => s.countOwned a.warp a.wg k n a.epc a.pid
  | none => s

/-- FENCE THE ANVIL of a core: its operations are abandoned, with one 0x0F0 + i for each register (R277, R282). -/
def State.fenceAnvil (s : State) (c : Nat) : State :=
  if 192 ≤ c then s
  else
    let ops := s.eng.anvil.filter (fun a => a.core == c)
    let hit := (ops.filterMap (fun a => (s.abandons a).map (fun x => (a.warp, a.wg, x.1))))
    let s := { s with mgmt := { s.mgmt with fencedAnvil := s.mgmt.fencedAnvil ||| (1#192 <<< c) } }
    let s := ops.foldl (fun (s : State) a => s.abandonOp a) s
    let s := (hit.eraseDups).foldl (fun (s : State) h =>
      match ops.find? (fun a => a.warp == h.1 && a.wg == h.2.1) with
      | some a => s.postOwned h.1 h.2.1 (0x0F0 + h.2.2) a.epc 0 a.pid
      | none => s) s
    s.msix 0

/-- Abandon a copy (R277): on a warp that is saved its register falls there; otherwise it stops as R203 says, each other member of a
collective taking the cause of its own register. -/
def State.abandonCopy (s : State) (c : Cmd) : State :=
  if s.sched.saved.any (fun p => p.1.key == c.wg) then
    let n := c.todo.length * c.blockBytes + (c.pieces.map (fun p => p.drop)).foldl (· + ·) 0
    let s := { s with eng := { s.eng with cmds := s.eng.cmds.filter (fun d => d.id != c.id) } }
    ((s.countOwned c.warp c.wg c.k n c.epc c.pid).postOwned c.warp c.wg (0x0F0 + c.k) c.epc 0 c.pid).dropFollow c
  else
    let back := s.cur.id
    let s := s.asCmd c
    let others := ((s.copyMembers c).filterMap (fun m => s.pieceOwner c m.2)).filter (fun o => o.1 != c.warp)
    let s := s.stopCmd c.id (0x0F0 + c.k) 0
    (others.foldl (fun (s : State) o => s.post o.1 (0x0F0 + o.2) c.epc 0 c.pid) s).focusOn back

/-- FENCE THE BELLOWS of a core: its copies are abandoned (R277, R282). -/
def State.fenceBellows (s : State) (c : Nat) : State :=
  if 192 ≤ c then s
  else
    let cs := s.eng.cmds.filter (fun x => x.core == c && (x.todo != [] || x.pieces != []) && (match x.kind with
      | .copy _ _ _ _ _ => true
      | _ => false))
    let s := { s with mgmt := { s.mgmt with fencedBellows := s.mgmt.fencedBellows ||| (1#192 <<< c) } }
    (cs.foldl (fun (s : State) x => s.abandonCopy x) s).msix 0

/-- A cache slice that cannot retire its copies is fenced and then acknowledges (R357): every thaw that waits for this device goes on. -/
def State.fencedSlice (s : State) : State :=
  ((List.range 64).foldl (fun (s : State) i =>
    let e := s.mem.frz.getD i FrzEntry.blank
    if e.state = .thawing ∧ e.acks.contains s.mgmt.selfRank then (s.event 0 (freezeCause e.sc 2) e.part 255 255 0 0).retireOwn i e.gen.toNat else s) s).msix 0

/-- FENCE A UNIT (R427). -/
def State.fenceUnit (s : State) : FenceUnit → State
  | .core c f => s.fenceCore c f
  | .anvil c => s.fenceAnvil c
  | .bellows c => s.fenceBellows c
  | .channel i => ({ s with mgmt := { s.mgmt with fencedChan := s.mgmt.fencedChan ||| (if i < 288 then 1#320 <<< i else 0) } }).msix 0
  | .l2 i => ({ s with mgmt := { s.mgmt with fencedL2 := s.mgmt.fencedL2 ||| (1#256 <<< i) } }).fencedSlice
  | .rdc i => ({ s with mgmt := { s.mgmt with fencedRdc := s.mgmt.fencedRdc ||| (1#128 <<< i) } }).fencedSlice
  | .plane p =>
    -- vector 0 for the fence of a plane or port that was dark or down before (R425)
    let t := { s with mgmt := { s.mgmt with fencedPlane := s.mgmt.fencedPlane ||| (1#16 <<< p) } }
    if 16 ≤ p ∨ s.fab.dark.getLsbD p then t.msix 0 else t.darken [p] none false
  | .port p =>
    let t := { s with mgmt := { s.mgmt with fencedPort := s.mgmt.fencedPort ||| (1#8 <<< p) } }
    if s.fab.ports.contains p then t.portDown p else t.msix 0

/-! ## Resets -/

/-- Cancel the launches of a partition that stand (R413). -/
def State.cancelPart (s : State) (part cause : Nat) : State :=
  ((s.sched.launches.filter (fun l => l.part == part && !l.cancelled)).map (fun l => l.key)).foldl
    (fun (s : State) k => (s.cancelLaunch k cause).event 2 cause part 255 255 0 0) s

/-- PARTITION RESET (R427), whole. -/
def State.resetPart (s : State) (part : Nat) : State :=
  if 8 ≤ part then s
  else
    let asid := (s.part part).asid
    let (rs, s) := s.takeRecs part (fun _ => true)
    let s := rs.foldl (fun (s : State) r => s.cancelRec part r 0x16F) s
    let s := s.cancelPart part 0x16F
    let s := (List.range 64).foldl (fun (s : State) i =>
      if (s.mem.frz.getD i FrzEntry.blank).part = part then s.retireEntry i else s) s
    let s := { s with mem := { s.mem with
      own := s.mem.own.filter (fun o => !(o.part == part && o.target.isSome))
      tlb := s.mem.tlb.filter (fun e => e.asid != asid) } }
    (s.retryAll.settlePreempts).interrupt part 3

/-- Release every workgroup, count it and complete every launch, without waiting for work under way (R428). -/
def State.flushAll (s : State) : State :=
  let s := s.allWarps.foldl (fun (s : State) w => if w.status = WarpStatus.free then s else (s.dropWork w).freeWarp w) s
  let s := (s.allWgs.filter (fun g => g.key != 0)).foldl (fun (s : State) g => s.endWg g) s
  let ls := s.sched.launches
  let s := { s with sched := { s.sched with launches := [], gangs := [], reserve := [] } }
  ls.foldl (fun (s : State) l => s.finishRec l.part l.record l.cause l.cancelled) s

/-- The registers after a warm reset (R420, R428): as after the last bring-up, but for BBPAGE and the FENCED registers. What is no register of
R420 stands: the clock, what the images were, the comparators, what the sensors read. -/
def Mgmt.warmed (m : Mgmt) : Mgmt :=
  { Mgmt.reset with
    timeHeld := m.bootHeld, bootHeld := m.bootHeld, planeEn := m.bootPlanes, bootPlanes := m.bootPlanes, bbPage := m.bbPage, mhz := m.mhz,
    recovery := m.recovery, ready := m.ready
    fencedCore := m.fencedCore, fencedChan := m.fencedChan, fencedPlane := m.fencedPlane, fencedPort := m.fencedPort
    fencedAnvil := m.fencedAnvil, fencedBellows := m.fencedBellows, fencedL2 := m.fencedL2, fencedRdc := m.fencedRdc
    fenceKind := m.fenceKind, images := m.images, comparators := m.comparators, temps := m.temps, power := m.power }

/-- WHAT A WARM RESET DOES once retirement is over (R428). -/
def State.finishWarm (s : State) : State :=
  let s := (List.range 8).foldl (fun (s : State) p =>
    let (rs, s) := s.takeRecs p (fun _ => true)
    (rs.foldl (fun (s : State) r => s.cancelRec p r 0x17E) s).cancelPart p 0x17E) s
  let s := s.flushAll
  { s with
    clk := 0
    sched := { Sched.reset with nextLaunch := s.sched.nextLaunch, nextWg := s.sched.nextWg }
    mem := { s.mem with
      home := [], copies := [], tlb := [], own := [], ranks := [], watch := [], retired := []
      frz := s.mem.frz.map (fun e => if e.state = .free then e else { FrzEntry.blank with gen := e.gen + 1 }) }
    eng := { s.eng with cmds := [], anvil := [], contribs := [] }
    fab := { s.fab with ops := [], sent := [], held := [], drops := [] }
    host := { s.host with services := [], nextService := 0, nextCmd := 0, waiting := [] }
    mgmt := s.mgmt.warmed
    logs := { s.logs with counters := [] } }

/-- Begin a warm reset (R428): every frozen entry is retired first. -/
def State.beginWarm (s : State) : State :=
  if s.mgmt.warm.isSome then s
  else
    let s := (List.range 64).foldl (fun (s : State) i => s.retireEntry i) s
    if s.mem.anyFrozen then { s with mgmt := { s.mgmt with warm := some s.time } } else s.finishWarm

/-- An image starts after it has passed: its signature verifies, and its security version is not below the fused minimum (R371). -/
def bootPasses (b : BootOutcome) (i : Nat) : Bool :=
  match b.images[i]? with
  | some m => m.signed && decide (m.least ≤ m.version)
  | none => false

/-- COLD RESET (R371, R431): the images of steps 2 and 4 must pass, a failing one of step 6 fences the planes; what fails in steps 5 to 7 is
fenced, a plane that does not lock among it, and without a lock of IEEE 1588 precise time is not held (log 54). -/
def State.bringUp (s : State) (b : BootOutcome) : State :=
  let r := { State.reset with agenda := s.agenda, freeCtr := s.freeCtr + 1, mgmt := { Mgmt.reset with images := b.images } }
  if !(bootPasses b 0 && bootPasses b 1 && bootPasses b 2) then
    { r with host := { r.host with linkUp := false }, mgmt := { r.mgmt with ready := false, recovery := true, timeHeld := false, bootHeld := false, planeEn := 0, bootPlanes := 0 }, fab := { r.fab with dark := 0xFFFF, ports := [] } }
  else
    let pl := if bootPasses b 3 then b.planes else 0
    let r := { r with mgmt := { r.mgmt with planeEn := pl, bootPlanes := pl }, fab := { r.fab with dark := ~~~pl } }
    let r := ((List.range 16).filter (fun p => !pl.getLsbD p)).foldl (fun (r : State) p => r.fenceUnit (.plane p)) r
    let r := b.failed.foldl (fun (r : State) u => r.fenceUnit u) r
    if b.ptp then r else { r.loseTime with mgmt := { r.loseTime.mgmt with bootHeld := false } }

/-! ## SPDM -/

/-- The measurement blocks that an index names: one, or all of them with 0xFF (R372, log 60). -/
def spdmBlocks (i : Nat) : List Nat := if i = 255 then [1, 2, 3, 4, 5, 6] else if 1 ≤ i ∧ i ≤ 6 then [i] else []

/-- The images that a measurement block covers (R372): blocks 2 to 5 one of R371 each, block 6 the security versions of all. -/
def measured (images : List BootImage) (b : Nat) : List BootImage :=
  if 2 ≤ b ∧ b ≤ 5 then (images.drop (b - 2)).take 1 else if b = 6 then images else []

/-- The response codes of DSP0274 (log 60). -/
def spdmCode : SpdmReq → Nat
  | .getDigests => 0x01
  | .getCertificate slot => if slot = 0 then 0x02 else 0x7F
  | .challenge slot => if slot = 0 then 0x03 else 0x7F
  | .getVersion => 0x04
  | .getMeasurements i => if i = 0 ∨ spdmBlocks i ≠ [] then 0x60 else 0x7F
  | .getCapabilities => 0x61
  | .negotiate => 0x63
  | .other => 0x7F

/-- The answer to an SPDM request (R372): a measurement is one value until the next reset; RSASSA-4096 and SHA-512 are the algorithms chosen,
the version is 1.2, and the one certificate slot is slot 0, in the places of DSP0274 (log 60); what else an answer holds is free. -/
def State.spdmAnswer (s : State) (q : SpdmReq) : List Byte :=
  let head := [0x12, BitVec.ofNat 8 (spdmCode q)]
  let free := fun (n : Nat) => (List.range n).map (fun j => BitVec.ofNat 8 (Config.freeNat s.freeCtr (2 ^ 36 + j)))
  match q with
  | .other => head ++ [0x07, 0]
  -- one entry, 1.2; a VERSION message itself is in the form of 1.0
  | .getVersion => [0x10, 0x04, 0, 0, 0, 1, 0x00, 0x12]
  -- CERT_CAP, CHAL_CAP, and MEAS_CAP with signatures; the sizes are free
  | .getCapabilities => head ++ [0, 0] ++ free 4 ++ [0x16, 0, 0, 0] ++ free 8
  | .getMeasurements i =>
    if spdmCode q = 0x7F then head ++ [0x01, 0]
    else if i = 0 then head ++ [6, 0]
    else head ++ (spdmBlocks i).flatMap (fun b => (List.range 64).map (fun j => Config.measureByte b (measured s.mgmt.images b) j))
  | .negotiate => head ++ free 6 ++ [0x08, 0, 0, 0] ++ [0x20, 0, 0, 0] ++ [0x04, 0, 0, 0] ++ free 48
  -- slot mask 1 and the digest of slot 0
  | .getDigests => head ++ [0, 1] ++ free 64
  | .getCertificate slot => if slot = 0 then head ++ [0, 0] ++ free 64 else head ++ [0x01, 0]
  | .challenge slot => if slot = 0 then head ++ [0, 1] ++ free 64 else head ++ [0x01, 0]

end Sys2Proof.Machine
end

