-- ==== Sys2Proof/Machine/ModuleEv.lean ====
section
/-! DEFINITION. The steps of the module (R332, R372, R427–R431). -/
namespace Sys2Proof.Machine

/-- CHANNEL_COUNTER_SNAPSHOT (R332): every 10 µs while enabled. -/
def execChannelCounterSnapshot (s : State) : Host.Outcome State Fault Refusal :=
  .next (if s.exposed && s.mgmt.cntCtl.getLsbD 0 && decide (s.logs.snapshotAt + 10000 ≤ s.time) then s.snapshotAll else s)

/-- UNIT_FENCE (R427). -/
def execUnitFence (unit : FenceUnit) (s : State) : Host.Outcome State Fault Refusal :=
  .next (s.fenceUnit unit)

/-- THERMAL_THROTTLE (R430, R432): the sensors' readings, die temperatures in °C and drawn power in W. While the power exceeds PCAP, or the
hottest die 95 °C, a step of 100 MHz down, to no less than 1.0 GHz; otherwise one up again, to no more than 2.5 GHz (log 56). -/
def execThermalThrottle (sensed : Sensors) (s : State) : Host.Outcome State Fault Refusal :=
  let hot := decide (s.mgmt.pcap < sensed.power) || sensed.temps.any (fun t => decide (95 < t))
  .next { s with mgmt := { s.mgmt with
    temps := sensed.temps, power := sensed.power
    mhz := if hot then max 1000 (s.mgmt.mhz - 100) else min 2500 (s.mgmt.mhz + 100) } }

/-- THERMAL_TRIP (R430): a die above 105 °C fences its cores with 0x176. -/
def execThermalTrip (hearth : Nat) (s : State) : Host.Outcome State Fault Refusal :=
  .next (if hearth < 4 then (List.range 48).foldl (fun (s : State) i => s.fenceCore (48 * hearth + i) 6) s else s)

/-- SUPPLY_FAULT (R430): the cores are fenced with 0x177. -/
def execSupplyFault (cores : List Nat) (s : State) : Host.Outcome State Fault Refusal :=
  .next (cores.foldl (fun (s : State) c => s.fenceCore c 7) s)

/-- WATCHDOG_EXPIRY (R277): logged, and the launches of the partition are cancelled. -/
def execWatchdogExpiry (part : Nat) (s : State) : Host.Outcome State Fault Refusal :=
  .next (if part < 8 then (s.event 0 0x17F part 255 255 0 0).cancelPart part 0x17F else s)

/-- COLD_RESET (R371, R431). -/
def execColdReset (boot : BootOutcome) (s : State) : Host.Outcome State Fault Refusal :=
  .next (s.bringUp boot)

/-- SPDM_REQUEST (R372). -/
def execSpdmRequest (req : SpdmReq) (s : State) : Host.Outcome State Fault Refusal :=
  .next { s with freeCtr := s.freeCtr + 1, logs := { s.logs with out := s.logs.out ++ [.spdm (s.spdmAnswer req)] } }

/-- WARM_RESET (R428). -/
def execWarmReset (s : State) : Host.Outcome State Fault Refusal :=
  .next s.beginWarm

/-- WARM_RESET_RETIREMENT_TIMEOUT (R428): every entry is retired, or 10 ms have passed. -/
def execWarmResetRetirementTimeout (s : State) : Host.Outcome State Fault Refusal :=
  match s.mgmt.warm with
  | none => .next s
  | some t => .next (if !s.mem.anyFrozen || decide (t + 10000000 ≤ s.time) then s.finishWarm else s)

/-- PARTITION_RESET (R427). -/
def execPartitionReset (part : Nat) (s : State) : Host.Outcome State Fault Refusal :=
  .next (s.resetPart part)

end Sys2Proof.Machine
end

