-- ==== Sys2Proof/Machine/Regs.lean ====
section
/-! DEFINITION. The management registers (R420, R421, R423, R425, R436) as the driver writes them: a write that breaks a field's limits
leaves its register unchanged and sets ERR; fields that are not listed ignore writes (R8). -/
namespace Sys2Proof.Machine

/-- Change the management registers. -/
def State.modMgmt (s : State) (f : Mgmt → Mgmt) : State := { s with mgmt := f s.mgmt }

/-- Change a partition's block. -/
def State.modPart (s : State) (p : Nat) (f : Part → Part) : State :=
  s.modMgmt (fun m => { m with parts := m.parts.setIfInBounds p (f (s.part p)) })

/-- A write that breaks a limit (R420). -/
def State.setErr (s : State) : State := s.modMgmt (fun m => { m with err := true })

/-- Write a register if its limits hold (R420). -/
def State.writeIf (s : State) (ok : Bool) (f : Mgmt → Mgmt) : State := if ok then s.modMgmt f else s.setErr

/-- Bits hi..lo of a register value, in their places. -/
def keepBits (v : DWord) (hi lo : Nat) : DWord := BitVec.ofNat 64 (bits v.toNat hi lo * 2 ^ lo)

/-! ## Partitions -/

/-- A write of PCTL (R421): enable is refused while CORES overlaps another enabled partition's or holds a fenced core; bit 1 resets. -/
def State.writePctl (s : State) (p : Nat) (v : DWord) : State :=
  let x := v.toNat
  if bits x 11 10 = 3 ∨ bits x 23 16 = 0 then s.setErr
  else
    let mine := (s.part p).cores
    let clash := (List.range 8).any (fun q => q != p && (s.part q).enable && (s.part q).cores &&& mine != 0) || mine &&& s.mgmt.fencedCore != 0
    let bad := v.getLsbD 0 && !(s.part p).enable && clash
    let s := s.modPart p (fun b => { b with enable := v.getLsbD 0 && !bad, disable := BitVec.ofNat 7 (bits x 9 3), frzMax := bits x 11 10, qos := bits x 23 16 })
    let s := if bad then s.setErr else s
    if v.getLsbD 1 then s.resetPart p else s

/-- A write of INTMASK (R425): an interrupt is sent again where its mask bit becomes set while its status bit stands. -/
def State.writeIntMask (s : State) (p : Nat) (v : DWord) : State :=
  let old := (s.part p).intMask
  let m : BitVec 4 := v.setWidth 4
  let s := s.modPart p (fun b => { b with intMask := m })
  (List.range 4).foldl (fun (s : State) i =>
    if m.getLsbD i ∧ !old.getLsbD i ∧ (s.part p).intStat.getLsbD i then s.msix (8 + 4 * p + i) else s) s

/-- A write of INTSTAT (R425): its bits stand at 35 to 32 of the register. -/
def State.clearIntStat (s : State) (p : Nat) (v : DWord) : State :=
  s.modPart p (fun b => { b with intStat := b.intStat &&& ~~~(BitVec.ofNat 4 (bits v.toNat 35 32)) })

/-- A write of LOGRING (R421, R436): a ring past the window's end is refused; enabling sets LOGHEAD and LOGTAIL to 0. -/
def State.writeLogRing (s : State) (p : Nat) (v : DWord) : State :=
  let m := bits v.toNat 28 24
  if m < 12 ∨ 20 < m ∨ 2 ^ 22 < 64 * bits v.toNat 21 6 + 2 ^ m then s.setErr
  else
    let on := v.getLsbD 63 && !(s.part p).logRing.getLsbD 63
    s.modPart p (fun b => { b with
      logRing := keepBits v 21 6 ||| keepBits v 28 24 ||| keepBits v 63 63
      logHead := if on then 0 else b.logHead, logTail := if on then 0 else b.logTail })

/-- A write of a register of a partition's block (R421). -/
def State.writePart (s : State) (p off : Nat) (v : DWord) : State :=
  let cores := fun (i : Nat) => s.modPart p (fun b =>
    let c := (b.cores &&& ~~~(((0xFFFFFFFFFFFFFFFF#64).setWidth 192) <<< (64 * i))) ||| (v.setWidth 192 <<< (64 * i))
    -- a fenced core never comes back to an enabled partition (R427)
    { b with cores := if b.enable then c &&& ~~~s.mgmt.fencedCore else c })
  match off with
  | 0x00 => s.writePctl p v
  | 0x08 => s.modPart p (fun b => { b with ptroot := keepBits v 47 12 ||| keepBits v 0 0 })
  | 0x10 => s.modPart p (fun b => { b with asid := v.toNat % 2 ^ 16 })
  | 0x18 => cores 0
  | 0x20 => cores 1
  | 0x28 => cores 2
  | 0x30 => if v.toNat % 2 ^ 16 ≠ 0 ∨ 2 ^ 56 ≤ v.toNat then s.setErr else s.modPart p (fun b => { b with privBase := v })
  | 0x38 => if v.toNat % 4096 ≠ 0 then s.setErr else s.modPart p (fun b => { b with privStride := v })
  | 0x40 => if 2 ^ 39 ≤ v.toNat then s.setErr else s.modPart p (fun b => { b with ctxBase := v })
  | 0x48 => s.modPart p (fun b => { b with tlimit := v })
  | 0x50 => if !v.getLsbD 8 ∧ 192 ≤ v.toNat % 256 then s.setErr
      else (s.stopCores p (fun c => if v.getLsbD 8 then (s.part p).cores.getLsbD c else c == v.toNat % 256)).settlePreempts
  | 0x58 => (s.clearIntStat p v).writeIntMask p v
  | 0x60 => s.writeLogRing p v
  | 0x70 => s.modPart p (fun b => { b with logTail := v })
  | _ => s

/-! ## Queues -/

/-- Close a queue (R406, R423): its held records are cancelled with 0x17C. -/
def State.closeQueue (s : State) (q : Nat) : State :=
  let g := s.mgmt.queues.getD q QReg.blank
  let rs := s.held q
  let s := (s.setHeld q []).modMgmt (fun m => { m with queues := m.queues.setIfInBounds q { g with isOpen := false } })
  let front := (s.sched.launches.filter (fun l => l.queue == q && !l.cancelled && l.started.isNone && !l.pooled)).map (fun l => l.key)
  let s := front.foldl (fun (s : State) k => (s.cancelLaunch k 0x17C).event 2 0x17C g.part 255 255 0 0) s
  rs.foldl (fun (s : State) r => s.cancelRec g.part r 0x17C) s

/-- A write of a queue's register (R423). -/
def State.writeQueue (s : State) (q : Nat) (v : DWord) : State :=
  let x := v.toNat
  if x % 16 < 4 ∨ 12 < x % 16 then s.setErr
  else
    let s := if (s.mgmt.queues.getD q QReg.blank).isOpen && !v.getLsbD 11 then s.closeQueue q else s
    let g : QReg := { s.mgmt.queues.getD q QReg.blank with depth := x % 16, prio := bits x 6 4, part := bits x 10 8, isOpen := v.getLsbD 11 }
    s.modMgmt (fun m => { m with queues := m.queues.setIfInBounds q g })

/-- A host push (R406, R423): the 256 bytes at the address; the full status says whether the queue held its depth. -/
def State.hostPush (s : State) (q : Nat) (addr : DWord) : State :=
  if addr.toNat % 256 ≠ 0 ∨ 2 ^ 56 ≤ addr.toNat ∨ 256 ≤ q ∨ !(s.mgmt.queues.getD q QReg.blank).isOpen then s.setErr
  else s.control [.push q addr]

/-! ## The fabric's registers -/

/-- The rank table's entry says that the rank's device is no longer in service (R375, R382). -/
def State.absent (s : State) (rank : Nat) : Bool :=
  match rankEntry s rank with
  | some e => bits e 1 1 == 0
  | none => false

/-- RTINV (R381, R382): cached entries of one rank or of every rank go, and with them the resolutions that engine work holds, but for those of a
message that has begun sending; what is under way to a device that is no longer present fails, and a thaw counts that device as acknowledged. -/
def State.invalidateRank (s : State) (v : DWord) : State :=
  let r := v.toNat % 2 ^ 17
  if v.getLsbD 31 && r != 0 then s.setErr
  else
    let s := { s with mem := { s.mem with ranks := if v.getLsbD 31 then [] else s.mem.ranks.filter (fun p => p.1 != r) } }
    let s := s.modMgmt (fun m => { m with rtInv := keepBits v 16 0 ||| keepBits v 31 31 })
    let hit := fun (x : Nat) => v.getLsbD 31 || x == r
    let begun := fun (c : Cmd) (x : Nat) => !s.absent x && s.fab.ops.any (fun o => o.group == c.id && o.rank == x)
    let unpin := fun (c : Cmd) => ({ c with pins := ⟨c.pins.pages, c.pins.ranks.filter (fun p => !hit p.1 || begun c p.1)⟩ } : Cmd)
    let s := { s with eng := { s.eng with cmds := s.eng.cmds.map unpin } }
    let s := if hit s.mgmt.selfRank then s.modMgmt (fun m => { m with removed := s.absent m.selfRank }) else s
    let gone := ((s.mem.frz.toList.flatMap (fun e => e.acks)).eraseDups).filter (fun x => hit x && s.absent x)
    let s := gone.foldl (fun (s : State) x => s.leftScope x) s
    s.failOps ((s.fab.ops.filter (fun o => o.answered.isNone && hit o.rank && s.absent o.rank)).map (fun o => o.tag)) 1

/-- PLANEEN (R389): planes that have run clean for 10 ms and whose bit the driver sets come back; fenced ones never do, and none does in
recovery (R371). -/
def State.enablePlanes (s : State) (v clean : BitVec 16) : State :=
  if s.mgmt.recovery then s else
  let back := v &&& clean &&& ~~~s.mgmt.fencedPlane
  let s := s.modMgmt (fun m => { m with planeEn := m.planeEn ||| back })
  { s with fab := { s.fab with
      dark := s.fab.dark &&& ~~~back
      peers := s.fab.peers.map (fun p => { p with dark := p.dark.filter (fun i => !back.getLsbD i) }) } }

/-! ## The register block -/

/-- A ring register (R420): offset field from bit `lo` on, log2 of its entries 4 to 12, entries of `n` bytes, inside the window. -/
def ringOk (v : DWord) (lo n : Nat) : Bool :=
  let m := bits v.toNat 27 24
  decide (4 ≤ m ∧ m ≤ 12 ∧ bits v.toNat 21 lo * 2 ^ lo + n * 2 ^ m ≤ 2 ^ 22)

/-- A ring register's listed fields. -/
def ringBits (v : DWord) (lo : Nat) : DWord := keepBits v 21 lo ||| keepBits v 27 24 ||| keepBits v 63 63

/-- A write of the upper half of a region's entry (R420). -/
def State.writeRegionLen (s : State) (r : Nat) (v : DWord) : State :=
  let n := bits v.toNat 42 0
  s.writeIf (decide (n % 4096 = 0 ∧ n ≤ 2 ^ 42)) (fun m =>
    let g : RegionReg := m.regions.getD r { base := 0, len := 0, part := 0, valid := false }
    { m with regions := m.regions.setIfInBounds r { g with len := if v.getLsbD 63 then n else 0, part := bits v.toNat 50 48, valid := v.getLsbD 63 } })

/-- A write of the lower half of a region's entry (R420). -/
def State.writeRegionBase (s : State) (r : Nat) (v : DWord) : State :=
  s.writeIf (decide (v.toNat % 4096 = 0 ∧ v.toNat < 2 ^ 56)) (fun m =>
    let g := m.regions.getD r { base := 0, len := 0, part := 0, valid := false }
    { m with regions := m.regions.setIfInBounds r { g with base := v } })

/-- A write of one of the device's own registers, below 0x400 (R420). -/
def State.writeGlobal (s : State) (off : Nat) (v : DWord) : State :=
  let x := v.toNat
  match off with
  | 0x0008 => if v.getLsbD 63 then s.modMgmt (fun m => { m with err := false }) else s
  | 0x0010 => if x % 256 = 0x5A then s.beginWarm else s
  | 0x0018 => s.writeIf (decide (64 * bits x 21 6 ≤ 2 ^ 22 - 18432)) (fun m => { m with cntCtl := keepBits v 21 6 ||| keepBits v 0 0 })
  | 0x0020 => s.writeIf (ringOk v 7 128) (fun m => { m with svcRing := ringBits v 7 })
  | 0x0028 => s.writeIf (ringOk v 6 64) (fun m => { m with cmdRing := ringBits v 6 })
  | 0x0030 => s.writeIf (decide (bits x 38 0 % 4096 = 0)) (fun m => { m with rtBase := keepBits v 38 0 })
  | 0x0038 => s.writeIf (decide (1 ≤ bits x 17 0 ∧ bits x 17 0 ≤ 131072)) (fun m => { m with nRank := bits x 17 0, selfRank := bits x 48 32 })
  | 0x0040 => s.invalidateRank v
  | 0x0048 => (s.enablePlanes (v.setWidth 16) ((Config.freeWord s.freeCtr 5).setWidth 16)).modMgmt (fun m => { m with quiesce := v.getLsbD 32 })
  | 0x0050 => s.writeIf (decide (1000 ≤ x % 2 ^ 16 ∧ x % 2 ^ 16 ≤ 3600)) (fun m => { m with pcap := x % 2 ^ 16 })
  | 0x0060 => s.modMgmt (fun m => { m with bbPage := x % 4 })
  | 0x0068 => s.writeIf (decide (1000 ≤ x % 2 ^ 24 ∧ x % 2 ^ 24 ≤ 10000000)) (fun m => { m with retxt := x % 2 ^ 24 })
  | 0x0070 => s.writeIf (decide (1 ≤ x % 2 ^ 16 ∧ x % 2 ^ 16 ≤ 60000)) (fun m => { m with svcto := x % 2 ^ 16 })
  | 0x0078 => s.modMgmt (fun m => { m with regMask := v.setWidth 16 })
  | _ => s

/-- A write of 8 bytes of BAR0 at a multiple of 8 (R420): read-only and unlisted places ignore it. -/
def State.writeReg (s : State) (off : Nat) (v : DWord) : State :=
  if off % 8 ≠ 0 then s
  else if off < 0x400 then (s.writeGlobal off v).draw
  else if off < 0x500 then (if off % 16 = 0 then s.writeRegionBase ((off - 0x400) / 16) v else s.writeRegionLen ((off - 0x400) / 16) v)
  else if 0x1000 ≤ off ∧ off < 0x1800 then s.writePart ((off - 0x1000) / 0x100) (off % 0x100) v
  else if 0x2000 ≤ off ∧ off < 0x3000 then
    (if off % 16 = 0 then s.writeQueue ((off - 0x2000) / 16) v else s.hostPush ((off - 0x2000) / 16) v)
  else s

end Sys2Proof.Machine
end

