-- ==== Sys2Proof/Machine/RegEv.lean ====
section
/-! DEFINITION. The driver's writes to the management registers (R420–R425, R381, R389, R400, R406, R436). -/
namespace Sys2Proof.Machine

/-- PARTITION_ENABLE (R421): a write of a partition's PCTL. -/
def execPartitionEnable (part : Nat) (value : DWord) (s : State) : Host.Outcome State Fault Refusal :=
  .next (if part < 8 then s.writePctl part value else s)

/-- DEVSTAT_ERR_CLEAR (R420). -/
def execDevstatErrClear (s : State) : Host.Outcome State Fault Refusal :=
  .next (s.modMgmt (fun m => { m with err := false }))

/-- RTINV_WRITE (R381, R382). -/
def execRtinvWrite (value : DWord) (s : State) : Host.Outcome State Fault Refusal :=
  .next (s.invalidateRank value)

/-- PLANEEN_WRITE (R389): `clean` are the planes that have run clean for 10 ms. -/
def execPlaneenWrite (value : DWord) (clean : BitVec 16) (s : State) : Host.Outcome State Fault Refusal :=
  .next (s.enablePlanes (value.setWidth 16) clean)

/-- QUIESCE_WRITE (R400). -/
def execQuiesceWrite (on : Bool) (s : State) : Host.Outcome State Fault Refusal :=
  .next (s.modMgmt (fun m => { m with quiesce := on }))

/-- QDOOR_PUSH (R406, R423). -/
def execQdoorPush (q : Nat) (addr : DWord) (s : State) : Host.Outcome State Fault Refusal :=
  .next (s.hostPush q addr)

/-- QUEUE_CLOSE (R406). -/
def execQueueClose (q : Nat) (s : State) : Host.Outcome State Fault Refusal :=
  .next (s.closeQueue q)

/-- INTMASK_WRITE (R425). -/
def execIntmaskWrite (part : Nat) (value : DWord) (s : State) : Host.Outcome State Fault Refusal :=
  .next (if part < 8 then s.writeIntMask part value else s)

/-- INTSTAT_CLEAR (R425). -/
def execIntstatClear (part : Nat) (value : DWord) (s : State) : Host.Outcome State Fault Refusal :=
  .next (if part < 8 then s.clearIntStat part value else s)

/-- LOGRING_ENABLE (R436): a write of a partition's LOGRING. -/
def execLogringEnable (part : Nat) (value : DWord) (s : State) : Host.Outcome State Fault Refusal :=
  .next (if part < 8 then s.writeLogRing part value else s)

/-- REGISTER_WRITE (R420): a write of 8 bytes at an offset of BAR0. -/
def execRegisterWrite (off : Nat) (value : DWord) (s : State) : Host.Outcome State Fault Refusal :=
  .next (s.writeReg off value)

end Sys2Proof.Machine
end

