-- ==== Sys2Proof/Machine/StreamInstr.lean ====
section
/-! DEFINITION. Stream-port instructions (R196–R198, R305, R307). -/
namespace Sys2Proof.Machine

/-- The checks of a pattern port's base (R307): window, foreign scratchpad, rank walk, gang member. DESIGN CHOICE (log 87): a base in no window
takes kind 3, as R307 has it; R169 gives kind 0. -/
def bindFault (s : State) (a : DWord) : Option Nat :=
  match window a with
  | .glob _ => none
  | .rank r g _ =>
    (match rankWalk s 3 r g with
     | .fault c => some c
     | .self => none
     | _ =>
       if ((s.part s.wg.part).disable).getLsbD 4 then some 0x00D
       else if s.mgmt.removed then some 0x127
       else if s.mgmt.quiesce then some 0x125 else none)
  | .spad c _ => if c = s.cur.id.core then none else some 0x0B9
  | .gang m _ => if m < s.wg.gangSize ∧ (s.member m).isSome then none else some 0x0BA
  | _ => some 0x0BB

/-- The scope of the release that a binding makes (R308): that of the device its base names. -/
def bindScope (s : State) (a : DWord) : Nat :=
  match window a with
  | .rank r g _ => (match rankWalk s 3 r g with
    | .pod _ => 3
    | .job _ _ => 4
    | _ => 0)
  | _ => 0

/-- An unbound port's binding as a pattern port (R305, R307): fields a pattern does not use are empty. -/
def Port.blank : Port :=
  { mode := .inp, width := 32, packed := false, base := 0, record := [], recAddr := 0, hint := 0, endP := 31, k := 0,
    pos := 0, endSeen := false, deferred := none, pre := [], part := [], peerWarp := 0, peerPort := 0, queue := [],
    closed := false, discard := false, gone := false, reread := false, epc := 0, pid := 0, binding := 0 }

/-- STRB.in and STRB.out (R196, R307): the checks in the order of R307's table. -/
def bindPattern (s : State) (mode : PortMode) (n : Nat) (packed : Bool) (hint e k : Nat) (base rec : DWord) : Eff :=
  if (s.port n).isSome then .trap 0x101 0
  else match bindFault s base with
    | some c => .trap c base
    | none =>
      -- the element size stands in the record, so a record that cannot be read is reported in place of a misaligned base
      match readRecord s rec with
      | .wait p va => holdFor s p va
      | .fault c a => .trap c a
      | .ok (r, t) =>
        let l := layOf r
        if l.esz ≤ 4 ∧ base.toNat % (max 1 (l.width / 8)) ≠ 0 then .trap 0x0BC base
        else if !recordOk r || (decide (mode = .out) && decide (l.esz = 0)) then .trap 0x100 0
        else
          let p : Port := { Port.blank with mode := mode, width := l.width, packed := packed, base := base, record := r,
                                            recAddr := rec, hint := hint, endP := e, k := k,
                                            epc := s.pc, pid := s.cur.path.pid, binding := s.eng.nextId }
          .ok (({ t with eng := { t.eng with nextId := s.eng.nextId + 1 } }.modCur (fun w => w.setPort n (some p))).implicitFence
            (bindScope s base) p.binding)

/-- STRB.qin and STRB.qout (R196, R277). -/
def bindQueue (s : State) (mode : PortMode) (n : Nat) (w64 : Bool) (e pw pp : Nat) : Eff :=
  if (s.port n).isSome then .trap 0x101 0
  else if s.wg.wgsize ≤ pw ∨ pw = s.cur.index ∨ !s.wg.kern.ports.getLsbD pp then .trap 0x102 0
  else
    let width := if w64 then 64 else 32
    let other := (s.peerWarp s.wg.key pw).bind (fun w => w.ports.getD pp none)
    if (match other with
      | some q => q.isQueue && q.mode != mode && q.peerWarp == s.cur.index && q.peerPort == n && q.width != width
      | none => false) then .trap 0x104 0
    else
      let p : Port := { Port.blank with mode := mode, width := width, packed := true, endP := e, peerWarp := pw, peerPort := pp }
      .ok (s.modCur (fun w => w.setPort n (some p)))

/-- The status of a port (R197, R316); bit 51 of a queue whose other end has closed is a free value (log 29). -/
def State.streamStatus (s : State) (n : Nat) : Nat :=
  match s.port n with
  | none => 0
  | some p =>
    let at_ := match p.deferred with
      | some d => some d.1
      | none => (p.pre.filterMap (fun (e : PreElem) => e.fault.map (fun _ => e.pos))).foldl (fun (m : Option Nat) x => some (min x (m.getD x))) none
    let flag := fun (b : Bool) (i : Nat) => if b then 2 ^ i else 0
    at_.getD p.pos + 2 ^ 48 + flag p.endSeen 49 + flag at_.isSome 50 + flag (if p.finished then Config.freeBit s.freeCtr (2 ^ 62 + n) else (s.joined s.cur n).isSome) 51 + flag p.packed 52 +
    2 ^ 53 * (match p.mode with
      | .inp => 1
      | .out => 2
      | .qin => 3
      | .qout => 4)

/-- STRB.in (R196, R305, R307). -/
def execStrbIn (h : Hdr) (port : Nat) (packed : Bool) (hint : Nat) (e : Nat) (a : Opd) (b : Opd) (s : State) : Host.Outcome State Fault Refusal :=
  run (.strbIn h port packed hint e a b) h (fun t act => if act = 0 then .ok t else bindPattern t .inp port packed hint e 0 (t.readUni a 2) (t.readUni b 2)) s

/-- STRB.out (R196, R305, R307). -/
def execStrbOut (h : Hdr) (port : Nat) (packed : Bool) (k : Nat) (hint : Nat) (a : Opd) (b : Opd) (s : State) : Host.Outcome State Fault Refusal :=
  run (.strbOut h port packed k hint a b) h (fun t act => if act = 0 then .ok t else bindPattern t .out port packed hint 31 k (t.readUni a 2) (t.readUni b 2)) s

/-- STRB.qin (R196, R318). -/
def execStrbQin (h : Hdr) (port : Nat) (w64 : Bool) (e : Nat) (pw : Nat) (pp : Nat) (s : State) : Host.Outcome State Fault Refusal :=
  run (.strbQin h port w64 e pw pp) h (fun t act => if act = 0 then .ok t else bindQueue t .qin port w64 e pw pp) s

/-- STRB.qout (R196, R318). -/
def execStrbQout (h : Hdr) (port : Nat) (w64 : Bool) (pw : Nat) (pp : Nat) (s : State) : Host.Outcome State Fault Refusal :=
  run (.strbQout h port w64 pw pp) h (fun t act => if act = 0 then .ok t else bindQueue t .qout port w64 31 pw pp) s

/-- STRSTAT (R197). -/
def execStrstat (h : Hdr) (port : Nat) (d : Opd) (s : State) : Host.Outcome State Fault Refusal :=
  run (.strstat h port d) h (fun t act => if act = 0 then .ok t else .ok (t.putUni d 2 (BitVec.ofNat 64 (t.streamStatus port)) (varLat h))) s

/-- STRFLUSH (R198). -/
def execStrflush (h : Hdr) (port : Nat) (s : State) : Host.Outcome State Fault Refusal :=
  run (.strflush h port) h (fun t act =>
    if act = 0 then .ok t
    else match t.refreshOut port with
      | .fault c a => .trap c a
      | .wait p va => holdFor t p va
      | .ok u => match u.flushPort u.cur.id port with
        | (u, true) => .ok u
        | (_, false) => .hold t) s

/-- STRCLOSE (R198). -/
def execStrclose (h : Hdr) (port : Nat) (s : State) : Host.Outcome State Fault Refusal :=
  run (.strclose h port) h (fun t act =>
    if act = 0 then .ok t
    else match t.refreshOut port with
      | .fault c a => .trap c a
      | .wait p va => holdFor t p va
      | .ok u => match u.closePort u.cur.id port with
        | (u, true) => .ok u
        | (_, false) => .hold t) s

end Sys2Proof.Machine
end

