-- ==== Sys2Proof/Machine/System.lean ====
section
/-! DEFINITION. Creating and cancelling work, waiting, service calls, time, traps and special registers (R157–R166). -/
namespace Sys2Proof.Machine

/-! ## LAUNCH -/

/-- The access of a LAUNCH record: window 0x00, 256-byte aligned, access kind 3 (R157, R171). -/
def launchAccess : Access :=
  { kind := 3, perm := ⟨true, false, false⟩, space := .glob, size := 256, align := 256, atomic := none, fe := false,
    hflush := false, engine := false }

/-- The records' targets, lowest failing lane reported; rank form is refused (R256). -/
def launchTargets (s : State) (addr : Nat → DWord) (lanes : List Nat) : EngRes (List (Nat × Target)) :=
  match lanes.find? (fun l => decide ((addr l).toNat / 2 ^ 63 = 1) || (match resolve s launchAccess l (addr l) with
    | .fault _ => true
    | _ => false)) with
  | some l => if (addr l).toNat / 2 ^ 63 = 1 then .fault 0x0B8 (addr l) else checkLanes s launchAccess addr [l]
  | none => checkLanes s launchAccess addr lanes

/-- One lane's push after another (R157): the lanes done, those that found room, and whether a lane trapped. -/
def pushLanes (s : State) (q : Nat → DWord) (addr : Nat → DWord) : List (Nat × Target) → Mask × Mask × Bool × State
  | [] => (0, 0, false, s)
  | (l, t) :: r =>
    -- the record's four lines, each read once
    let (bs, s) := match t with
      | .loc p m => (List.range 4).foldl (fun (x : List Byte × State) i =>
          let y := x.2.readAt 0 2 64 [] (p + 64 * i) m
          (x.1 ++ y.1, y.2.2)) ([], s)
      | _ => ([], s)
    match s.pushRec ((q l).toNat % 256) s.wg.part { bytes := bs, addr := addr l } with
    | none => (0, 0, true, s)
    | some (ok, s) =>
      let (m, v, bad, s) := pushLanes s q addr r
      (m ||| (1#128 <<< l), (if ok then v ||| (1#128 <<< l) else v), bad, s)

/-- LAUNCH (R157). -/
def launchRecords (s : State) (h : Hdr) (pr : Nat) (act : Mask) (addr q : Nat → DWord) : Eff :=
  if act = 0 then .ok s
  else match launchTargets s addr (Mask.lanes act) with
    | .fault c a => .trap c a
    | .wait p va => holdFor s p va
    | .ok ts =>
      let (m, v, bad, s) := pushLanes s q addr ts
      -- where a lane traps, the values of the lower lanes stand (R157)
      if bad then .trapIn (s.writeP pr m v (s.fixed 0)) 0x168 0 else .ok (s.writeP pr m v (varLat h))

/-! ## Waiting -/

/-- The slots of the other warps of the quadrant that were ready in the cycle in which the focused warp was chosen (R159, R241). -/
def State.readyPeers (s : State) : List Nat := (s.turn.elim [] (fun t => t.others)).map (fun id => id.slot)

/-- YIELD (R159). -/
def State.yieldNow (s : State) : State := s.modCur (fun w => { w with hold := .yield (s.clk + 64) s.readyPeers })

/-- SLEEP (R159): at least 1 cycle and at most n, n = 0 behaving as 1. -/
def State.sleepFor (s : State) (n : Nat) (watch : Bool) : State :=
  s.modCur (fun w => { w with hold := .sleep s.clk (s.clk + max 1 n) watch })

/-- Watch the line of an address, where it can be watched (R159). -/
def State.watchLine (s : State) (a : DWord) : State :=
  match window a with
  | .glob va => (match translate s s.wg.part va with
    | .ok l => { s with mem := { s.mem with watch := (s.cur.id, l.loc va / 64) :: s.mem.watch } }
    | .error _ => s)
  | _ => s

/-- SYSCALL (R160): the arrival is recorded and the warp waits. -/
def syscallArrive (s : State) (h : Hdr) (d : Opd) (a : DWord) (n : Nat) : Eff :=
  let r := match d with
    | .s r => r
    | _ => 0
  let s := { s with wg := { s.wg with sys := s.wg.sys ++ [SysArrival.mk n a s.cur.index r] } }
  .moved (s.modCur (fun w => { w with hold := .syscall r h.sb }))

/-! ## Time and special registers -/

/-- The value of a time source (R161). -/
def State.timeOf (s : State) : TimeSrc → Nat
  | .dev => s.time
  | .clk => s.clk
  | .win => s.windowNo

/-- sr.qstat (R46): end of stream seen, bound, deferred fault pending. -/
def Warp.qstat (w : Warp) : Nat :=
  (List.range 8).foldl (fun n i => match w.ports.getD i none with
    | some p => n + (if p.endSeen then 2 ^ i else 0) + 2 ^ (8 + i) + (if p.deferred.isSome || p.pre.any (fun e => e.fault.isSome) then 2 ^ (16 + i) else 0)
    | none => n) 0

/-- A special register as MOVSR reads it (R46). -/
def State.readSr (s : State) (idx : Nat) : DWord :=
  match idx with
  | 0 => BitVec.ofNat 64 s.cur.index
  | 1 => s.wg.x.setWidth 64
  | 2 => s.wg.y.setWidth 64
  | 3 => s.wg.z.setWidth 64
  | 4 => BitVec.ofNat 64 s.wg.wgsize
  | 5 => BitVec.ofNat 64 s.wg.gang
  | 6 => BitVec.ofNat 64 s.gangpos
  | 7 => BitVec.ofNat 64 s.cur.id.core
  | 8 => BitVec.ofNat 64 (hearthOf s.cur.id.core)
  | 9 => BitVec.ofNat 64 (s.mgmt.selfRank % 2 ^ 17)
  | 10 => BitVec.ofNat 64 s.cur.qstat
  | 11 => s.wg.phase.setWidth 64
  | 12 => s.cur.cause.setWidth 64
  | 13 => s.cur.epc
  | 14 => s.cur.fault
  | _ => 0

/-- SETSR of a register that trap mode may write (R46, R47, R277). -/
def setSr (s : State) (idx : Nat) (x : DWord) : Eff :=
  match idx with
  | 12 => .ok (s.modCur (fun w => { w with cause := x.setWidth 9 }))
  | 13 => if 2 ^ 56 ≤ x.toNat / 5 * 64 then .trap 0x06F 0 else .ok (s.modCur (fun w => { w with epc := x }))
  | 14 => .ok (s.modCur (fun w => { w with fault := x }))
  | _ => .ok s

/-- LAUNCH (R157). -/
def execLaunch (h : Hdr) (pr : Nat) (a : Opd) (b : Opd) (s : State) : Host.Outcome State Fault Refusal :=
  run (.launch h pr a b) h (fun t act => launchRecords t h pr act (fun l => (t.readVec a 2).getD l 0) (fun l => (t.readVec b 1).getD l 0)) s

/-- CANCEL (R158). -/
def execCancel (h : Hdr) (lv : Level) (s : State) : Host.Outcome State Fault Refusal :=
  run (.cancel h lv) h (fun t act => if act = 0 then .ok t else .moved (t.cancelOwn lv)) s

/-- CANCEL.id (R158, R413). -/
def execCancelId (h : Hdr) (lv : Level) (a : Opd) (s : State) : Host.Outcome State Fault Refusal :=
  run (.cancelId h lv a) h (fun t act => if act = 0 then .ok t else .ok (t.cancelIdent t.wg.part lv (t.readUni a 2).toNat 0)) s

/-- YIELD (R159). -/
def execYieldw (h : Hdr) (s : State) : Host.Outcome State Fault Refusal :=
  run (.yieldw h) h (fun t act => if act = 0 then .ok t else .ok t.yieldNow) s

/-- SLEEP (R159). -/
def execSleep (h : Hdr) (n : BitVec 24) (s : State) : Host.Outcome State Fault Refusal :=
  run (.sleep h n) h (fun t act => if act = 0 then .ok t else .ok (t.sleepFor n.toNat false)) s

/-- SLEEP.watch (R159). -/
def execSleepWatch (h : Hdr) (a : Opd) (n : BitVec 24) (s : State) : Host.Outcome State Fault Refusal :=
  run (.sleepWatch h a n) h (fun t act => if act = 0 then .ok t else .ok ((t.watchLine (t.readUni a 2)).sleepFor n.toNat true)) s

/-- SYSCALL (R153, R160): the warp arrives and waits; its slot stays current until the status is written. -/
def execSyscall (h : Hdr) (d : Opd) (a : Opd) (n : BitVec 16) (s : State) : Host.Outcome State Fault Refusal :=
  run (.syscall h d a n) h (fun t act => if t.converged act then syscallArrive t h d (t.readUni a 2) n.toNat else .trap 0x066 0) s

/-- TRAP n (R162). -/
def execTrap (h : Hdr) (n : Nat) (s : State) : Host.Outcome State Fault Refusal :=
  run (.trap h n) h (fun t act =>
    if act = 0 then .ok t
    else match t.enter (0x070 + n) (t.pc + 1) 0 with
      | .ok u => .moved u
      | .error (p, va) => .hold (t.pathWaits p va)) s

/-- RETT (R163). -/
def execRett (h : Hdr) (s : State) : Host.Outcome State Fault Refusal :=
  run (.rett h) h (fun t act =>
    if act = 0 then .ok t
    else if !t.cur.trapMode then .trap 0x06A 0
    else if t.cur.path.rpc ≠ trapMark then .trap 0x06B 0
    else .moved t.rett) s

/-- IDEND (R165). -/
def execIdend (h : Hdr) (s : State) : Host.Outcome State Fault Refusal :=
  run (.idend h) h (fun t act => if act = 0 then .ok t else .ok { t with wg := { t.wg with idend := t.wg.idend || t.wg.idem } }) s

/-- TIME (R161). -/
def execTime (h : Hdr) (src : TimeSrc) (d : Opd) (s : State) : Host.Outcome State Fault Refusal :=
  run (.time h src d) h (fun t act => if act = 0 then .ok t else .ok (t.putUni d 2 (BitVec.ofNat 64 (t.timeOf src)) (varLat h))) s

/-- MOVSR (R46, R166). -/
def execMovsr (h : Hdr) (idx : Nat) (d : Opd) (s : State) : Host.Outcome State Fault Refusal :=
  run (.movsr h idx d) h (fun t act => if act = 0 then .ok t else .ok (t.putUni d (if idx = 13 ∨ idx = 14 then 2 else 1) (t.readSr idx) (varLat h))) s

/-- SETSR (R46, R47, R166). -/
def execSetsr (h : Hdr) (idx : Nat) (a : Opd) (s : State) : Host.Outcome State Fault Refusal :=
  run (.setsr h idx a) h (fun t act => if act = 0 then .ok t else setSr t idx (t.readUni a (if idx = 13 ∨ idx = 14 then 2 else 1))) s

end Sys2Proof.Machine
end

