-- ==== Sys2Proof/Machine/VecInt.lean ====
section
/-! DEFINITION. Class 0: vector integer and logic (R99–R111). Each meaning is `run` around one lane computation of Flags. -/
namespace Sys2Proof.Machine

/-- The results of IADDC in the lanes of a mask (R106): PD before D only in name; both are written. -/
def addcPut (ty : Ty) (ci pd : Nat) (d : Opd) (live : Mask) (a b : Lanes) (s : State) : Eff :=
  let sums := Vector.ofFn (fun l : Fin 128 => aluAddc ty a[l] b[l] (ci != 31 && (s.readP ci).getLsbD l))
  match s.putVec d (tyRegs ty) live (sums.map (fun x => BitVec.ofNat 64 (x % 2 ^ tyBits ty))) (s.fixed 4) with
  | .ok t => .ok (t.writeP pd live (maskOf (fun l => decide (2 ^ tyBits ty ≤ sums.getD l 0))) (s.fixed 4))
  | e => e

/-- NOP (R85): does nothing but wait and stall. -/
def execNop (h : Hdr) (s : State) : Host.Outcome State Fault Refusal :=
  run (.nop h) h (fun t _ => .ok t) s

/-- MOV (R105). -/
def execMov (h : Hdr) (ty : Ty) (d : Opd) (a : Opd) (s : State) : Host.Outcome State Fault Refusal :=
  run (.mov h ty d a) h (vecOp [(a, (tyRegs ty))] d (tyRegs ty) 4 (fun _ x => extend ty (pat (tyBits ty) (arg x 0)))) s

/-- MOV (R105), immediate form (R102). -/
def execMovImm (h : Hdr) (ty : Ty) (d : Opd) (imm : BitVec 32) (s : State) : Host.Outcome State Fault Refusal :=
  run (.movImm h ty d imm) h (vecOp [] d (tyRegs ty) 4 (fun _ _ => extend ty (pat (tyBits ty) (immVal ty imm)))) s

/-- IADD (R105). -/
def execIadd (h : Hdr) (ty : Ty) (sat : Bool) (na : Bool) (nb : Bool) (d : Opd) (a : Opd) (b : Opd) (s : State) : Host.Outcome State Fault Refusal :=
  run (.iadd h ty sat na nb d a b) h (vecOp [(a, (tyRegs ty)), (b, (tyRegs ty))] d (tyRegs ty) 4 (fun _ x => aluAdd ty sat na nb (arg x 0) (arg x 1))) s

/-- IADD (R105), immediate form (R102). -/
def execIaddImm (h : Hdr) (ty : Ty) (sat : Bool) (d : Opd) (a : Opd) (imm : BitVec 32) (s : State) : Host.Outcome State Fault Refusal :=
  run (.iaddImm h ty sat d a imm) h (vecOp [(a, (tyRegs ty))] d (tyRegs ty) 4 (fun _ x => aluAdd ty sat false false (arg x 0) (immVal ty imm))) s

/-- ISUB (R105). -/
def execIsub (h : Hdr) (ty : Ty) (sat : Bool) (d : Opd) (a : Opd) (b : Opd) (s : State) : Host.Outcome State Fault Refusal :=
  run (.isub h ty sat d a b) h (vecOp [(a, (tyRegs ty)), (b, (tyRegs ty))] d (tyRegs ty) 4 (fun _ x => aluSub ty sat (arg x 0) (arg x 1))) s

/-- ISUB (R105), immediate form (R102). -/
def execIsubImm (h : Hdr) (ty : Ty) (sat : Bool) (d : Opd) (a : Opd) (imm : BitVec 32) (s : State) : Host.Outcome State Fault Refusal :=
  run (.isubImm h ty sat d a imm) h (vecOp [(a, (tyRegs ty))] d (tyRegs ty) 4 (fun _ x => aluSub ty sat (arg x 0) (immVal ty imm))) s

/-- IADDC (R106): the sum to D, the carry out to PD. -/
def execIaddc (h : Hdr) (ty : Ty) (ci : Nat) (pd : Nat) (d : Opd) (a : Opd) (b : Opd) (s : State) : Host.Outcome State Fault Refusal :=
  run (.iaddc h ty ci pd d a b) h (withSrcs [(a, tyRegs ty), (b, tyRegs ty)] (fun s => s.fixed 4) (fun s live xs =>
    addcPut ty ci pd d live (xs.getD 0 (Vector.replicate 128 0)) (xs.getD 1 (Vector.replicate 128 0)) s)) s

/-- IADDC (R106): the sum to D, the carry out to PD, immediate form. -/
def execIaddcImm (h : Hdr) (ty : Ty) (ci : Nat) (pd : Nat) (d : Opd) (a : Opd) (imm : BitVec 32) (s : State) : Host.Outcome State Fault Refusal :=
  run (.iaddcImm h ty ci pd d a imm) h (withSrcs [(a, tyRegs ty)] (fun s => s.fixed 4) (fun s live xs =>
    addcPut ty ci pd d live (xs.getD 0 (Vector.replicate 128 0)) (Vector.replicate 128 (immVal ty imm)) s)) s

/-- IMUL (R105). -/
def execImul (h : Hdr) (ty : Ty) (sat : Bool) (d : Opd) (a : Opd) (b : Opd) (s : State) : Host.Outcome State Fault Refusal :=
  run (.imul h ty sat d a b) h (vecOp [(a, (tyRegs ty)), (b, (tyRegs ty))] d (tyRegs ty) (if Ty.wide ty then 12 else 6) (fun _ x => aluMul ty sat (arg x 0) (arg x 1))) s

/-- IMUL (R105), immediate form (R102). -/
def execImulImm (h : Hdr) (ty : Ty) (sat : Bool) (d : Opd) (a : Opd) (imm : BitVec 32) (s : State) : Host.Outcome State Fault Refusal :=
  run (.imulImm h ty sat d a imm) h (vecOp [(a, (tyRegs ty))] d (tyRegs ty) (if Ty.wide ty then 12 else 6) (fun _ x => aluMul ty sat (arg x 0) (immVal ty imm))) s

/-- IMULH (R105). -/
def execImulh (h : Hdr) (ty : Ty) (d : Opd) (a : Opd) (b : Opd) (s : State) : Host.Outcome State Fault Refusal :=
  run (.imulh h ty d a b) h (vecOp [(a, (tyRegs ty)), (b, (tyRegs ty))] d (tyRegs ty) (if Ty.wide ty then 12 else 6) (fun _ x => aluMulh ty (arg x 0) (arg x 1))) s

/-- IMULH (R105), immediate form (R102). -/
def execImulhImm (h : Hdr) (ty : Ty) (d : Opd) (a : Opd) (imm : BitVec 32) (s : State) : Host.Outcome State Fault Refusal :=
  run (.imulhImm h ty d a imm) h (vecOp [(a, (tyRegs ty))] d (tyRegs ty) (if Ty.wide ty then 12 else 6) (fun _ x => aluMulh ty (arg x 0) (immVal ty imm))) s

/-- IMAD (R105). -/
def execImad (h : Hdr) (ty : Ty) (sat : Bool) (nc : Bool) (d : Opd) (a : Opd) (b : Opd) (c : Opd) (s : State) : Host.Outcome State Fault Refusal :=
  run (.imad h ty sat nc d a b c) h (vecOp [(a, (tyRegs ty)), (b, (tyRegs ty)), (c, (tyRegs ty))] d (tyRegs ty) (if Ty.wide ty then 12 else 6) (fun _ x => aluMad ty sat nc (arg x 0) (arg x 1) (arg x 2))) s

/-- IMAD (R105), immediate form (R102). -/
def execImadImm (h : Hdr) (ty : Ty) (sat : Bool) (d : Opd) (a : Opd) (imm : BitVec 32) (s : State) : Host.Outcome State Fault Refusal :=
  run (.imadImm h ty sat d a imm) h (vecOp [(a, (tyRegs ty)), (d, (tyRegs ty))] d (tyRegs ty) (if Ty.wide ty then 12 else 6) (fun _ x => aluMad ty sat false (arg x 0) (immVal ty imm) (arg x 1))) s

/-- IMADW (R105). -/
def execImadw (h : Hdr) (ty : Ty) (sat : Bool) (d : Opd) (a : Opd) (b : Opd) (c : Opd) (s : State) : Host.Outcome State Fault Refusal :=
  run (.imadw h ty sat d a b c) h (vecOp [(a, 1), (b, 1), (c, 2)] d 2 (if Ty.wide ty then 12 else 6) (fun _ x => aluMadw ty sat (arg x 0) (arg x 1) (arg x 2))) s

/-- IMADW (R105), immediate form (R102). -/
def execImadwImm (h : Hdr) (ty : Ty) (sat : Bool) (d : Opd) (a : Opd) (imm : BitVec 32) (s : State) : Host.Outcome State Fault Refusal :=
  run (.imadwImm h ty sat d a imm) h (vecOp [(a, 1), (d, 2)] d 2 (if Ty.wide ty then 12 else 6) (fun _ x => aluMadw ty sat (arg x 0) (immVal32 imm) (arg x 1))) s

/-- IMIN (R105). -/
def execImin (h : Hdr) (ty : Ty) (d : Opd) (a : Opd) (b : Opd) (s : State) : Host.Outcome State Fault Refusal :=
  run (.imin h ty d a b) h (vecOp [(a, (tyRegs ty)), (b, (tyRegs ty))] d (tyRegs ty) 4 (fun _ x => aluMinMax ty false (arg x 0) (arg x 1))) s

/-- IMIN (R105), immediate form (R102). -/
def execIminImm (h : Hdr) (ty : Ty) (d : Opd) (a : Opd) (imm : BitVec 32) (s : State) : Host.Outcome State Fault Refusal :=
  run (.iminImm h ty d a imm) h (vecOp [(a, (tyRegs ty))] d (tyRegs ty) 4 (fun _ x => aluMinMax ty false (arg x 0) (immVal ty imm))) s

/-- IMAX (R105). -/
def execImax (h : Hdr) (ty : Ty) (d : Opd) (a : Opd) (b : Opd) (s : State) : Host.Outcome State Fault Refusal :=
  run (.imax h ty d a b) h (vecOp [(a, (tyRegs ty)), (b, (tyRegs ty))] d (tyRegs ty) 4 (fun _ x => aluMinMax ty true (arg x 0) (arg x 1))) s

/-- IMAX (R105), immediate form (R102). -/
def execImaxImm (h : Hdr) (ty : Ty) (d : Opd) (a : Opd) (imm : BitVec 32) (s : State) : Host.Outcome State Fault Refusal :=
  run (.imaxImm h ty d a imm) h (vecOp [(a, (tyRegs ty))] d (tyRegs ty) 4 (fun _ x => aluMinMax ty true (arg x 0) (immVal ty imm))) s

/-- IABS (R105). -/
def execIabs (h : Hdr) (ty : Ty) (sat : Bool) (d : Opd) (a : Opd) (s : State) : Host.Outcome State Fault Refusal :=
  run (.iabs h ty sat d a) h (vecOp [(a, (tyRegs ty))] d (tyRegs ty) 4 (fun _ x => aluAbs ty sat (arg x 0))) s

/-- IABS (R105), immediate form (R102). -/
def execIabsImm (h : Hdr) (ty : Ty) (sat : Bool) (d : Opd) (imm : BitVec 32) (s : State) : Host.Outcome State Fault Refusal :=
  run (.iabsImm h ty sat d imm) h (vecOp [] d (tyRegs ty) 4 (fun _ _ => aluAbs ty sat (immVal ty imm))) s

/-- SHL (R107). -/
def execShl (h : Hdr) (ty : Ty) (sat : Bool) (d : Opd) (a : Opd) (b : Opd) (s : State) : Host.Outcome State Fault Refusal :=
  run (.shl h ty sat d a b) h (vecOp [(a, (tyRegs ty)), (b, 1)] d (tyRegs ty) 4 (fun _ x => aluShl ty sat (arg x 0) (arg x 1))) s

/-- SHL (R107), immediate form (R102). -/
def execShlImm (h : Hdr) (ty : Ty) (sat : Bool) (d : Opd) (a : Opd) (imm : BitVec 32) (s : State) : Host.Outcome State Fault Refusal :=
  run (.shlImm h ty sat d a imm) h (vecOp [(a, (tyRegs ty))] d (tyRegs ty) 4 (fun _ x => aluShl ty sat (arg x 0) (immVal32 imm))) s

/-- SHR (R107). -/
def execShr (h : Hdr) (ty : Ty) (d : Opd) (a : Opd) (b : Opd) (s : State) : Host.Outcome State Fault Refusal :=
  run (.shr h ty d a b) h (vecOp [(a, (tyRegs ty)), (b, 1)] d (tyRegs ty) 4 (fun _ x => aluShr ty (arg x 0) (arg x 1))) s

/-- SHR (R107), immediate form (R102). -/
def execShrImm (h : Hdr) (ty : Ty) (d : Opd) (a : Opd) (imm : BitVec 32) (s : State) : Host.Outcome State Fault Refusal :=
  run (.shrImm h ty d a imm) h (vecOp [(a, (tyRegs ty))] d (tyRegs ty) 4 (fun _ x => aluShr ty (arg x 0) (immVal32 imm))) s

/-- SAR (R107). -/
def execSar (h : Hdr) (ty : Ty) (d : Opd) (a : Opd) (b : Opd) (s : State) : Host.Outcome State Fault Refusal :=
  run (.sar h ty d a b) h (vecOp [(a, (tyRegs ty)), (b, 1)] d (tyRegs ty) 4 (fun _ x => aluSar ty (arg x 0) (arg x 1))) s

/-- SAR (R107), immediate form (R102). -/
def execSarImm (h : Hdr) (ty : Ty) (d : Opd) (a : Opd) (imm : BitVec 32) (s : State) : Host.Outcome State Fault Refusal :=
  run (.sarImm h ty d a imm) h (vecOp [(a, (tyRegs ty))] d (tyRegs ty) 4 (fun _ x => aluSar ty (arg x 0) (immVal32 imm))) s

/-- AND (R105). -/
def execAnd (h : Hdr) (ty : Ty) (na : Bool) (nb : Bool) (d : Opd) (a : Opd) (b : Opd) (s : State) : Host.Outcome State Fault Refusal :=
  run (.and h ty na nb d a b) h (vecOp [(a, (tyRegs ty)), (b, (tyRegs ty))] d (tyRegs ty) 4 (fun _ x => aluBit .and ty na nb (arg x 0) (arg x 1))) s

/-- AND (R105), immediate form (R102). -/
def execAndImm (h : Hdr) (ty : Ty) (d : Opd) (a : Opd) (imm : BitVec 32) (s : State) : Host.Outcome State Fault Refusal :=
  run (.andImm h ty d a imm) h (vecOp [(a, (tyRegs ty))] d (tyRegs ty) 4 (fun _ x => aluBit .and ty false false (arg x 0) (immVal ty imm))) s

/-- OR (R105). -/
def execOr (h : Hdr) (ty : Ty) (na : Bool) (nb : Bool) (d : Opd) (a : Opd) (b : Opd) (s : State) : Host.Outcome State Fault Refusal :=
  run (.or h ty na nb d a b) h (vecOp [(a, (tyRegs ty)), (b, (tyRegs ty))] d (tyRegs ty) 4 (fun _ x => aluBit .or ty na nb (arg x 0) (arg x 1))) s

/-- OR (R105), immediate form (R102). -/
def execOrImm (h : Hdr) (ty : Ty) (d : Opd) (a : Opd) (imm : BitVec 32) (s : State) : Host.Outcome State Fault Refusal :=
  run (.orImm h ty d a imm) h (vecOp [(a, (tyRegs ty))] d (tyRegs ty) 4 (fun _ x => aluBit .or ty false false (arg x 0) (immVal ty imm))) s

/-- XOR (R105). -/
def execXor (h : Hdr) (ty : Ty) (na : Bool) (nb : Bool) (d : Opd) (a : Opd) (b : Opd) (s : State) : Host.Outcome State Fault Refusal :=
  run (.xor h ty na nb d a b) h (vecOp [(a, (tyRegs ty)), (b, (tyRegs ty))] d (tyRegs ty) 4 (fun _ x => aluBit .xor ty na nb (arg x 0) (arg x 1))) s

/-- XOR (R105), immediate form (R102). -/
def execXorImm (h : Hdr) (ty : Ty) (d : Opd) (a : Opd) (imm : BitVec 32) (s : State) : Host.Outcome State Fault Refusal :=
  run (.xorImm h ty d a imm) h (vecOp [(a, (tyRegs ty))] d (tyRegs ty) 4 (fun _ x => aluBit .xor ty false false (arg x 0) (immVal ty imm))) s

/-- LUT3 (R105). -/
def execLut3 (h : Hdr) (ty : Ty) (lut : BitVec 8) (d : Opd) (a : Opd) (b : Opd) (c : Opd) (s : State) : Host.Outcome State Fault Refusal :=
  run (.lut3 h ty lut d a b c) h (vecOp [(a, (tyRegs ty)), (b, (tyRegs ty)), (c, (tyRegs ty))] d (tyRegs ty) 4 (fun _ x => aluLut lut ty (arg x 0) (arg x 1) (arg x 2))) s

/-- LUT3 (R105), immediate form (R102). -/
def execLut3Imm (h : Hdr) (ty : Ty) (lutLo : BitVec 5) (lutHi : BitVec 3) (d : Opd) (a : Opd) (imm : BitVec 32) (s : State) : Host.Outcome State Fault Refusal :=
  run (.lut3Imm h ty lutLo lutHi d a imm) h (vecOp [(a, (tyRegs ty)), (d, (tyRegs ty))] d (tyRegs ty) 4 (fun _ x => aluLut (lutHi ++ lutLo) ty (arg x 0) (immVal ty imm) (arg x 1))) s

/-- POPC (R108). -/
def execPopc (h : Hdr) (ty : Ty) (d : Opd) (a : Opd) (s : State) : Host.Outcome State Fault Refusal :=
  run (.popc h ty d a) h (vecOp [(a, (tyRegs ty))] d 1 4 (fun _ x => aluPopc ty (arg x 0))) s

/-- CLZ (R108). -/
def execClz (h : Hdr) (ty : Ty) (d : Opd) (a : Opd) (s : State) : Host.Outcome State Fault Refusal :=
  run (.clz h ty d a) h (vecOp [(a, (tyRegs ty))] d 1 4 (fun _ x => aluClz ty (arg x 0))) s

/-- BFE (R109). -/
def execBfe (h : Hdr) (ty : Ty) (d : Opd) (a : Opd) (b : Opd) (s : State) : Host.Outcome State Fault Refusal :=
  run (.bfe h ty d a b) h (vecOp [(a, (tyRegs ty)), (b, 1)] d (tyRegs ty) 4 (fun _ x => aluBfe ty (arg x 0) (arg x 1))) s

/-- BFE (R109), immediate form (R102). -/
def execBfeImm (h : Hdr) (ty : Ty) (d : Opd) (a : Opd) (imm : BitVec 32) (s : State) : Host.Outcome State Fault Refusal :=
  run (.bfeImm h ty d a imm) h (vecOp [(a, (tyRegs ty))] d (tyRegs ty) 4 (fun _ x => aluBfe ty (arg x 0) (immVal32 imm))) s

/-- BFI (R109). -/
def execBfi (h : Hdr) (ty : Ty) (d : Opd) (a : Opd) (b : Opd) (c : Opd) (s : State) : Host.Outcome State Fault Refusal :=
  run (.bfi h ty d a b c) h (vecOp [(a, (tyRegs ty)), (b, 1), (c, (tyRegs ty))] d (tyRegs ty) 4 (fun _ x => aluBfi ty (arg x 0) (arg x 1) (arg x 2))) s

/-- BFI (R109), immediate form (R102). -/
def execBfiImm (h : Hdr) (ty : Ty) (d : Opd) (a : Opd) (imm : BitVec 32) (s : State) : Host.Outcome State Fault Refusal :=
  run (.bfiImm h ty d a imm) h (vecOp [(a, (tyRegs ty)), (d, (tyRegs ty))] d (tyRegs ty) 4 (fun _ x => aluBfi ty (arg x 0) (immVal32 imm) (arg x 1))) s

/-- BPICK (R110). -/
def execBpick (h : Hdr) (d : Opd) (a : Opd) (b : Opd) (c : Opd) (s : State) : Host.Outcome State Fault Refusal :=
  run (.bpick h d a b c) h (vecOp [(a, 1), (b, 1), (c, 1)] d 1 4 (fun _ x => aluBpick (arg x 0) (arg x 1) (arg x 2))) s

/-- BPICK (R110), immediate form (R102). -/
def execBpickImm (h : Hdr) (d : Opd) (a : Opd) (imm : BitVec 32) (s : State) : Host.Outcome State Fault Refusal :=
  run (.bpickImm h d a imm) h (vecOp [(a, 1), (d, 1)] d 1 4 (fun _ x => aluBpick (arg x 0) (immVal32 imm) (arg x 1))) s

/-- SEL (R111). -/
def execSel (h : Hdr) (ty : Ty) (pr : Nat) (neg : Bool) (d : Opd) (a : Opd) (b : Opd) (s : State) : Host.Outcome State Fault Refusal :=
  run (.sel h ty pr neg d a b) h (fun t act => vecOp [(a, tyRegs ty), (b, tyRegs ty)] d (tyRegs ty) 4 (fun l x =>
    extend ty (pat (tyBits ty) (if (t.readP pr).getLsbD l != neg then arg x 0 else arg x 1))) t act) s

/-- SEL (R111), immediate form. -/
def execSelImm (h : Hdr) (ty : Ty) (pr : Nat) (neg : Bool) (d : Opd) (a : Opd) (imm : BitVec 32) (s : State) : Host.Outcome State Fault Refusal :=
  run (.selImm h ty pr neg d a imm) h (fun t act => vecOp [(a, tyRegs ty)] d (tyRegs ty) 4 (fun l x =>
    extend ty (pat (tyBits ty) (if (t.readP pr).getLsbD l != neg then arg x 0 else immVal ty imm))) t act) s

/-- ICMP (R111). -/
def execIcmp (h : Hdr) (ty : Ty) (cmp : Cmp) (pd : Nat) (a : Opd) (b : Opd) (s : State) : Host.Outcome State Fault Refusal :=
  run (.icmp h ty cmp pd a b) h (vecTest [(a, tyRegs ty), (b, tyRegs ty)] pd 4 (fun _ x => cmpInt cmp (intVal ty (arg x 0)) (intVal ty (arg x 1)))) s

/-- ICMP (R111), immediate form. -/
def execIcmpImm (h : Hdr) (ty : Ty) (cmp : Cmp) (pd : Nat) (a : Opd) (imm : BitVec 32) (s : State) : Host.Outcome State Fault Refusal :=
  run (.icmpImm h ty cmp pd a imm) h (vecTest [(a, tyRegs ty)] pd 4 (fun _ x => cmpInt cmp (intVal ty (arg x 0)) (intVal ty (immVal ty imm)))) s

/-- LEA (R111). -/
def execLea (h : Hdr) (ty : Ty) (sh : Nat) (d : Opd) (a : Opd) (b : Opd) (s : State) : Host.Outcome State Fault Refusal :=
  run (.lea h ty sh d a b) h (vecOp [(a, 1), (b, (tyRegs ty))] d (tyRegs ty) 4 (fun _ x => aluLea ty sh (arg x 0) (arg x 1))) s

/-- LEA (R111), immediate form (R102). -/
def execLeaImm (h : Hdr) (ty : Ty) (sh : Nat) (d : Opd) (a : Opd) (imm : BitVec 32) (s : State) : Host.Outcome State Fault Refusal :=
  run (.leaImm h ty sh d a imm) h (vecOp [(a, 1)] d (tyRegs ty) 4 (fun _ x => aluLea ty sh (arg x 0) (immVal ty imm))) s

/-- IDOT4 (R105). -/
def execIdot4 (h : Hdr) (ty : Ty) (sat : Bool) (sgA : Bool) (sgB : Bool) (d : Opd) (a : Opd) (b : Opd) (c : Opd) (s : State) : Host.Outcome State Fault Refusal :=
  run (.idot4 h ty sat sgA sgB d a b c) h (vecOp [(a, 1), (b, 1), (c, 1)] d 1 (if Ty.wide ty then 12 else 6) (fun _ x => aluDot ty sat sgA sgB (arg x 0) (arg x 1) (arg x 2))) s

end Sys2Proof.Machine
end

