-- ==== Sys2Proof/Machine/Dispatch.lean ====
section
/-! DEFINITION. One arm for each instruction and event: a direct call of its meaning. -/
namespace Sys2Proof.Machine

/-- What an instruction, or an event of the machine, does. -/
def exec (i : Instr) (s : State) : Host.Outcome State Fault Refusal :=
  match i with
  | .nop h => Sys2Proof.Machine.execNop h s
  | .mov h ty d a => Sys2Proof.Machine.execMov h ty d a s
  | .movImm h ty d imm => Sys2Proof.Machine.execMovImm h ty d imm s
  | .iadd h ty sat na nb d a b => Sys2Proof.Machine.execIadd h ty sat na nb d a b s
  | .iaddImm h ty sat d a imm => Sys2Proof.Machine.execIaddImm h ty sat d a imm s
  | .isub h ty sat d a b => Sys2Proof.Machine.execIsub h ty sat d a b s
  | .isubImm h ty sat d a imm => Sys2Proof.Machine.execIsubImm h ty sat d a imm s
  | .iaddc h ty ci pd d a b => Sys2Proof.Machine.execIaddc h ty ci pd d a b s
  | .iaddcImm h ty ci pd d a imm => Sys2Proof.Machine.execIaddcImm h ty ci pd d a imm s
  | .imul h ty sat d a b => Sys2Proof.Machine.execImul h ty sat d a b s
  | .imulImm h ty sat d a imm => Sys2Proof.Machine.execImulImm h ty sat d a imm s
  | .imulh h ty d a b => Sys2Proof.Machine.execImulh h ty d a b s
  | .imulhImm h ty d a imm => Sys2Proof.Machine.execImulhImm h ty d a imm s
  | .imad h ty sat nc d a b c => Sys2Proof.Machine.execImad h ty sat nc d a b c s
  | .imadImm h ty sat d a imm => Sys2Proof.Machine.execImadImm h ty sat d a imm s
  | .imadw h ty sat d a b c => Sys2Proof.Machine.execImadw h ty sat d a b c s
  | .imadwImm h ty sat d a imm => Sys2Proof.Machine.execImadwImm h ty sat d a imm s
  | .imin h ty d a b => Sys2Proof.Machine.execImin h ty d a b s
  | .iminImm h ty d a imm => Sys2Proof.Machine.execIminImm h ty d a imm s
  | .imax h ty d a b => Sys2Proof.Machine.execImax h ty d a b s
  | .imaxImm h ty d a imm => Sys2Proof.Machine.execImaxImm h ty d a imm s
  | .iabs h ty sat d a => Sys2Proof.Machine.execIabs h ty sat d a s
  | .iabsImm h ty sat d imm => Sys2Proof.Machine.execIabsImm h ty sat d imm s
  | .shl h ty sat d a b => Sys2Proof.Machine.execShl h ty sat d a b s
  | .shlImm h ty sat d a imm => Sys2Proof.Machine.execShlImm h ty sat d a imm s
  | .shr h ty d a b => Sys2Proof.Machine.execShr h ty d a b s
  | .shrImm h ty d a imm => Sys2Proof.Machine.execShrImm h ty d a imm s
  | .sar h ty d a b => Sys2Proof.Machine.execSar h ty d a b s
  | .sarImm h ty d a imm => Sys2Proof.Machine.execSarImm h ty d a imm s
  | .and h ty na nb d a b => Sys2Proof.Machine.execAnd h ty na nb d a b s
  | .andImm h ty d a imm => Sys2Proof.Machine.execAndImm h ty d a imm s
  | .or h ty na nb d a b => Sys2Proof.Machine.execOr h ty na nb d a b s
  | .orImm h ty d a imm => Sys2Proof.Machine.execOrImm h ty d a imm s
  | .xor h ty na nb d a b => Sys2Proof.Machine.execXor h ty na nb d a b s
  | .xorImm h ty d a imm => Sys2Proof.Machine.execXorImm h ty d a imm s
  | .lut3 h ty lut d a b c => Sys2Proof.Machine.execLut3 h ty lut d a b c s
  | .lut3Imm h ty lutLo lutHi d a imm => Sys2Proof.Machine.execLut3Imm h ty lutLo lutHi d a imm s
  | .popc h ty d a => Sys2Proof.Machine.execPopc h ty d a s
  | .clz h ty d a => Sys2Proof.Machine.execClz h ty d a s
  | .bfe h ty d a b => Sys2Proof.Machine.execBfe h ty d a b s
  | .bfeImm h ty d a imm => Sys2Proof.Machine.execBfeImm h ty d a imm s
  | .bfi h ty d a b c => Sys2Proof.Machine.execBfi h ty d a b c s
  | .bfiImm h ty d a imm => Sys2Proof.Machine.execBfiImm h ty d a imm s
  | .bpick h d a b c => Sys2Proof.Machine.execBpick h d a b c s
  | .bpickImm h d a imm => Sys2Proof.Machine.execBpickImm h d a imm s
  | .sel h ty pr neg d a b => Sys2Proof.Machine.execSel h ty pr neg d a b s
  | .selImm h ty pr neg d a imm => Sys2Proof.Machine.execSelImm h ty pr neg d a imm s
  | .icmp h ty cmp pd a b => Sys2Proof.Machine.execIcmp h ty cmp pd a b s
  | .icmpImm h ty cmp pd a imm => Sys2Proof.Machine.execIcmpImm h ty cmp pd a imm s
  | .lea h ty sh d a b => Sys2Proof.Machine.execLea h ty sh d a b s
  | .leaImm h ty sh d a imm => Sys2Proof.Machine.execLeaImm h ty sh d a imm s
  | .idot4 h ty sat sgA sgB d a b c => Sys2Proof.Machine.execIdot4 h ty sat sgA sgB d a b c s
  | .umov h ty d a => Sys2Proof.Machine.execUmov h ty d a s
  | .umovImm h ty d imm => Sys2Proof.Machine.execUmovImm h ty d imm s
  | .uadd h ty sat na nb d a b => Sys2Proof.Machine.execUadd h ty sat na nb d a b s
  | .uaddImm h ty sat d a imm => Sys2Proof.Machine.execUaddImm h ty sat d a imm s
  | .usub h ty sat d a b => Sys2Proof.Machine.execUsub h ty sat d a b s
  | .usubImm h ty sat d a imm => Sys2Proof.Machine.execUsubImm h ty sat d a imm s
  | .umul h ty sat d a b => Sys2Proof.Machine.execUmul h ty sat d a b s
  | .umulImm h ty sat d a imm => Sys2Proof.Machine.execUmulImm h ty sat d a imm s
  | .umad h ty sat nc d a b c => Sys2Proof.Machine.execUmad h ty sat nc d a b c s
  | .umadImm h ty sat d a imm => Sys2Proof.Machine.execUmadImm h ty sat d a imm s
  | .umin h ty d a b => Sys2Proof.Machine.execUmin h ty d a b s
  | .uminImm h ty d a imm => Sys2Proof.Machine.execUminImm h ty d a imm s
  | .umax h ty d a b => Sys2Proof.Machine.execUmax h ty d a b s
  | .umaxImm h ty d a imm => Sys2Proof.Machine.execUmaxImm h ty d a imm s
  | .ushl h ty sat d a b => Sys2Proof.Machine.execUshl h ty sat d a b s
  | .ushlImm h ty sat d a imm => Sys2Proof.Machine.execUshlImm h ty sat d a imm s
  | .ushr h ty d a b => Sys2Proof.Machine.execUshr h ty d a b s
  | .ushrImm h ty d a imm => Sys2Proof.Machine.execUshrImm h ty d a imm s
  | .usar h ty d a b => Sys2Proof.Machine.execUsar h ty d a b s
  | .usarImm h ty d a imm => Sys2Proof.Machine.execUsarImm h ty d a imm s
  | .uand h ty na nb d a b => Sys2Proof.Machine.execUand h ty na nb d a b s
  | .uandImm h ty d a imm => Sys2Proof.Machine.execUandImm h ty d a imm s
  | .uor h ty na nb d a b => Sys2Proof.Machine.execUor h ty na nb d a b s
  | .uorImm h ty d a imm => Sys2Proof.Machine.execUorImm h ty d a imm s
  | .uxor h ty na nb d a b => Sys2Proof.Machine.execUxor h ty na nb d a b s
  | .uxorImm h ty d a imm => Sys2Proof.Machine.execUxorImm h ty d a imm s
  | .ucmp h ty cmp pd a b => Sys2Proof.Machine.execUcmp h ty cmp pd a b s
  | .ucmpImm h ty cmp pd a imm => Sys2Proof.Machine.execUcmpImm h ty cmp pd a imm s
  | .ulea h ty sh d a b => Sys2Proof.Machine.execUlea h ty sh d a b s
  | .uleaImm h ty sh d a imm => Sys2Proof.Machine.execUleaImm h ty sh d a imm s
  | .plut3 h lut na nb nc pd pa pb pc => Sys2Proof.Machine.execPlut3 h lut na nb nc pd pa pb pc s
  | .pmovTov h na d pa => Sys2Proof.Machine.execPmovTov h na d pa s
  | .pmovFromv h pd a => Sys2Proof.Machine.execPmovFromv h pd a s
  | .pmovSave h d => Sys2Proof.Machine.execPmovSave h d s
  | .pmovLoad h a => Sys2Proof.Machine.execPmovLoad h a s
  | .vote h mode na pd pa => Sys2Proof.Machine.execVote h mode na pd pa s
  | .ballot h na d pa => Sys2Proof.Machine.execBallot h na d pa s
  | .lget h mode g ty pd d a b => Sys2Proof.Machine.execLget h mode g ty pd d a b s
  | .pswap h ln neglo ty d a => Sys2Proof.Machine.execPswap h ln neglo ty d a s
  | .matchv h ty pd d a => Sys2Proof.Machine.execMatchv h ty pd d a s
  | .lred h op rm ty d a => Sys2Proof.Machine.execLred h op rm ty d a s
  | .scan h op excl rm ty d a => Sys2Proof.Machine.execScan h op excl rm ty d a s
  | .readl h ty d a b => Sys2Proof.Machine.execReadl h ty d a b s
  | .readlFirst h ty d a => Sys2Proof.Machine.execReadlFirst h ty d a s
  | .fadd h ty rm sat na nb d a b => Sys2Proof.Machine.execFadd h ty rm sat na nb d a b s
  | .faddImm h ty rm sat d a imm => Sys2Proof.Machine.execFaddImm h ty rm sat d a imm s
  | .fmul h ty rm sat na nb d a b => Sys2Proof.Machine.execFmul h ty rm sat na nb d a b s
  | .fmulImm h ty rm sat d a imm => Sys2Proof.Machine.execFmulImm h ty rm sat d a imm s
  | .ffma h ty rm sat na nb nc d a b c => Sys2Proof.Machine.execFfma h ty rm sat na nb nc d a b c s
  | .ffmaImm h ty rm sat d a imm => Sys2Proof.Machine.execFfmaImm h ty rm sat d a imm s
  | .fmin h ty na nb d a b => Sys2Proof.Machine.execFmin h ty na nb d a b s
  | .fminImm h ty d a imm => Sys2Proof.Machine.execFminImm h ty d a imm s
  | .fmax h ty na nb d a b => Sys2Proof.Machine.execFmax h ty na nb d a b s
  | .fmaxImm h ty d a imm => Sys2Proof.Machine.execFmaxImm h ty d a imm s
  | .fcmp h ty cmp na nb pd a b => Sys2Proof.Machine.execFcmp h ty cmp na nb pd a b s
  | .fcmpImm h ty cmp pd a imm => Sys2Proof.Machine.execFcmpImm h ty cmp pd a imm s
  | .fclass h ty d a => Sys2Proof.Machine.execFclass h ty d a s
  | .fclassTest h ty pd a b => Sys2Proof.Machine.execFclassTest h ty pd a b s
  | .frnd h ty rm d a => Sys2Proof.Machine.execFrnd h ty rm d a s
  | .ffrac h ty d a => Sys2Proof.Machine.execFfrac h ty d a s
  | .fscale h ty rm sat d a b => Sys2Proof.Machine.execFscale h ty rm sat d a b s
  | .cvt h ty sel sk rm sat d a => Sys2Proof.Machine.execCvt h ty sel sk rm sat d a s
  | .cvtq h tk sk rm sat d a b c => Sys2Proof.Machine.execCvtq h tk sk rm sat d a b c s
  | .dq h ty kind rm sat d a b c => Sys2Proof.Machine.execDq h ty kind rm sat d a b c s
  | .rcp h ty na d a => Sys2Proof.Machine.execRcp h ty na d a s
  | .rsq h ty na d a => Sys2Proof.Machine.execRsq h ty na d a s
  | .sqrt h ty rm na d a => Sys2Proof.Machine.execSqrt h ty rm na d a s
  | .exp2 h ty na d a => Sys2Proof.Machine.execExp2 h ty na d a s
  | .log2 h ty na d a => Sys2Proof.Machine.execLog2 h ty na d a s
  | .sinr h ty na d a => Sys2Proof.Machine.execSinr h ty na d a s
  | .cosr h ty na d a => Sys2Proof.Machine.execCosr h ty na d a s
  | .bra h u pr pnb disp rcv => Sys2Proof.Machine.execBra h u pr pnb disp rcv s
  | .brx h u vv pr pnb a rcv => Sys2Proof.Machine.execBrx h u vv pr pnb a rcv s
  | .call h disp => Sys2Proof.Machine.execCall h disp s
  | .callInd h a => Sys2Proof.Machine.execCallInd h a s
  | .ret h pr pnb => Sys2Proof.Machine.execRet h pr pnb s
  | .exit h => Sys2Proof.Machine.execExit h s
  | .breakp h pr pnb disp => Sys2Proof.Machine.execBreakp h pr pnb disp s
  | .movemRd h d => Sys2Proof.Machine.execMovemRd h d s
  | .movemWr h a => Sys2Proof.Machine.execMovemWr h a s
  | .bar h mode sc id n => Sys2Proof.Machine.execBar h mode sc id n s
  | .barg h mode sc id => Sys2Proof.Machine.execBarg h mode sc id s
  | .launch h pr a b => Sys2Proof.Machine.execLaunch h pr a b s
  | .cancel h lv => Sys2Proof.Machine.execCancel h lv s
  | .cancelId h lv a => Sys2Proof.Machine.execCancelId h lv a s
  | .yieldw h => Sys2Proof.Machine.execYieldw h s
  | .sleep h n => Sys2Proof.Machine.execSleep h n s
  | .sleepWatch h a n => Sys2Proof.Machine.execSleepWatch h a n s
  | .syscall h d a n => Sys2Proof.Machine.execSyscall h d a n s
  | .trap h n => Sys2Proof.Machine.execTrap h n s
  | .rett h => Sys2Proof.Machine.execRett h s
  | .idend h => Sys2Proof.Machine.execIdend h s
  | .time h src d => Sys2Proof.Machine.execTime h src d s
  | .movsr h idx d => Sys2Proof.Machine.execMovsr h idx d s
  | .setsr h idx a => Sys2Proof.Machine.execSetsr h idx a s
  | .ld h sp sz sc hint fe off d a => Sys2Proof.Machine.execLd h sp sz sc hint fe off d a s
  | .st h sp sz hint fe off a b => Sys2Proof.Machine.execSt h sp sz hint fe off a b s
  | .ldu h sp sz sc hint off d a => Sys2Proof.Machine.execLdu h sp sz sc hint off d a s
  | .atom h op sp sz sc off d a b => Sys2Proof.Machine.execAtom h op sp sz sc off d a b s
  | .cas h sp sz sc off d a b => Sys2Proof.Machine.execCas h sp sz sc off d a b s
  | .red h op sp sz sc off a b => Sys2Proof.Machine.execRed h op sp sz sc off a b s
  | .fence h mode sc => Sys2Proof.Machine.execFence h mode sc s
  | .pref h sp hint l1 off a => Sys2Proof.Machine.execPref h sp hint l1 off a s
  | .cflush h sp off a => Sys2Proof.Machine.execCflush h sp off a s
  | .cinv h sp sc off a => Sys2Proof.Machine.execCinv h sp sc off a s
  | .space h d a => Sys2Proof.Machine.execSpace h d a s
  | .cvta h from_ sp d a => Sys2Proof.Machine.execCvta h from_ sp d a s
  | .gwin h d a b => Sys2Proof.Machine.execGwin h d a b s
  | .gwinSelf h d b => Sys2Proof.Machine.execGwinSelf h d b s
  | .spfe h mode n d a => Sys2Proof.Machine.execSpfe h mode n d a s
  | .hflush h sp off a => Sys2Proof.Machine.execHflush h sp off a s
  | .ownreq h proc k a => Sys2Proof.Machine.execOwnreq h proc k a s
  | .frz h sc k d a b => Sys2Proof.Machine.execFrz h sc k d a b s
  | .thaw h k a => Sys2Proof.Machine.execThaw h k a s
  | .frzq h d a => Sys2Proof.Machine.execFrzq h d a s
  | .rbegin h d a => Sys2Proof.Machine.execRbegin h d a s
  | .rcommit h => Sys2Proof.Machine.execRcommit h s
  | .strbIn h port packed hint e a b => Sys2Proof.Machine.execStrbIn h port packed hint e a b s
  | .strbOut h port packed k hint a b => Sys2Proof.Machine.execStrbOut h port packed k hint a b s
  | .strbQin h port w64 e pw pp => Sys2Proof.Machine.execStrbQin h port w64 e pw pp s
  | .strbQout h port w64 pw pp => Sys2Proof.Machine.execStrbQout h port w64 pw pp s
  | .strstat h port d => Sys2Proof.Machine.execStrstat h port d s
  | .strflush h port => Sys2Proof.Machine.execStrflush h port s
  | .strclose h port => Sys2Proof.Machine.execStrclose h port s
  | .copy h scatter sg hint k d a b => Sys2Proof.Machine.execCopy h scatter sg hint k d a b s
  | .copyg h sg hint k d a b => Sys2Proof.Machine.execCopyg h sg hint k d a b s
  | .copygSlot h slot side sg hint k off a b => Sys2Proof.Machine.execCopygSlot h slot side sg hint k off a b s
  | .copym h slot side fol sg hint k off a b => Sys2Proof.Machine.execCopym h slot side fol sg hint k off a b s
  | .waitk h mask => Sys2Proof.Machine.execWaitk h mask s
  | .kadd h k a => Sys2Proof.Machine.execKadd h k a s
  | .kaddImm h k imm => Sys2Proof.Machine.execKaddImm h k imm s
  | .rowcpy h k d a c => Sys2Proof.Machine.execRowcpy h k d a c s
  | .rowzero h k d c => Sys2Proof.Machine.execRowzero h k d c s
  | .rank h kind n k d a b => Sys2Proof.Machine.execRank h kind n k d a b s
  | .route h pd d a b c => Sys2Proof.Machine.execRoute h pd d a b c s
  | .tgen h t k d a b c => Sys2Proof.Machine.execTgen h t k d a b c s
  | .claimo h o n1 => Sys2Proof.Machine.execClaimo h o n1 s
  | .relo h o n1 => Sys2Proof.Machine.execRelo h o n1 s
  | .claima h t n1 => Sys2Proof.Machine.execClaima h t n1 s
  | .rela h t n1 => Sys2Proof.Machine.execRela h t n1 s
  | .mma h z hk sg fs t oa ob k => Sys2Proof.Machine.execMma h z hk sg fs t oa ob k s
  | .mmas h z hk sg fs t oa ob om k => Sys2Proof.Machine.execMmas h z hk sg fs t oa ob om k s
  | .accz h t => Sys2Proof.Machine.execAccz h t s
  | .accld h t k d a => Sys2Proof.Machine.execAccld h t k d a s
  | .accst h t k d a => Sys2Proof.Machine.execAccst h t k d a s
  | .accred h ord i32 t k d a => Sys2Proof.Machine.execAccred h ord i32 t k d a s
  | .accrd h t n1 d a => Sys2Proof.Machine.execAccrd h t n1 d a s
  | .slotwr h side o d a => Sys2Proof.Machine.execSlotwr h side o d a s
  | .slotrd h side o d a => Sys2Proof.Machine.execSlotrd h side o d a s
  | .quadrantIssue core quad => Sys2Proof.Machine.execQuadrantIssue core quad s
  | .fixedLatencyWriteback core slot n => Sys2Proof.Machine.execFixedLatencyWriteback core slot n s
  | .variableResultDone core slot e => Sys2Proof.Machine.execVariableResultDone core slot e s
  | .sleepWake core slot => Sys2Proof.Machine.execSleepWake core slot s
  | .yieldExpire core slot => Sys2Proof.Machine.execYieldExpire core slot s
  | .warpSlotFree core slot => Sys2Proof.Machine.execWarpSlotFree core slot s
  | .trapEntry core slot path cause fault => Sys2Proof.Machine.execTrapEntry core slot path cause fault s
  | .impreciseFaultTaken core slot => Sys2Proof.Machine.execImpreciseFaultTaken core slot s
  | .pendingFaultTimeout core slot n => Sys2Proof.Machine.execPendingFaultTimeout core slot n s
  | .remoteRollback core slot => Sys2Proof.Machine.execRemoteRollback core slot s
  | .pageWalk part va => Sys2Proof.Machine.execPageWalk part va s
  | .engineWriteLands id blk => Sys2Proof.Machine.execEngineWriteLands id blk s
  | .copyBlockFetch id blk => Sys2Proof.Machine.execCopyBlockFetch id blk s
  | .copyLateFault id blk => Sys2Proof.Machine.execCopyLateFault id blk s
  | .followOnHandoff id => Sys2Proof.Machine.execFollowOnHandoff id s
  | .rowBlockWritten id blk => Sys2Proof.Machine.execRowBlockWritten id blk s
  | .rowSourceWriteback id => Sys2Proof.Machine.execRowSourceWriteback id s
  | .rankRowWritten id row => Sys2Proof.Machine.execRankRowWritten id row s
  | .tgenDone id => Sys2Proof.Machine.execTgenDone id s
  | .anvilOpStart core kind => Sys2Proof.Machine.execAnvilOpStart core kind s
  | .anvilOpComplete id => Sys2Proof.Machine.execAnvilOpComplete id s
  | .accredContributionArrive id piece => Sys2Proof.Machine.execAccredContributionArrive id piece s
  | .accredRoomFreed id piece => Sys2Proof.Machine.execAccredRoomFreed id piece s
  | .tongsPrefetch core slot port pos => Sys2Proof.Machine.execTongsPrefetch core slot port pos s
  | .streamBeatWrite id => Sys2Proof.Machine.execStreamBeatWrite id s
  | .queueBeatSend core slot port => Sys2Proof.Machine.execQueueBeatSend core slot port s
  | .freezeInstall e => Sys2Proof.Machine.execFreezeInstall e s
  | .generationRetirement home e gen sc => Sys2Proof.Machine.execGenerationRetirement home e gen sc s
  | .retirementAck e rank => Sys2Proof.Machine.execRetirementAck e rank s
  | .thawOverdue e => Sys2Proof.Machine.execThawOverdue e s
  | .launchQueueFront q => Sys2Proof.Machine.execLaunchQueueFront q s
  | .launchDispatch => Sys2Proof.Machine.execLaunchDispatch s
  | .dispatchReservation q => Sys2Proof.Machine.execDispatchReservation q s
  | .workgroupEnd wg => Sys2Proof.Machine.execWorkgroupEnd wg s
  | .launchComplete l => Sys2Proof.Machine.execLaunchComplete l s
  | .timeLimitExpiry l => Sys2Proof.Machine.execTimeLimitExpiry l s
  | .preemptRequest part value => Sys2Proof.Machine.execPreemptRequest part value s
  | .contextSave wg => Sys2Proof.Machine.execContextSave wg s
  | .contextRestore wg => Sys2Proof.Machine.execContextRestore wg s
  | .syscallServiceRun wg => Sys2Proof.Machine.execSyscallServiceRun wg s
  | .serviceDone seq status => Sys2Proof.Machine.execServiceDone seq status s
  | .serviceTimeout seq => Sys2Proof.Machine.execServiceTimeout seq s
  | .tlbInvalidate asid va len => Sys2Proof.Machine.execTlbInvalidate asid va len s
  | .cancelLaunchCmd lid => Sys2Proof.Machine.execCancelLaunchCmd lid s
  | .setJobWindow lw => Sys2Proof.Machine.execSetJobWindow lw s
  | .hostCopy toHost addr data => Sys2Proof.Machine.execHostCopy toHost addr data s
  | .unknownCommand code => Sys2Proof.Machine.execUnknownCommand code s
  | .cxlMemAccess addr data len => Sys2Proof.Machine.execCxlMemAccess addr data len s
  | .hostCwinAccess off data len keep => Sys2Proof.Machine.execHostCwinAccess off data len keep s
  | .ownershipTransfer region merge => Sys2Proof.Machine.execOwnershipTransfer region merge s
  | .tenureExpiry region => Sys2Proof.Machine.execTenureExpiry region s
  | .backinvTimeout region => Sys2Proof.Machine.execBackinvTimeout region s
  | .hostLinkDown down => Sys2Proof.Machine.execHostLinkDown down s
  | .podFlitReceive peer flit => Sys2Proof.Machine.execPodFlitReceive peer flit s
  | .podAckTimer peer => Sys2Proof.Machine.execPodAckTimer peer s
  | .podNackTimer peer => Sys2Proof.Machine.execPodNackTimer peer s
  | .podResendTimer peer seq => Sys2Proof.Machine.execPodResendTimer peer seq s
  | .planeDark planes pair laser => Sys2Proof.Machine.execPlaneDark planes pair laser s
  | .linkSummarySend => Sys2Proof.Machine.execLinkSummarySend s
  | .jobPacketReceive pkt => Sys2Proof.Machine.execJobPacketReceive pkt s
  | .jobCompletionReceive tag done => Sys2Proof.Machine.execJobCompletionReceive tag done s
  | .jobRetransmitTimer tag idx dropped => Sys2Proof.Machine.execJobRetransmitTimer tag idx dropped s
  | .landingCounterDeadline rank tag gen => Sys2Proof.Machine.execLandingCounterDeadline rank tag gen s
  | .ethernetPortDown port => Sys2Proof.Machine.execEthernetPortDown port s
  | .windowBoundary => Sys2Proof.Machine.execWindowBoundary s
  | .ptpSync offset => Sys2Proof.Machine.execPtpSync offset s
  | .preciseTimeLoss => Sys2Proof.Machine.execPreciseTimeLoss s
  | .channelCounterSnapshot => Sys2Proof.Machine.execChannelCounterSnapshot s
  | .unitFence unit => Sys2Proof.Machine.execUnitFence unit s
  | .thermalThrottle sensed => Sys2Proof.Machine.execThermalThrottle sensed s
  | .thermalTrip hearth => Sys2Proof.Machine.execThermalTrip hearth s
  | .supplyFault cores => Sys2Proof.Machine.execSupplyFault cores s
  | .watchdogExpiry part => Sys2Proof.Machine.execWatchdogExpiry part s
  | .coldReset boot => Sys2Proof.Machine.execColdReset boot s
  | .spdmRequest req => Sys2Proof.Machine.execSpdmRequest req s
  | .warmReset => Sys2Proof.Machine.execWarmReset s
  | .partitionReset part => Sys2Proof.Machine.execPartitionReset part s
  | .partitionEnable part value => Sys2Proof.Machine.execPartitionEnable part value s
  | .devstatErrClear => Sys2Proof.Machine.execDevstatErrClear s
  | .rtinvWrite value => Sys2Proof.Machine.execRtinvWrite value s
  | .planeenWrite value clean => Sys2Proof.Machine.execPlaneenWrite value clean s
  | .quiesceWrite on => Sys2Proof.Machine.execQuiesceWrite on s
  | .qdoorPush q addr => Sys2Proof.Machine.execQdoorPush q addr s
  | .queueClose q => Sys2Proof.Machine.execQueueClose q s
  | .intmaskWrite part value => Sys2Proof.Machine.execIntmaskWrite part value s
  | .intstatClear part value => Sys2Proof.Machine.execIntstatClear part value s
  | .logringEnable part value => Sys2Proof.Machine.execLogringEnable part value s
  | .registerWrite off value => Sys2Proof.Machine.execRegisterWrite off value s
  | .jobResponseReceive resp => Sys2Proof.Machine.execJobResponseReceive resp s
  | .podFlitSend peer => Sys2Proof.Machine.execPodFlitSend peer s
  | .warmResetRetirementTimeout => Sys2Proof.Machine.execWarmResetRetirementTimeout s

end Sys2Proof.Machine
end

