-- ==== Sys2Proof/Machine/Place.lean ====
section
/-! DEFINITION. Placing one instruction where a warp fetches: the page tables, the line and the warp that `State.withFetchWord` sets
up (log 8). -/
namespace Sys2Proof.Machine

/-- The slot address at which `placed` puts an instruction: the first slot of the line at virtual address 0x4_0000. -/
def placeSlot : DWord := 20480

/-- A line whose slot 0 holds a word and is a branch target (R69, R72), with its parity (R76). -/
def placeLine (w : Nat) : List Byte :=
  let bs := leBytes 12 w ++ List.replicate 48 0 ++ [1, 0, 0]
  bs ++ [BitVec.ofNat 8 ((List.range 8).foldl (fun n j => if parBit bs j then n + 2 ^ j else n) 0)]

/-- A page table whose first leaf maps the low 2 MiB to HBM4E offset 0x20_0000, readable, writable and executable (R264, R265). -/
def placeTables (m : Store 8) : Store 8 :=
  let at_ := fun (m : Store 8) (off e : Nat) => Store.setN m (hbmLoc 0 off) (leBytes 8 e)
  at_ (at_ (at_ (at_ m 0x1000 0x2001) 0x2000 0x3001) 0x3000 0x4001) 0x4000 0x20001F

/-- Kernel limits that allow every operand (R63). -/
def placeKernel : Kernel :=
  { Kernel.blank with entry := placeSlot, handler := placeSlot, vregs := 240, sregs := 128, scratch := 2 ^ 20, oslots := 64, atiles := 16, ports := 0xFF }

/-- The warp that runs from the placed slot: a fresh warp (R39), standing at a branch target. -/
def placeWarp (w : Warp) : Warp :=
  { w with
    status := .running
    base := { Path.blank with pc := placeSlot, mask := Mask.full, creation := Mask.full, arr := some 0 }
    stack := [], spilled := 0, issuing := 0, trapMode := false, exited := 0, hold := .none, fence := none
    pendFaults := [], sb := Vector.replicate 7 0, second := false, altCount := 0 }

/-- The state with an instruction word placed where the focused warp of partition 0 fetches next. -/
def placed (s : State) (w : Nat) : State :=
  let m := Store.setN (placeTables s.mem.mem) (hbmLoc 0 0x240000) (placeLine w)
  let p := s.part 0
  { s with
    agenda := [], turn := none, due := none
    cur := { placeWarp s.cur with wg := s.wg.key }
    wg := { s.wg with status := .resident, part := 0, core := s.cur.id.core, kern := placeKernel }
    warps := s.warps.filter (fun w => !(w.running && w.id.core == s.cur.id.core && w.id.slot / 16 == s.cur.id.slot / 16))
    mem := { s.mem with mem := m, tlb := [], own := [], poison := [] }
    mgmt := { s.mgmt with parts := s.mgmt.parts.setIfInBounds 0 { p with enable := true, disable := 0, ptroot := 0x1001 }
                          fencedChan := 0, comparators := Vector.replicate 8 none } }

end Sys2Proof.Machine
end

