-- ==== Sys2Proof/Machine/Step.lean ====
section
/-! DEFINITION. The step: the next entry of the agenda, or a cycle of the focused quadrant (log 1); and placing an instruction for
the next step to fetch (log 8). -/
namespace Sys2Proof.Machine

/-- Execute one instruction or event, and what follows it. -/
def after (i : Instr) (s : State) : Host.Outcome State Fault Refusal :=
  match exec i s with
  | .next t => .next (if (hdrOf i).isSome then s.afterInstr exec i t else t)
  | .fault r => .fault r
  | .refused r => .refused r

/-- A cycle of a quadrant: the chosen warp's instruction, if any, is executed (R240, R241). -/
def cycle (core quad : Nat) (s : State) : Host.Outcome State Fault Refusal :=
  match s.issue exec core quad with
  | (t, none) => .next t
  | (t, some i) => after i t

/-- One step: the cycle of a quadrant that is due; otherwise what stands first on the agenda; with an empty agenda the quadrant of the focused
warp has a cycle. -/
def step (s : State) : Host.Outcome State Fault Refusal :=
  match s.due, s.agenda with
  | some (core, quad), _ => cycle core quad { s with due := none }
  | none, i :: rest => after i { s with agenda := rest }
  | none, [] => cycle s.cur.id.core (s.cur.id.slot / 16) s

/-- The state with an instruction stored where the next step fetches it. -/
def State.withFetchWord (s : State) (nbits w : Nat) : State := placed s (w % 2 ^ nbits)

end Sys2Proof.Machine
end

