-- ==== Sys2Proof/Machine/Shapes.lean ====
section
/-! DEFINITION. The computations in one table: for each instruction that computes one result from its operands, lane by lane or once for
the warp, its sources with their register counts, its destination, its latency (R81, R99, R112) and its result. -/
namespace Sys2Proof.Machine

/-- A vector computation: sources, destination with its number of registers, latency, and the result of a lane. -/
structure VecShape where
  srcs : List (Opd × Nat)
  d : Opd
  n : Nat
  lat : Nat
  val : Nat → List DWord → DWord

/-- A vector test: sources, destination predicate, latency, and the outcome of a lane. -/
structure TestShape where
  srcs : List (Opd × Nat)
  pd : Nat
  lat : Nat
  val : Nat → List DWord → Bool

/-- A uniform computation (R112, R113): sources, destination with its number of registers, and the result. -/
structure UniShape where
  srcs : List (Opd × Nat)
  d : Opd
  n : Nat
  val : List DWord → DWord

/-- A uniform test (R112): sources, destination predicate, and the outcome. -/
structure UniTestShape where
  srcs : List (Opd × Nat)
  pd : Nat
  val : List DWord → Bool

/-- The vector computations (R99–R111, R124–R139). -/
def vecShape : Instr → Option VecShape
  | .mov _ ty d a => some ⟨[(a, (tyRegs ty))], d, (tyRegs ty), 4, fun _ x => extend ty (pat (tyBits ty) (arg x 0))⟩
  | .movImm _ ty d imm => some ⟨[], d, (tyRegs ty), 4, fun _ _ => extend ty (pat (tyBits ty) (immVal ty imm))⟩
  | .iadd _ ty sat na nb d a b => some ⟨[(a, (tyRegs ty)), (b, (tyRegs ty))], d, (tyRegs ty), 4, fun _ x => aluAdd ty sat na nb (arg x 0) (arg x 1)⟩
  | .iaddImm _ ty sat d a imm => some ⟨[(a, (tyRegs ty))], d, (tyRegs ty), 4, fun _ x => aluAdd ty sat false false (arg x 0) (immVal ty imm)⟩
  | .isub _ ty sat d a b => some ⟨[(a, (tyRegs ty)), (b, (tyRegs ty))], d, (tyRegs ty), 4, fun _ x => aluSub ty sat (arg x 0) (arg x 1)⟩
  | .isubImm _ ty sat d a imm => some ⟨[(a, (tyRegs ty))], d, (tyRegs ty), 4, fun _ x => aluSub ty sat (arg x 0) (immVal ty imm)⟩
  | .imul _ ty sat d a b => some ⟨[(a, (tyRegs ty)), (b, (tyRegs ty))], d, (tyRegs ty), (if Ty.wide ty then 12 else 6), fun _ x => aluMul ty sat (arg x 0) (arg x 1)⟩
  | .imulImm _ ty sat d a imm => some ⟨[(a, (tyRegs ty))], d, (tyRegs ty), (if Ty.wide ty then 12 else 6), fun _ x => aluMul ty sat (arg x 0) (immVal ty imm)⟩
  | .imulh _ ty d a b => some ⟨[(a, (tyRegs ty)), (b, (tyRegs ty))], d, (tyRegs ty), (if Ty.wide ty then 12 else 6), fun _ x => aluMulh ty (arg x 0) (arg x 1)⟩
  | .imulhImm _ ty d a imm => some ⟨[(a, (tyRegs ty))], d, (tyRegs ty), (if Ty.wide ty then 12 else 6), fun _ x => aluMulh ty (arg x 0) (immVal ty imm)⟩
  | .imad _ ty sat nc d a b c => some ⟨[(a, (tyRegs ty)), (b, (tyRegs ty)), (c, (tyRegs ty))], d, (tyRegs ty), (if Ty.wide ty then 12 else 6), fun _ x => aluMad ty sat nc (arg x 0) (arg x 1) (arg x 2)⟩
  | .imadImm _ ty sat d a imm => some ⟨[(a, (tyRegs ty)), (d, (tyRegs ty))], d, (tyRegs ty), (if Ty.wide ty then 12 else 6), fun _ x => aluMad ty sat false (arg x 0) (immVal ty imm) (arg x 1)⟩
  | .imadw _ ty sat d a b c => some ⟨[(a, 1), (b, 1), (c, 2)], d, 2, (if Ty.wide ty then 12 else 6), fun _ x => aluMadw ty sat (arg x 0) (arg x 1) (arg x 2)⟩
  | .imadwImm _ ty sat d a imm => some ⟨[(a, 1), (d, 2)], d, 2, (if Ty.wide ty then 12 else 6), fun _ x => aluMadw ty sat (arg x 0) (immVal32 imm) (arg x 1)⟩
  | .imin _ ty d a b => some ⟨[(a, (tyRegs ty)), (b, (tyRegs ty))], d, (tyRegs ty), 4, fun _ x => aluMinMax ty false (arg x 0) (arg x 1)⟩
  | .iminImm _ ty d a imm => some ⟨[(a, (tyRegs ty))], d, (tyRegs ty), 4, fun _ x => aluMinMax ty false (arg x 0) (immVal ty imm)⟩
  | .imax _ ty d a b => some ⟨[(a, (tyRegs ty)), (b, (tyRegs ty))], d, (tyRegs ty), 4, fun _ x => aluMinMax ty true (arg x 0) (arg x 1)⟩
  | .imaxImm _ ty d a imm => some ⟨[(a, (tyRegs ty))], d, (tyRegs ty), 4, fun _ x => aluMinMax ty true (arg x 0) (immVal ty imm)⟩
  | .iabs _ ty sat d a => some ⟨[(a, (tyRegs ty))], d, (tyRegs ty), 4, fun _ x => aluAbs ty sat (arg x 0)⟩
  | .iabsImm _ ty sat d imm => some ⟨[], d, (tyRegs ty), 4, fun _ _ => aluAbs ty sat (immVal ty imm)⟩
  | .shl _ ty sat d a b => some ⟨[(a, (tyRegs ty)), (b, 1)], d, (tyRegs ty), 4, fun _ x => aluShl ty sat (arg x 0) (arg x 1)⟩
  | .shlImm _ ty sat d a imm => some ⟨[(a, (tyRegs ty))], d, (tyRegs ty), 4, fun _ x => aluShl ty sat (arg x 0) (immVal32 imm)⟩
  | .shr _ ty d a b => some ⟨[(a, (tyRegs ty)), (b, 1)], d, (tyRegs ty), 4, fun _ x => aluShr ty (arg x 0) (arg x 1)⟩
  | .shrImm _ ty d a imm => some ⟨[(a, (tyRegs ty))], d, (tyRegs ty), 4, fun _ x => aluShr ty (arg x 0) (immVal32 imm)⟩
  | .sar _ ty d a b => some ⟨[(a, (tyRegs ty)), (b, 1)], d, (tyRegs ty), 4, fun _ x => aluSar ty (arg x 0) (arg x 1)⟩
  | .sarImm _ ty d a imm => some ⟨[(a, (tyRegs ty))], d, (tyRegs ty), 4, fun _ x => aluSar ty (arg x 0) (immVal32 imm)⟩
  | .and _ ty na nb d a b => some ⟨[(a, (tyRegs ty)), (b, (tyRegs ty))], d, (tyRegs ty), 4, fun _ x => aluBit .and ty na nb (arg x 0) (arg x 1)⟩
  | .andImm _ ty d a imm => some ⟨[(a, (tyRegs ty))], d, (tyRegs ty), 4, fun _ x => aluBit .and ty false false (arg x 0) (immVal ty imm)⟩
  | .or _ ty na nb d a b => some ⟨[(a, (tyRegs ty)), (b, (tyRegs ty))], d, (tyRegs ty), 4, fun _ x => aluBit .or ty na nb (arg x 0) (arg x 1)⟩
  | .orImm _ ty d a imm => some ⟨[(a, (tyRegs ty))], d, (tyRegs ty), 4, fun _ x => aluBit .or ty false false (arg x 0) (immVal ty imm)⟩
  | .xor _ ty na nb d a b => some ⟨[(a, (tyRegs ty)), (b, (tyRegs ty))], d, (tyRegs ty), 4, fun _ x => aluBit .xor ty na nb (arg x 0) (arg x 1)⟩
  | .xorImm _ ty d a imm => some ⟨[(a, (tyRegs ty))], d, (tyRegs ty), 4, fun _ x => aluBit .xor ty false false (arg x 0) (immVal ty imm)⟩
  | .lut3 _ ty lut d a b c => some ⟨[(a, (tyRegs ty)), (b, (tyRegs ty)), (c, (tyRegs ty))], d, (tyRegs ty), 4, fun _ x => aluLut lut ty (arg x 0) (arg x 1) (arg x 2)⟩
  | .lut3Imm _ ty lutLo lutHi d a imm => some ⟨[(a, (tyRegs ty)), (d, (tyRegs ty))], d, (tyRegs ty), 4, fun _ x => aluLut (lutHi ++ lutLo) ty (arg x 0) (immVal ty imm) (arg x 1)⟩
  | .popc _ ty d a => some ⟨[(a, (tyRegs ty))], d, 1, 4, fun _ x => aluPopc ty (arg x 0)⟩
  | .clz _ ty d a => some ⟨[(a, (tyRegs ty))], d, 1, 4, fun _ x => aluClz ty (arg x 0)⟩
  | .bfe _ ty d a b => some ⟨[(a, (tyRegs ty)), (b, 1)], d, (tyRegs ty), 4, fun _ x => aluBfe ty (arg x 0) (arg x 1)⟩
  | .bfeImm _ ty d a imm => some ⟨[(a, (tyRegs ty))], d, (tyRegs ty), 4, fun _ x => aluBfe ty (arg x 0) (immVal32 imm)⟩
  | .bfi _ ty d a b c => some ⟨[(a, (tyRegs ty)), (b, 1), (c, (tyRegs ty))], d, (tyRegs ty), 4, fun _ x => aluBfi ty (arg x 0) (arg x 1) (arg x 2)⟩
  | .bfiImm _ ty d a imm => some ⟨[(a, (tyRegs ty)), (d, (tyRegs ty))], d, (tyRegs ty), 4, fun _ x => aluBfi ty (arg x 0) (immVal32 imm) (arg x 1)⟩
  | .bpick _ d a b c => some ⟨[(a, 1), (b, 1), (c, 1)], d, 1, 4, fun _ x => aluBpick (arg x 0) (arg x 1) (arg x 2)⟩
  | .bpickImm _ d a imm => some ⟨[(a, 1), (d, 1)], d, 1, 4, fun _ x => aluBpick (arg x 0) (immVal32 imm) (arg x 1)⟩
  | .lea _ ty sh d a b => some ⟨[(a, 1), (b, (tyRegs ty))], d, (tyRegs ty), 4, fun _ x => aluLea ty sh (arg x 0) (arg x 1)⟩
  | .leaImm _ ty sh d a imm => some ⟨[(a, 1)], d, (tyRegs ty), 4, fun _ x => aluLea ty sh (arg x 0) (immVal ty imm)⟩
  | .idot4 _ ty sat sgA sgB d a b c => some ⟨[(a, 1), (b, 1), (c, 1)], d, 1, (if Ty.wide ty then 12 else 6), fun _ x => aluDot ty sat sgA sgB (arg x 0) (arg x 1) (arg x 2)⟩
  | .fadd _ ty rm sat na nb d a b => some ⟨[(a, tyRegs ty), (b, tyRegs ty)], d, (tyRegs ty), (if ty = .f64 then 12 else 6), fun _ x => onElems ty [na, nb] (fun f y => fAdd f rm sat (num y 0) (num y 1)) [arg x 0, arg x 1]⟩
  | .faddImm _ ty rm sat d a imm => some ⟨[(a, tyRegs ty)], d, (tyRegs ty), (if ty = .f64 then 12 else 6), fun _ x => onElems ty [false, false] (fun f y => fAdd f rm sat (num y 0) (num y 1)) [arg x 0, immVal ty imm]⟩
  | .fmul _ ty rm sat na nb d a b => some ⟨[(a, tyRegs ty), (b, tyRegs ty)], d, (tyRegs ty), (if ty = .f64 then 12 else 6), fun _ x => onElems ty [na, nb] (fun f y => fMul f rm sat (num y 0) (num y 1)) [arg x 0, arg x 1]⟩
  | .fmulImm _ ty rm sat d a imm => some ⟨[(a, tyRegs ty)], d, (tyRegs ty), (if ty = .f64 then 12 else 6), fun _ x => onElems ty [false, false] (fun f y => fMul f rm sat (num y 0) (num y 1)) [arg x 0, immVal ty imm]⟩
  | .ffma _ ty rm sat na nb nc d a b c => some ⟨[(a, tyRegs ty), (b, tyRegs ty), (c, tyRegs ty)], d, (tyRegs ty), (if ty = .f64 then 12 else 6), fun _ x => onElems ty [na, nb, nc] (fun f y => fFma f rm sat (num y 0) (num y 1) (num y 2)) [arg x 0, arg x 1, arg x 2]⟩
  | .ffmaImm _ ty rm sat d a imm => some ⟨[(a, tyRegs ty), (d, tyRegs ty)], d, (tyRegs ty), (if ty = .f64 then 12 else 6), fun _ x => onElems ty [false, false, false] (fun f y => fFma f rm sat (num y 0) (num y 1) (num y 2)) [arg x 0, immVal ty imm, arg x 1]⟩
  | .fmin _ ty na nb d a b => some ⟨[(a, tyRegs ty), (b, tyRegs ty)], d, (tyRegs ty), (if ty = .f64 then 12 else 6), fun _ x => onElems ty [na, nb] (fun f y => fMinMax f false (num y 0) (num y 1)) [arg x 0, arg x 1]⟩
  | .fminImm _ ty d a imm => some ⟨[(a, tyRegs ty)], d, (tyRegs ty), (if ty = .f64 then 12 else 6), fun _ x => onElems ty [false, false] (fun f y => fMinMax f false (num y 0) (num y 1)) [arg x 0, immVal ty imm]⟩
  | .fmax _ ty na nb d a b => some ⟨[(a, tyRegs ty), (b, tyRegs ty)], d, (tyRegs ty), (if ty = .f64 then 12 else 6), fun _ x => onElems ty [na, nb] (fun f y => fMinMax f true (num y 0) (num y 1)) [arg x 0, arg x 1]⟩
  | .fmaxImm _ ty d a imm => some ⟨[(a, tyRegs ty)], d, (tyRegs ty), (if ty = .f64 then 12 else 6), fun _ x => onElems ty [false, false] (fun f y => fMinMax f true (num y 0) (num y 1)) [arg x 0, immVal ty imm]⟩
  | .fclass _ ty d a => some ⟨[(a, tyRegs ty)], d, 1, (if ty = .f64 then 12 else 6), fun _ x => BitVec.ofNat 64 (2 ^ fClass (fmtOf ty).1 (pat (tyBits ty) (arg x 0)))⟩
  | .frnd _ ty rm d a => some ⟨[(a, tyRegs ty)], d, (tyRegs ty), (if ty = .f64 then 12 else 6), fun _ x => onElems ty [false] (fun f y => fRnd f rm (num y 0)) [arg x 0]⟩
  | .ffrac _ ty d a => some ⟨[(a, tyRegs ty)], d, (tyRegs ty), (if ty = .f64 then 12 else 6), fun _ x => onElems ty [false] (fun f y => fFrac f (num y 0)) [arg x 0]⟩
  | .fscale _ ty rm sat d a b => some ⟨[(a, tyRegs ty), (b, 1)], d, (tyRegs ty), (if ty = .f64 then 12 else 6), fun _ x => onElems ty [false] (fun f y => fScale f rm sat (num y 0) (intVal .i32 (arg x 1))) [arg x 0]⟩
  | .cvtq _ tk sk rm sat d a b c => some ⟨([(a, tyRegs sk), (b, 1)] ++ (if tk.grouped then [(c, 1)] else [])), d, 1, (if sk = .f64 then 12 else 6), fun _ x => BitVec.ofNat 64 (cvtqOf tk (fmtOf sk).1 rm sat (pat (tyBits sk) (arg x 0)) (arg x 1).toNat (arg x 2).toNat)⟩
  | .dq _ ty kind rm sat d a b c => some ⟨([(a, 1), (b, 1)] ++ (if kind.grouped then [(c, 1)] else [])), d, (tyRegs ty), (if ty = .f64 then 12 else 6), fun _ x => BitVec.ofNat 64 ((fmtOf ty).1.round rm sat (dqOf kind (arg x 0).toNat (arg x 1).toNat (arg x 2).toNat))⟩
  | .rcp _ ty na d a => some ⟨[(a, tyRegs ty)], d, (tyRegs ty), (if ty = .f64 then 40 else 20), fun _ x => onElems ty [na] (fun f y => fSpecial 0x10D f (num y 0)) [arg x 0]⟩
  | .rsq _ ty na d a => some ⟨[(a, tyRegs ty)], d, (tyRegs ty), (if ty = .f64 then 40 else 20), fun _ x => onElems ty [na] (fun f y => fSpecial 0x10E f (num y 0)) [arg x 0]⟩
  | .sqrt _ ty rm na d a => some ⟨[(a, tyRegs ty)], d, (tyRegs ty), (if ty = .f64 then 40 else 20), fun _ x => onElems ty [na] (fun f y => fSqrt f rm (num y 0)) [arg x 0]⟩
  | .exp2 _ ty na d a => some ⟨[(a, tyRegs ty)], d, (tyRegs ty), (if ty = .f64 then 40 else 20), fun _ x => onElems ty [na] (fun f y => fSpecial 0x110 f (num y 0)) [arg x 0]⟩
  | .log2 _ ty na d a => some ⟨[(a, tyRegs ty)], d, (tyRegs ty), (if ty = .f64 then 40 else 20), fun _ x => onElems ty [na] (fun f y => fSpecial 0x111 f (num y 0)) [arg x 0]⟩
  | .sinr _ ty na d a => some ⟨[(a, tyRegs ty)], d, (tyRegs ty), (if ty = .f64 then 40 else 20), fun _ x => onElems ty [na] (fun f y => fSpecial 0x112 f (num y 0)) [arg x 0]⟩
  | .cosr _ ty na d a => some ⟨[(a, tyRegs ty)], d, (tyRegs ty), (if ty = .f64 then 40 else 20), fun _ x => onElems ty [na] (fun f y => fSpecial 0x113 f (num y 0)) [arg x 0]⟩
  | _ => none

/-- The vector tests (R106, R131). -/
def testShape : Instr → Option TestShape
  | .icmp _ ty cmp pd a b => some ⟨[(a, tyRegs ty), (b, tyRegs ty)], pd, 4, fun _ x => cmpInt cmp (intVal ty (arg x 0)) (intVal ty (arg x 1))⟩
  | .icmpImm _ ty cmp pd a imm => some ⟨[(a, tyRegs ty)], pd, 4, fun _ x => cmpInt cmp (intVal ty (arg x 0)) (intVal ty (immVal ty imm))⟩
  | .fcmp _ ty cmp na nb pd a b => some ⟨[(a, tyRegs ty), (b, tyRegs ty)], pd, (if ty = .f64 then 12 else 6), fun _ x => fCmp (fmtOf ty).1 cmp (fNeg (fmtOf ty).1 na (pat (tyBits ty) (arg x 0))) (fNeg (fmtOf ty).1 nb (pat (tyBits ty) (arg x 1)))⟩
  | .fcmpImm _ ty cmp pd a imm => some ⟨[(a, tyRegs ty)], pd, (if ty = .f64 then 12 else 6), fun _ x => fCmp (fmtOf ty).1 cmp (fNeg (fmtOf ty).1 false (pat (tyBits ty) (arg x 0))) (fNeg (fmtOf ty).1 false (pat (tyBits ty) (immVal ty imm)))⟩
  | .fclassTest _ ty pd a b => some ⟨[(a, tyRegs ty), (b, 1)], pd, (if ty = .f64 then 12 else 6), fun _ x => (arg x 1).getLsbD (fClass (fmtOf ty).1 (pat (tyBits ty) (arg x 0)))⟩
  | .pmovFromv _ pd a => some ⟨[(a, 1)], pd, 2, fun _ x => decide (pat 32 (arg x 0) ≠ 0)⟩
  | _ => none

/-- The uniform computations (R112, R113). -/
def uniShape : Instr → Option UniShape
  | .umov _ ty d a => some ⟨[(a, (tyRegs ty))], d, (tyRegs ty), fun x => extend ty (pat (tyBits ty) (arg x 0))⟩
  | .umovImm _ ty d imm => some ⟨[], d, (tyRegs ty), fun _ => extend ty (pat (tyBits ty) (immVal ty imm))⟩
  | .uadd _ ty sat na nb d a b => some ⟨[(a, (tyRegs ty)), (b, (tyRegs ty))], d, (tyRegs ty), fun x => aluAdd ty sat na nb (arg x 0) (arg x 1)⟩
  | .uaddImm _ ty sat d a imm => some ⟨[(a, (tyRegs ty))], d, (tyRegs ty), fun x => aluAdd ty sat false false (arg x 0) (immVal ty imm)⟩
  | .usub _ ty sat d a b => some ⟨[(a, (tyRegs ty)), (b, (tyRegs ty))], d, (tyRegs ty), fun x => aluSub ty sat (arg x 0) (arg x 1)⟩
  | .usubImm _ ty sat d a imm => some ⟨[(a, (tyRegs ty))], d, (tyRegs ty), fun x => aluSub ty sat (arg x 0) (immVal ty imm)⟩
  | .umul _ ty sat d a b => some ⟨[(a, (tyRegs ty)), (b, (tyRegs ty))], d, (tyRegs ty), fun x => aluMul ty sat (arg x 0) (arg x 1)⟩
  | .umulImm _ ty sat d a imm => some ⟨[(a, (tyRegs ty))], d, (tyRegs ty), fun x => aluMul ty sat (arg x 0) (immVal ty imm)⟩
  | .umad _ ty sat nc d a b c => some ⟨[(a, (tyRegs ty)), (b, (tyRegs ty)), (c, (tyRegs ty))], d, (tyRegs ty), fun x => aluMad ty sat nc (arg x 0) (arg x 1) (arg x 2)⟩
  | .umadImm _ ty sat d a imm => some ⟨[(a, (tyRegs ty)), (d, (tyRegs ty))], d, (tyRegs ty), fun x => aluMad ty sat false (arg x 0) (immVal ty imm) (arg x 1)⟩
  | .umin _ ty d a b => some ⟨[(a, (tyRegs ty)), (b, (tyRegs ty))], d, (tyRegs ty), fun x => aluMinMax ty false (arg x 0) (arg x 1)⟩
  | .uminImm _ ty d a imm => some ⟨[(a, (tyRegs ty))], d, (tyRegs ty), fun x => aluMinMax ty false (arg x 0) (immVal ty imm)⟩
  | .umax _ ty d a b => some ⟨[(a, (tyRegs ty)), (b, (tyRegs ty))], d, (tyRegs ty), fun x => aluMinMax ty true (arg x 0) (arg x 1)⟩
  | .umaxImm _ ty d a imm => some ⟨[(a, (tyRegs ty))], d, (tyRegs ty), fun x => aluMinMax ty true (arg x 0) (immVal ty imm)⟩
  | .ushl _ ty sat d a b => some ⟨[(a, (tyRegs ty)), (b, 1)], d, (tyRegs ty), fun x => aluShl ty sat (arg x 0) (arg x 1)⟩
  | .ushlImm _ ty sat d a imm => some ⟨[(a, (tyRegs ty))], d, (tyRegs ty), fun x => aluShl ty sat (arg x 0) (immVal32 imm)⟩
  | .ushr _ ty d a b => some ⟨[(a, (tyRegs ty)), (b, 1)], d, (tyRegs ty), fun x => aluShr ty (arg x 0) (arg x 1)⟩
  | .ushrImm _ ty d a imm => some ⟨[(a, (tyRegs ty))], d, (tyRegs ty), fun x => aluShr ty (arg x 0) (immVal32 imm)⟩
  | .usar _ ty d a b => some ⟨[(a, (tyRegs ty)), (b, 1)], d, (tyRegs ty), fun x => aluSar ty (arg x 0) (arg x 1)⟩
  | .usarImm _ ty d a imm => some ⟨[(a, (tyRegs ty))], d, (tyRegs ty), fun x => aluSar ty (arg x 0) (immVal32 imm)⟩
  | .uand _ ty na nb d a b => some ⟨[(a, (tyRegs ty)), (b, (tyRegs ty))], d, (tyRegs ty), fun x => aluBit .and ty na nb (arg x 0) (arg x 1)⟩
  | .uandImm _ ty d a imm => some ⟨[(a, (tyRegs ty))], d, (tyRegs ty), fun x => aluBit .and ty false false (arg x 0) (immVal ty imm)⟩
  | .uor _ ty na nb d a b => some ⟨[(a, (tyRegs ty)), (b, (tyRegs ty))], d, (tyRegs ty), fun x => aluBit .or ty na nb (arg x 0) (arg x 1)⟩
  | .uorImm _ ty d a imm => some ⟨[(a, (tyRegs ty))], d, (tyRegs ty), fun x => aluBit .or ty false false (arg x 0) (immVal ty imm)⟩
  | .uxor _ ty na nb d a b => some ⟨[(a, (tyRegs ty)), (b, (tyRegs ty))], d, (tyRegs ty), fun x => aluBit .xor ty na nb (arg x 0) (arg x 1)⟩
  | .uxorImm _ ty d a imm => some ⟨[(a, (tyRegs ty))], d, (tyRegs ty), fun x => aluBit .xor ty false false (arg x 0) (immVal ty imm)⟩
  | .ulea _ ty sh d a b => some ⟨[(a, 1), (b, (tyRegs ty))], d, (tyRegs ty), fun x => aluLea ty sh (arg x 0) (arg x 1)⟩
  | .uleaImm _ ty sh d a imm => some ⟨[(a, 1)], d, (tyRegs ty), fun x => aluLea ty sh (arg x 0) (immVal ty imm)⟩
  | _ => none

/-- The uniform tests (R112). -/
def uniTestShape : Instr → Option UniTestShape
  | .ucmp _ ty cmp pd a b => some ⟨[(a, tyRegs ty), (b, tyRegs ty)], pd, fun x => cmpInt cmp (intVal ty (arg x 0)) (intVal ty (arg x 1))⟩
  | .ucmpImm _ ty cmp pd a imm => some ⟨[(a, tyRegs ty)], pd, fun x => cmpInt cmp (intVal ty (arg x 0)) (intVal ty (immVal ty imm))⟩
  | _ => none

end Sys2Proof.Machine
end

