-- ==== Sys2Proof/Safety.lean ====
section
/-! DEFINITION. What counts as a safe state, and the terms the statements are made in: when an instruction passes its checks, the state
its effect starts from, what issuing adds, and what stays as it was. -/
namespace Sys2Proof.Machine

/-! ## Safe states -/

/-- Memory is in its canonical form: strictly rising locations, no zero entry. -/
abbrev Memory.wf (m : MemSys) : Prop := Store.wf m.mem = true

/-- A workgroup's scratchpad, slots and tiles are in it. -/
def Wgroup.wf (g : Wgroup) : Prop := Store.wf g.spad = true ∧ Store.wf g.slots = true ∧ Store.wf g.tiles = true

/-- Every store of the machine is in canonical form: device memory, and the stores of every workgroup, saved ones among them. -/
def State.Canonical (s : State) : Prop :=
  Memory.wf s.mem ∧ (∀ g ∈ s.allWgs, g.wf) ∧ ∀ p ∈ s.sched.saved, p.1.wf

/-! ## An instruction that passes its checks -/

/-- The state in which an instruction is checked: a class 3 instruction finds every fixed-latency result complete (R93). -/
def State.checked (s : State) (i : Instr) : State := s.modCur (fun w => if opClass i = 3 then w.settle else w)

/-- No check of R98 fails: no disabled group, every operand in range, no stall breach, no pair breach. -/
def clears (i : Instr) (h : Hdr) (s : State) : Prop := hdrOf i = some h ∧ issueCause (s.checked i) i h = none

/-- The state in which the effect reads its operands: awaited results are done (R82). -/
def State.opened (s : State) (i : Instr) (h : Hdr) : State := ((s.checked i).modCur (fun w => w.waited h (opClass i = 3))).draw

/-- The lanes that the instruction acts on (R6). -/
def lanesOn (i : Instr) (h : Hdr) (s : State) : Mask := (s.opened i h).active h

/-- What issuing adds to the state the effect leaves: the scoreboard count, the counted distances, the next slot (R70, R81, R82). -/
def State.closed (s : State) (h : Hdr) (t : State) : State := (t.issued h s.ptBit s.cur.path.pid).advance

/-- The state with only the issue's own marks: the next slot, the scoreboard count, and the free-value counter. -/
def State.stepped (s : State) (h : Hdr) : State := { (s.modCur (fun w => w.countSb h.sb)).advance with freeCtr := s.freeCtr + 1 }

/-- The two states differ only in the warp's vector registers and in the record of results that are not yet certain. -/
def onlyV (u t : State) : Prop := t = { u with cur := { u.cur with v := t.cur.v, pend := t.cur.pend } }

/-- They differ only in the uniform registers and that record. -/
def onlyS (u t : State) : Prop := t = { u with cur := { u.cur with s := t.cur.s, pend := t.cur.pend } }

/-- They differ only in the predicates and that record. -/
def onlyP (u t : State) : Prop := t = { u with cur := { u.cur with p := t.cur.p, pend := t.cur.pend } }

/-- They differ only in the vector registers, the predicates and that record. -/
def onlyVP (u t : State) : Prop := t = { u with cur := { u.cur with v := t.cur.v, p := t.cur.p, pend := t.cur.pend } }

/-- They differ only in the record of results that are not yet certain. -/
def onlyPend (u t : State) : Prop := t = { u with cur := { u.cur with pend := t.cur.pend } }

/-- Nothing earlier is uncertain in a register (R81, R82). -/
def certain (s : State) (r : PReg) : Prop := ∀ p ∈ s.cur.pend, p.reg = r → p.uncertain = false

/-- A source of `n` registers that is no port: it reads without an effect. -/
def isReg (o : Opd) : Bool := match o with
  | .q _ => false
  | _ => true

/-- The vector registers hold, after an instruction, the low and the high half of a value in the lanes of a mask, in the `n` registers
from `d`; every other lane of every register is what it was. -/
def wroteV (s t : State) (d n : Nat) (m : Mask) (x : Nat → DWord) : Prop :=
  ∀ (r : Fin 240) (l : Fin 128), t.cur.v[r][l] =
    if m.getLsbD l ∧ (r : Nat) = d then (x l).setWidth 32
    else if m.getLsbD l ∧ n = 2 ∧ (r : Nat) = d + 1 then (x l >>> 32).setWidth 32
    else s.cur.v[r][l]

/-- The predicates hold an outcome in the lanes of a mask of one predicate, and are what they were elsewhere; p31 takes nothing (R41). -/
def wroteP (s t : State) (pd : Nat) (m : Mask) (f : Nat → Bool) : Prop :=
  ∀ (r : Fin 31) (l : Fin 128), t.cur.p[r].getLsbD l = if m.getLsbD l ∧ (r : Nat) = pd then f l else s.cur.p[r].getLsbD l

/-- The uniform registers hold the words of a value in the `n` registers from `d`, and are what they were elsewhere. -/
def wroteS (s t : State) (d n : Nat) (x : DWord) : Prop :=
  ∀ r : Fin 128, t.cur.s[r] =
    if (r : Nat) = d then x.setWidth 32
    else if n = 2 ∧ (r : Nat) = d + 1 then (x >>> 32).setWidth 32
    else s.cur.s[r]

/-- The value a lane reads from a source of `n` registers, when an instruction opens (R40, R49). -/
def laneSrc (s : State) (i : Instr) (h : Hdr) (o : Opd) (n l : Nat) : DWord := ((s.opened i h).readVec o n).getD l 0

/-- The value that the `n` vector registers from `r` hold in a lane (R40). -/
def State.laneVal (s : State) (r n l : Nat) : DWord :=
  let x := fun (k : Nat) => (s.cur.v.getD k (Vector.replicate 128 0)).getD l 0
  if n = 2 then x (r + 1) ++ x r else (x r).setWidth 64

/-- An instruction passes its checks, and its destination of `n` vector registers from `r` lies in the file and holds no uncertain
result. -/
def vecReady (s : State) (i : Instr) (h : Hdr) (r n : Nat) : Prop :=
  clears i h s ∧ certain (s.opened i h) (.v r) ∧ (n = 2 → certain (s.opened i h) (.v (r + 1))) ∧ r + n ≤ 240

/-- exec answers a next state that differs only in vector registers, and in every active lane the destination's value meets `P`, while
every register keeps its value in the other lanes, and every register outside the destination in all. -/
def computes (s : State) (i : Instr) (h : Hdr) (r n : Nat) (P : Nat → DWord → Prop) : Prop :=
  ∃ t, exec i s = .next t ∧ onlyV (s.stepped h) t ∧
    (∀ l : Fin 128, (lanesOn i h s).getLsbD l = true → P l (t.laneVal r n l)) ∧
    (∀ (k : Fin 240) (l : Fin 128), ((k : Nat) < r ∨ r + n ≤ k ∨ (lanesOn i h s).getLsbD l = false) → t.cur.v[k][l] = s.cur.v[k][l])

/-- The next state differs only in predicates: the active lanes of one hold an outcome. -/
def decides (s : State) (i : Instr) (h : Hdr) (pd : Nat) (f : Nat → Bool) : Prop :=
  ∃ t, exec i s = .next t ∧ onlyP (s.stepped h) t ∧ wroteP s t pd (lanesOn i h s) f

/-- The next state differs only in uniform registers: the `n` from `r` hold a value. -/
def yields (s : State) (i : Instr) (h : Hdr) (r n : Nat) (x : DWord) : Prop :=
  ∃ t, exec i s = .next t ∧ onlyS (s.stepped h) t ∧ wroteS s t r n x

/-- An instruction passes its checks, and its destination of `n` uniform registers from `r` holds no uncertain result. -/
def uniReady (s : State) (i : Instr) (h : Hdr) (r n : Nat) : Prop :=
  clears i h s ∧ certain (s.opened i h) (.s r) ∧ (n = 2 → certain (s.opened i h) (.s (r + 1)))

/-- The nodes of R34's tree: level 0 holds the active lanes' values, node i of level j + 1 combines nodes 2i and 2i + 1 of level j, and an
empty node yields to its neighbour. -/
def treeNode (op : DWord → DWord → DWord) (act : Mask) (x : Nat → DWord) : Nat → Nat → Option DWord
  | 0, l => if act.getLsbD l then some (x l) else none
  | j + 1, i => match treeNode op act x j (2 * i), treeNode op act x j (2 * i + 1) with
    | none, y => y
    | y, none => y
    | some y, some z => some (op y z)

/-- The scan value of R35 over the first `c` lanes, from level `j` − 1 down, given what stands to the left and where it ends. -/
def scanNode (op : DWord → DWord → DWord) (act : Mask) (x : Nat → DWord) (c : Nat) : Nat → Option DWord → Nat → Option DWord
  | 0, p, _ => p
  | j + 1, p, base =>
    if c / 2 ^ j % 2 = 1 then
      scanNode op act x c j (match p, treeNode op act x j (base / 2 ^ j) with
        | none, y => y
        | y, none => y
        | some y, some z => some (op y z)) (base + 2 ^ j)
    else scanNode op act x c j p base

/-- Of the unit that an identifier names in the issuer's partition nothing goes on (R413): its launches are cancelled, and no queue and no
pool holds a record of it. -/
def unitGone (s t : State) (lv : Level) (id : Nat) : Prop :=
  (∀ x ∈ t.sched.launches, x.part = s.wg.part → x.record.ident lv = id → x.cancelled = true) ∧
  (∀ q ∈ t.sched.queues, s.queuePart q.1 = s.wg.part → ∀ r ∈ q.2, r.ident lv ≠ id) ∧
  (∀ p ∈ t.sched.pool, s.queuePart p.queue = s.wg.part → p.record.ident lv ≠ id)

/-! ## Memory, one byte at a time -/

/-- Where the bytes of a target lie: (0, location) in device memory, (workgroup + 1, offset) in a scratchpad. -/
def Target.cells (n : Nat) : Target → List (Nat × Nat)
  | .loc l _ => (List.range n).map (fun i => (0, l + i))
  | .split l l2 _ => (List.range 4).map (fun i => (0, l + i)) ++ (List.range 4).map (fun i => (0, l2 + i))
  | .spad wg off => (List.range n).map (fun i => (wg + 1, off + i))
  | .remote _ _ _ _ => []

/-- One byte of device memory or of a scratchpad. -/
def State.cell (s : State) (c : Nat × Nat) : Byte :=
  match c.1 with
  | 0 => s.mem.mem.get c.2
  | k + 1 => (s.wgOf k).elim 0 (fun g => g.spad.get c.2)

/-- The little-endian number at a target. -/
def State.valueAt (s : State) (n : Nat) (t : Target) : Nat := leNat ((t.cells n).map s.cell)

/-- Byte `i` of a number, from the least significant (R4). -/
def byteOf (x i : Nat) : Byte := BitVec.ofNat 8 (x / 256 ^ i)

/-- No line holds unwritten bytes under a read budget, so that a line which gives way to another changes no byte (R259, R263). -/
def State.noDrops (s : State) : Prop := ∀ x ∈ s.mem.home, x.budget = none ∨ x.dram = none

/-- A target on this device that its home holds like plain memory: not under a read-count hint, nor with a budget from an earlier one (R263), nor
beside a line that its eviction would drop, not poisoned (R278), in no line of a frozen region (R261), not in the coherent window (R362). -/
def State.plain (s : State) (t : Target) : Prop :=
  match t with
  | .loc l m => s.noDrops ∧ m = 0 ∧ l < cwBase ∧ s.mem.poisonOf l = none ∧ (s.mem.homeLine (l / 64)).budget = none ∧ ∀ i < 64, s.mem.frozen (l / 64 * 64 + i) = false ∧ s.mem.frozen (l + i) = false
  | .split l l2 m => s.noDrops ∧ m = 0 ∧ l < cwBase ∧ l2 < cwBase ∧ s.mem.poisonOf l = none ∧ s.mem.poisonOf l2 = none ∧
      (s.mem.homeLine (l / 64)).budget = none ∧ (s.mem.homeLine (l2 / 64)).budget = none ∧
      ∀ i < 64, s.mem.frozen (l / 64 * 64 + i) = false ∧ s.mem.frozen (l2 / 64 * 64 + i) = false ∧
        s.mem.frozen (l + i) = false ∧ s.mem.frozen (l2 + i) = false
  | .spad wg off => ∀ g, s.wgOf wg = some g → g.bad.contains (off / 64) = false
  | .remote _ _ _ _ => False

/-- A target's location is a multiple of the access size (R169). -/
def Target.aligned (n : Nat) : Target → Prop
  | .loc l _ => l % n = 0
  | .split l l2 _ => l % 4 = 0 ∧ l2 % 4 = 0
  | _ => True

/-- The address of a lane of a format M instruction (R168). -/
def laneAddr (s : State) (i : Instr) (h : Hdr) (a : Opd) (off : BitVec 20) (l : Nat) : DWord := laneSrc s i h a 2 l + off.signExtend 64

/-- Atomic steps in ascending lane order (R176) on a map of bytes: what each lane read, and the bytes afterwards. -/
def atomRun (n : Nat) (new : Nat → Nat → Option Nat) : List (Nat × Target) → (Nat × Nat → Byte) → List (Nat × Nat) × (Nat × Nat → Byte)
  | [], m => ([], m)
  | (l, t) :: r, m =>
    let o := leNat ((t.cells n).map m)
    let m' := match new l o with
      | some x => fun c => if (t.cells n).contains c then byteOf x ((t.cells n).idxOf c) else m c
      | none => m
    let (xs, m'') := atomRun n new r m'
    ((l, o) :: xs, m'')

/-! ## Floating point by the rules: an encoding as a count of units, the last place of the subnormals of its format -/

/-- An encoding without its sign (R17). -/
def Fmt.mag (f : Fmt) (x : Nat) : Nat := x % 2 ^ (f.eb + f.mb)

/-- The sign of an encoding; the block scale has none (R17). -/
def Fmt.sgn (f : Fmt) (x : Nat) : Bool := f.signed && decide (x / 2 ^ (f.eb + f.mb) % 2 = 1)

/-- The code of a magnitude with a sign. -/
def Fmt.code (f : Fmt) (neg : Bool) (m : Nat) : Nat := (if neg && f.signed then 2 ^ (f.eb + f.mb) else 0) + m

/-- A finite encoding, of the width of the format (R17). -/
def Fmt.isFin (f : Fmt) (x : Nat) : Bool := decide (f.mag x ≤ f.top) && x == f.code (f.sgn x) (f.mag x)

/-- The magnitude of the infinities (R17). -/
def Fmt.infMag (f : Fmt) : Nat := (2 ^ f.eb - 1) * 2 ^ f.mb

/-- An infinity (R17). -/
def Fmt.isInf (f : Fmt) (x : Nat) : Bool := f.hasInf && f.mag x == f.infMag

/-- A NaN (R17). -/
def Fmt.isNaN (f : Fmt) (x : Nat) : Bool := decide (f.top < f.mag x) && !f.isInf x

/-- The canonical NaNs (R19); E2M1 has none, and takes +0 (R23). -/
def Fmt.canonNaN : Fmt → Nat
  | .f64 => 0x7FF8000000000000
  | .f32 => 0x7FC00000
  | .f16 => 0x7E00
  | .bf16 => 0x7FC0
  | .e4m3 => 0x7F
  | .e5m2 => 0x7E
  | .e5m3 => 0xFF
  | .e2m1 => 0

/-- A finite encoding in units (R17): (2^M + m) × 2^(e − 1), or m where e is zero. -/
def Fmt.units (f : Fmt) (x : Nat) : Int :=
  let e := f.mag x / 2 ^ f.mb
  let m := f.mag x % 2 ^ f.mb
  let n : Nat := if e = 0 then m else (2 ^ f.mb + m) * 2 ^ (e - 1)
  if f.sgn x then -n else n

/-- How many units make 1: 2 to this power. -/
def Fmt.one (f : Fmt) : Nat := f.bias + f.mb - 1

/-- `r` is v/n units rounded to a format by R21 and R22; `z` is the sign of an exact zero (R20). -/
def Fmt.rounds (f : Fmt) (rm : Rm) (sat : Bool) (v : Int) (n : Nat) (z : Bool) (r : Nat) : Prop :=
  let neg := decide (v < 0)
  let a := v.natAbs
  let size := fun (x : Nat) => (f.units x).natAbs * n
  let dist := fun (x : Nat) => ((a : Int) - size x).natAbs
  let away := rm = .ru ∧ 0 < v ∨ rm = .rd ∧ v < 0
  -- halfway from the largest finite value to the next one, were there no upper limit
  let mid := (2 * (f.units f.top).natAbs + 2 ^ (f.top / 2 ^ f.mb - 1)) * n
  let beyond := rm = .rn ∧ (mid < 2 * a ∨ mid = 2 * a ∧ f.top % 2 = 1) ∨ away ∧ size f.top < a
  (v = 0 → r = f.code z 0) ∧
  (v ≠ 0 → beyond → r = if sat then f.code neg f.top else match f with
    | .e4m3 => 0x7F
    | .e5m3 => 0xFF
    | .e2m1 => f.code neg f.top
    | _ => f.code neg f.infMag) ∧
  (v ≠ 0 → ¬ beyond → f.isFin r = true ∧ f.sgn r = (neg && f.signed) ∧
    (rm = .rn → ∀ y, f.isFin y = true → dist r ≤ dist y ∧ (dist y = dist r → size y ≠ size r → r % 2 = 0)) ∧
    (away → a ≤ size r ∧ ∀ y, f.isFin y = true → a ≤ size y → size r ≤ size y) ∧
    (rm ≠ .rn → ¬ away → size r ≤ a ∧ ∀ y, f.isFin y = true → size y ≤ a → size y ≤ size r))

/-- `k` is v/n rounded to an integer (R21). -/
def roundsInt (rm : Rm) (v : Int) (n : Nat) (k : Int) : Prop :=
  match rm with
  | .rn => 2 * (v - k * n).natAbs ≤ n ∧ (2 * (v - k * n).natAbs = n → k % 2 = 0)
  | .rz => k.natAbs * n ≤ v.natAbs ∧ v.natAbs < (k.natAbs + 1) * n ∧ 0 ≤ k * v
  | .rd => k * n ≤ v ∧ v < (k + 1) * n
  | .ru => (k - 1) * n < v ∧ v ≤ k * n

/-- FADD (R19, R20, R127). -/
def Fmt.sum (f : Fmt) (rm : Rm) (sat : Bool) (x y r : Nat) : Prop :=
  (f.isNaN x ∨ f.isNaN y ∨ f.isInf x ∧ f.isInf y ∧ f.sgn x ≠ f.sgn y → r = f.canonNaN) ∧
  (f.isInf x → f.isFin y ∨ f.isInf y ∧ f.sgn y = f.sgn x → r = x) ∧
  (f.isFin x → f.isInf y → r = y) ∧
  (f.isFin x → f.isFin y → f.rounds rm sat (f.units x + f.units y) 1
    (if f.mag x = 0 ∧ f.mag y = 0 ∧ f.sgn x = f.sgn y then f.sgn x else decide (rm = .rd)) r)

/-- FMUL (R19, R20, R127). -/
def Fmt.product (f : Fmt) (rm : Rm) (sat : Bool) (x y r : Nat) : Prop :=
  let s := f.sgn x != f.sgn y
  let bad := f.isNaN x ∨ f.isNaN y ∨ f.isInf x ∧ f.mag y = 0 ∨ f.mag x = 0 ∧ f.isInf y
  (bad → r = f.canonNaN) ∧ (¬ bad → f.isInf x ∨ f.isInf y → r = f.code s f.infMag) ∧
  (f.isFin x → f.isFin y → f.rounds rm sat (f.units x * f.units y) (2 ^ f.one) s r)

/-- FFMA (R19, R20, R127): the product is not rounded. -/
def Fmt.fused (f : Fmt) (rm : Rm) (sat : Bool) (x y z r : Nat) : Prop :=
  let s := f.sgn x != f.sgn y
  let pinf := f.isInf x ∨ f.isInf y
  let bad := f.isNaN x ∨ f.isNaN y ∨ f.isNaN z ∨ f.isInf x ∧ f.mag y = 0 ∨ f.mag x = 0 ∧ f.isInf y ∨ pinf ∧ f.isInf z ∧ s ≠ f.sgn z
  (bad → r = f.canonNaN) ∧ (¬ bad → pinf → r = f.code s f.infMag) ∧ (¬ bad → ¬ pinf → f.isInf z → r = z) ∧
  (f.isFin x → f.isFin y → f.isFin z →
    f.rounds rm sat (f.units x * f.units y + f.units z * 2 ^ f.one) (2 ^ f.one)
      (if f.units x * f.units y = 0 ∧ f.mag z = 0 ∧ s = f.sgn z then s else decide (rm = .rd)) r)

/-- The place of a number among the numbers of its format, −0 below +0 (R128). -/
def Fmt.order (f : Fmt) (x : Nat) : Int := if f.sgn x then -(f.mag x : Int) - 1 else f.mag x

/-- FMIN and FMAX (R128). -/
def Fmt.pick (f : Fmt) (mx : Bool) (x y r : Nat) : Prop :=
  (f.isNaN x → f.isNaN y → r = f.canonNaN) ∧ (f.isNaN x → f.isNaN y = false → r = y) ∧ (f.isNaN x = false → f.isNaN y → r = x) ∧
  (f.isNaN x = false → f.isNaN y = false → (r = x ∨ r = y) ∧
    (if mx then f.order x ≤ f.order r ∧ f.order y ≤ f.order r else f.order r ≤ f.order x ∧ f.order r ≤ f.order y))

/-- The outcomes of FCMP (R129). -/
def Fmt.compares (f : Fmt) (c : FCmp) (x y : Nat) : Prop :=
  let un := f.isNaN x ∨ f.isNaN y
  let eq := f.mag x = 0 ∧ f.mag y = 0 ∨ f.order x = f.order y
  let lt := ¬ eq ∧ f.order x < f.order y
  match c with
  | .eq => ¬ un ∧ eq
  | .ne => ¬ un ∧ ¬ eq
  | .lt => ¬ un ∧ lt
  | .le => ¬ un ∧ (lt ∨ eq)
  | .gt => ¬ un ∧ ¬ (lt ∨ eq)
  | .ge => ¬ un ∧ ¬ lt
  | .num => ¬ un
  | .nan => un
  | .equ => un ∨ eq
  | .neu => un ∨ ¬ eq
  | .ltu => un ∨ lt
  | .leu => un ∨ lt ∨ eq
  | .gtu => un ∨ ¬ (lt ∨ eq)
  | .geu => un ∨ ¬ lt

/-- The classes of FCLASS (R130). -/
def Fmt.classNo (f : Fmt) (x : Nat) : Nat :=
  if f.isNaN x then (if x / 2 ^ (f.mb - 1) % 2 = 1 then 9 else 8)
  else if f.isInf x then (if f.sgn x then 0 else 7)
  else if f.mag x = 0 then (if f.sgn x then 3 else 4)
  else if f.mag x < 2 ^ f.mb then (if f.sgn x then 2 else 5)
  else if f.sgn x then 1 else 6

/-- FRND (R131). -/
def Fmt.integral (f : Fmt) (rm : Rm) (x r : Nat) : Prop :=
  (f.isNaN x → r = f.canonNaN) ∧ (f.isInf x → r = x) ∧
  (f.isFin x → f.isFin r ∧ f.sgn r = f.sgn x ∧ ∃ k, f.units r = k * 2 ^ f.one ∧ roundsInt rm (f.units x) (2 ^ f.one) k)

/-- FFRAC (R131). -/
def Fmt.fraction (f : Fmt) (x r : Nat) : Prop :=
  (f.isNaN x → r = f.canonNaN) ∧ (f.isInf x → r = f.code (f.sgn x) 0) ∧
  (f.isFin x → f.isFin r ∧ f.sgn r = f.sgn x ∧ f.units r = (f.units x).tmod (2 ^ f.one))

/-- FSCALE (R132). -/
def Fmt.scaled (f : Fmt) (rm : Rm) (sat : Bool) (x : Nat) (n : Int) (r : Nat) : Prop :=
  (f.isNaN x → r = f.canonNaN) ∧ (f.isInf x → r = x) ∧
  (f.isFin x → f.rounds rm sat (f.units x * 2 ^ n.toNat) (2 ^ (-n).toNat) (f.sgn x) r)

/-- A float converted to another format (R23). -/
def Fmt.converts (g f : Fmt) (rm : Rm) (sat : Bool) (x r : Nat) : Prop :=
  (g.isNaN x → r = f.canonNaN) ∧
  (g.isInf x → r = match f with
    | .e4m3 => if sat then f.code (g.sgn x) 0x7E else 0x7F
    | .e2m1 => f.code (g.sgn x) 7
    | .e5m3 => if sat then (if g.sgn x then 0 else 0xFE) else 0xFF
    | _ => f.code (g.sgn x) f.infMag) ∧
  (g.isFin x → if f = .e5m3 ∧ g.sgn x = true ∧ g.mag x ≠ 0 then r = (if sat then 0 else 0xFF)
    else f.rounds rm sat (g.units x * 2 ^ (f.one - g.one)) (2 ^ (g.one - f.one)) (g.sgn x) r)

/-- One element converted from a kind to a kind (R23, R133, R136); between integers of one width R23 says nothing. -/
def kindConverts (dk sk : Nat) (rm : Rm) (sat : Bool) (x r : DWord) : Prop :=
  match kindInt dk, kindInt sk with
  | none, none => (kindFmt sk).converts (kindFmt dk) rm sat x.toNat r.toNat
  | none, some u =>
    let f := kindFmt dk
    if f = .e5m3 ∧ intVal u x < 0 then r.toNat = (if sat then 0 else 0xFF) else f.rounds rm sat (intVal u x * 2 ^ f.one) 1 false r.toNat
  | some t, none =>
    let g := kindFmt sk
    let is_ := fun (y : Int) => r = extend t (y % 2 ^ tyBits t).toNat
    (g.isNaN x.toNat → is_ 0) ∧ (g.isInf x.toNat → is_ (if g.sgn x.toNat then (tyRange t).1 else (tyRange t).2)) ∧
    (g.isFin x.toNat → ∃ k, roundsInt rm (g.units x.toNat) (2 ^ g.one) k ∧ is_ (max (tyRange t).1 (min (tyRange t).2 k)))
  | some t, some u =>
    (tyBits u < tyBits t → r = extend t (intVal u x % 2 ^ tyBits t).toNat) ∧
    (tyBits t < tyBits u → r = extend t
      ((if sat then max (tyRange t).1 (min (tyRange t).2 (intVal u x)) else intVal u x) % 2 ^ tyBits t).toNat)

/-- CVTQ (R24, R137), `b` and `c` as the registers hold the scale and the zero point. -/
def Fmt.quantises (f : Fmt) (t : QTarget) (rm : Rm) (sat : Bool) (x b c r : Nat) : Prop :=
  let grouped := fun (w : Nat) =>
    let g := Fmt.f16
    let s := b % 65536
    let z := c % 2 ^ w
    let neg := f.sgn x != g.sgn s
    let bad := f.isNaN x ∨ g.isNaN s ∨ f.mag x = 0 ∧ g.mag s = 0 ∨ f.isInf x ∧ g.isInf s
    (bad → r = z) ∧ (¬ bad → f.isInf x ∨ g.mag s = 0 → r = if neg then 0 else 2 ^ w - 1) ∧ (f.isFin x → g.isInf s → r = z) ∧
    (f.isFin x → g.isFin s → g.mag s ≠ 0 → ∃ k, (r : Int) = max 0 (min (2 ^ w - 1) (z + k)) ∧
      roundsInt rm ((f.units x * 2 ^ (g.one - f.one)) * (g.units s).sign) ((g.units s).natAbs * 2 ^ (f.one - g.one)) k)
  let block := fun (e : Fmt) =>
    let g := Fmt.e5m3
    let s := b % 256
    let bad := f.isNaN x ∨ g.isNaN s ∨ f.mag x = 0 ∧ g.mag s = 0
    (bad → r = e.canonNaN) ∧
    (¬ bad → f.isInf x ∨ g.mag s = 0 → r = match e with
      | .e4m3 => if sat then e.code (f.sgn x) 0x7E else 0x7F
      | _ => e.code (f.sgn x) 7) ∧
    (f.isFin x → g.isFin s → g.mag s ≠ 0 →
      e.rounds rm sat (f.units x * 2 ^ (g.one + e.one - f.one)) ((g.units s).natAbs * 2 ^ (f.one - (g.one + e.one))) (f.sgn x) r)
  match t with
  | .q4 => grouped 4
  | .q8 => grouped 8
  | .e2m1b => block .e2m1
  | .e4m3b => block .e4m3

/-- DQ (R24, R25, R138); of the sign of a zero product with a zero factor see log 70. -/
def Fmt.dequantises (f : Fmt) (t : QTarget) (rm : Rm) (sat : Bool) (a b c r : Nat) : Prop :=
  let grouped := fun (w : Nat) =>
    let g := Fmt.f16
    let s := b % 65536
    let d : Int := ((a % 2 ^ w : Nat) : Int) - (c % 2 ^ w : Nat)
    (g.isNaN s ∨ g.isInf s ∧ d = 0 → r = f.canonNaN) ∧
    (g.isInf s → d ≠ 0 → r = f.code (g.sgn s != decide (d < 0)) f.infMag) ∧
    (g.isFin s → ∃ z, f.rounds rm sat (g.units s * d * 2 ^ (f.one - g.one)) 1 z r)
  let block := fun (e : Fmt) (w : Nat) =>
    let g := Fmt.e5m3
    let s := b % 256
    let x := a % 2 ^ w
    (g.isNaN s ∨ e.isNaN x → r = f.canonNaN) ∧
    (g.isFin s → e.isFin x → ∃ z, f.rounds rm sat (g.units s * e.units x * 2 ^ (f.one - (g.one + e.one))) (2 ^ (g.one + e.one - f.one)) z r)
  match t with
  | .q4 => grouped 4
  | .q8 => grouped 8
  | .e2m1b => block .e2m1 4
  | .e4m3b => block .e4m3 8

/-- RCP at f32 and f64 (R140, R141): within one ulp of 1/x. -/
def Fmt.reciprocal (f : Fmt) (x r : Nat) : Prop :=
  let a := (f.units x).natAbs
  let q := (f.units r).natAbs
  let p := 2 ^ (2 * f.one)
  (f.isNaN x → r = f.canonNaN) ∧ (f.isInf x → r = f.code (f.sgn x) 0) ∧ (f.mag x = 0 → r = f.code (f.sgn x) f.infMag) ∧
  (f.isFin x → f.mag x ≠ 0 → f.isNaN r = false ∧ f.sgn r = f.sgn x ∧ (f.isInf r → (f.units f.top).natAbs * a < p) ∧
    (f.isFin r → ∃ k, (k = 0 ∨ 2 ^ (f.mb + k) * a ≤ p) ∧ ((q * a : Int) - p).natAbs ≤ 2 ^ k * a) ∧
    (∀ j, a = 2 ^ j → p ≤ (f.units f.top).natAbs * a → f.isFin r ∧ q * a = p))

/-- RSQ at f32 and f64 (R140, R141): within one ulp of 1/√x. -/
def Fmt.invRoot (f : Fmt) (x r : Nat) : Prop :=
  let a := (f.units x).natAbs
  let q := (f.units r).natAbs
  let p := 2 ^ (3 * f.one)
  (f.isNaN x ∨ f.sgn x = true ∧ f.mag x ≠ 0 → r = f.canonNaN) ∧ (f.isInf x → f.sgn x = false → r = 0) ∧
  (f.mag x = 0 → r = f.code (f.sgn x) f.infMag) ∧
  (f.isFin x → f.mag x ≠ 0 → f.sgn x = false → f.isFin r ∧ f.sgn r = false ∧
    (∃ k, (k = 0 ∨ (2 ^ (f.mb + k)) ^ 2 * a ≤ p) ∧ p ≤ (q + 2 ^ k) ^ 2 * a ∧ (2 ^ k ≤ q → (q - 2 ^ k) ^ 2 * a ≤ p)) ∧
    (∀ j, a = 2 ^ j → (3 * f.one + j) % 2 = 0 → q ^ 2 * a = p))

/-- SQRT, correctly rounded (R140, R141); `p` is the square of the root in units. -/
def Fmt.root (f : Fmt) (rm : Rm) (x r : Nat) : Prop :=
  let size := fun (y : Nat) => (f.units y).natAbs
  let p := size x * 2 ^ f.one
  (f.isNaN x ∨ f.sgn x = true ∧ f.mag x ≠ 0 → r = f.canonNaN) ∧ (f.mag x = 0 → r = x) ∧ (f.isInf x → f.sgn x = false → r = x) ∧
  (f.isFin x → f.mag x ≠ 0 → f.sgn x = false → f.isFin r ∧ f.sgn r = false ∧ ∀ y, f.isFin y →
    match rm with
    | .rn => (size r < size y → 4 * p ≤ (size r + size y) ^ 2) ∧ (size y < size r → (size r + size y) ^ 2 ≤ 4 * p)
    | .ru => p ≤ size r ^ 2 ∧ (p ≤ size y ^ 2 → size r ≤ size y)
    | _ => size r ^ 2 ≤ p ∧ (size y ^ 2 ≤ p → size y ≤ size r))

/-- At f16 and bf16 a special function rounds its f32 result once (R140). -/
def Fmt.viaSingle (f : Fmt) (op : Fmt → Nat → Nat → Prop) (x r : Nat) : Prop :=
  if f = .f32 ∨ f = .f64 then op f x r
  else ∃ x' r', f.converts .f32 .rn false x x' ∧ op .f32 x' r' ∧ Fmt.f32.converts f .rn false r' r

/-- The operands for which R141 gives EXP2 exactly. -/
def Fmt.power (f : Fmt) (x r : Nat) : Prop :=
  (f.isNaN x → r = f.canonNaN) ∧ (f.isInf x → r = f.code false (if f.sgn x then 0 else f.infMag)) ∧
  (f.isFin x → ∀ n : Int, f.units x = n * 2 ^ f.one →
    -(f.one : Int) ≤ n → (2 ^ (n + f.one).toNat ≤ (f.units f.top).natAbs) → f.isFin r ∧ f.units r = 2 ^ (n + f.one).toNat)

/-- The operands for which R141 gives LOG2 exactly. -/
def Fmt.logarithm (f : Fmt) (x r : Nat) : Prop :=
  (f.isNaN x ∨ f.sgn x = true ∧ f.mag x ≠ 0 → r = f.canonNaN) ∧ (f.isInf x → f.sgn x = false → r = x) ∧
  (f.mag x = 0 → r = f.code true f.infMag) ∧
  (f.isFin x → ∀ j : Nat, f.units x = 2 ^ j → f.isFin r ∧ f.units r = ((j : Int) - f.one) * 2 ^ f.one)

/-- The operands for which R142 gives SINR or COSR exactly: infinities, NaNs, and the quarter turns, of which `x` has `n`. -/
def Fmt.turns (f : Fmt) (cosine : Bool) (x r : Nat) : Prop :=
  (f.isNaN x ∨ f.isInf x → r = f.canonNaN) ∧
  (f.isFin x → ∀ n : Int, 4 * f.units x = n * 2 ^ f.one →
    let k := (if cosine then n + 1 else n) % 4
    if cosine = false ∧ f.mag x = 0 then r = x
    else f.isFin r ∧ f.units r = (if k = 1 then 2 ^ f.one else if k = 3 then -(2 ^ f.one) else 0) ∧ (k % 2 = 0 → f.sgn r = false))

/-! ## Engines -/

/-- The focused warp's lane and uniform registers, ports and masks, and every other warp, are what they were. -/
def sameRegs (s t : State) : Prop :=
  t.cur.v = s.cur.v ∧ t.cur.s = s.cur.s ∧ t.cur.p = s.cur.p ∧ t.cur.ports = s.cur.ports ∧ t.cur.em = s.cur.em ∧
  t.cur.exited = s.cur.exited ∧ t.warps = s.warps

/-- One count register has risen by `n`, and the others are what they were (R42). -/
def counted (s t : State) (k n : Nat) : Prop :=
  ∀ j, t.cur.k.getD j 0 = if j = k then s.cur.k.getD j 0 + BitVec.ofNat 32 n else s.cur.k.getD j 0

/-- The count register has room for `n` more (R42). -/
def roomK (s : State) (k n : Nat) : Prop := k < 16 ∧ (s.cur.k.getD k 0).toNat + n ≤ 2 ^ 31

/-- One command of a kind goes last among the engines' work, in the issuing warp's name. -/
def queued (s t : State) (k : Nat) (P : Cmd → Prop) : Prop :=
  ∃ c, t.eng.cmds = s.eng.cmds ++ [c] ∧ c.warp = s.cur.id ∧ c.wg = s.wg.key ∧ c.epc = s.pc ∧ c.k = k ∧ c.pieces = [] ∧ P c

/-- One operation goes last in the anvil's queue, on a tile (R220). -/
def enqueued (s t : State) (tile : Nat) (op : AOp) (waits : Bool) : Prop :=
  ∃ a, t.eng.anvil = s.eng.anvil ++ [a] ∧ a.warp = s.cur.id ∧ a.wg = s.wg.key ∧ a.core = s.cur.id.core ∧ a.tile = tile ∧ a.op = op ∧
    a.started = false ∧ a.waitsCopy = waits

/-! ## Events -/

/-- One warp became `w`; every other warp, the bytes of memory, the engines, the scheduler, the fabric and the clocks are what they were. -/
def onlyWarp (s t : State) (id : WarpId) (w : Warp) : Prop :=
  t.warpAt id = some w ∧ (∀ j, j ≠ id → t.warpAt j = s.warpAt j) ∧ t.cur.id = s.cur.id ∧ t.mem.mem = s.mem.mem ∧ t.eng = s.eng ∧
  t.sched = s.sched ∧ t.fab = s.fab ∧ t.clk = s.clk ∧ t.time = s.time

/-- The view in which a command's events act: its warp and its workgroup in focus, and members of its gang that ended after it was
issued still there (R239, R435). -/
def State.viewOf (s : State) (c : Cmd) : State :=
  let t := s.asCmd c
  t.reStatus (fun _ => .resident) ((t.lateMembers c).map (fun g => g.key))

/-- Bytes that land one after another: the last one on a cell stays. -/
def landed (m : Nat × Nat → Byte) (ts : List (Target × DWord × Byte)) : Nat × Nat → Byte :=
  ts.foldl (fun m x => fun c => if (x.1.cells 1).contains c then x.2.2 else m c) m

/-- Bytes of an engine's write on this device, in plain memory or a scratchpad that stands. -/
def State.local1 (s : State) (ts : List (Target × DWord × Byte)) : Prop :=
  ∀ x ∈ ts, s.plain x.1 ∧ match x.1 with
    | .spad g _ => (s.wgOf g).isSome
    | .split _ _ _ => False
    | _ => True

end Sys2Proof.Machine
end

