-- ==== Sys2Proof/WellFormed.lean ====
section
/-! DEFINITION. Well-formed instructions: every field holds a value its encoding admits and the instruction accepts. -/
namespace Sys2Proof

/-- The instruction can be encoded, and its word passes the decode checks 0x001, 0x002, 0x006 and 0x020 of R98. An
event row has no encoding and is not well-formed. -/
def wellFormed : Instr → Bool
  | .nop h => h.wf && decide (h.sb = 0)
  | .mov h ty d a => h.wf && d.wf && a.wf && ty.isInt && decide (h.sb = 0)
  | .movImm h ty d imm => h.wf && d.wf && ty.isInt && immFits ty imm && decide (h.sb = 0)
  | .iadd h ty _ _ _ d a b => h.wf && d.wf && a.wf && b.wf && ty.isInt && decide (h.sb = 0)
  | .iaddImm h ty _ d a imm => h.wf && d.wf && a.wf && ty.isInt && immFits ty imm && decide (h.sb = 0)
  | .isub h ty _ d a b => h.wf && d.wf && a.wf && b.wf && ty.isInt && decide (h.sb = 0)
  | .isubImm h ty _ d a imm => h.wf && d.wf && a.wf && ty.isInt && immFits ty imm && decide (h.sb = 0)
  | .iaddc h ty ci pd d a b => h.wf && decide (ci < 32) && decide (pd < 32) && d.wf && a.wf && b.wf && ty.isB && decide (h.sb = 0)
  | .iaddcImm h ty ci pd d a _ => h.wf && decide (ci < 32) && decide (pd < 32) && d.wf && a.wf && ty.isB && decide (h.sb = 0)
  | .imul h ty _ d a b => h.wf && d.wf && a.wf && b.wf && ty.isInt && decide (h.sb = 0)
  | .imulImm h ty _ d a imm => h.wf && d.wf && a.wf && ty.isInt && immFits ty imm && decide (h.sb = 0)
  | .imulh h ty d a b => h.wf && d.wf && a.wf && b.wf && ty.isWord && decide (h.sb = 0)
  | .imulhImm h ty d a _ => h.wf && d.wf && a.wf && ty.isWord && decide (h.sb = 0)
  | .imad h ty _ _ d a b c => h.wf && d.wf && a.wf && b.wf && c.wf && ty.isInt && decide (h.sb = 0)
  | .imadImm h ty _ d a imm => h.wf && d.wf && a.wf && ty.isInt && immFits ty imm && decide (h.sb = 0)
  | .imadw h ty _ d a b c => h.wf && d.wf && a.wf && b.wf && c.wf && ty.is32 && decide (h.sb = 0)
  | .imadwImm h ty _ d a _ => h.wf && d.wf && a.wf && ty.is32 && decide (h.sb = 0)
  | .imin h ty d a b => h.wf && d.wf && a.wf && b.wf && ty.isInt && decide (h.sb = 0)
  | .iminImm h ty d a imm => h.wf && d.wf && a.wf && ty.isInt && immFits ty imm && decide (h.sb = 0)
  | .imax h ty d a b => h.wf && d.wf && a.wf && b.wf && ty.isInt && decide (h.sb = 0)
  | .imaxImm h ty d a imm => h.wf && d.wf && a.wf && ty.isInt && immFits ty imm && decide (h.sb = 0)
  | .iabs h ty _ d a => h.wf && d.wf && a.wf && ty.isSignedInt && decide (h.sb = 0)
  | .iabsImm h ty _ d imm => h.wf && d.wf && ty.isSignedInt && immFits ty imm && decide (h.sb = 0)
  | .shl h ty _ d a b => h.wf && d.wf && a.wf && b.wf && ty.isInt && decide (h.sb = 0)
  | .shlImm h ty _ d a imm => h.wf && d.wf && a.wf && ty.isInt && immFits ty imm && decide (h.sb = 0)
  | .shr h ty d a b => h.wf && d.wf && a.wf && b.wf && ty.isInt && decide (h.sb = 0)
  | .shrImm h ty d a imm => h.wf && d.wf && a.wf && ty.isInt && immFits ty imm && decide (h.sb = 0)
  | .sar h ty d a b => h.wf && d.wf && a.wf && b.wf && ty.isInt && decide (h.sb = 0)
  | .sarImm h ty d a imm => h.wf && d.wf && a.wf && ty.isInt && immFits ty imm && decide (h.sb = 0)
  | .and h ty _ _ d a b => h.wf && d.wf && a.wf && b.wf && ty.isInt && decide (h.sb = 0)
  | .andImm h ty d a imm => h.wf && d.wf && a.wf && ty.isInt && immFits ty imm && decide (h.sb = 0)
  | .or h ty _ _ d a b => h.wf && d.wf && a.wf && b.wf && ty.isInt && decide (h.sb = 0)
  | .orImm h ty d a imm => h.wf && d.wf && a.wf && ty.isInt && immFits ty imm && decide (h.sb = 0)
  | .xor h ty _ _ d a b => h.wf && d.wf && a.wf && b.wf && ty.isInt && decide (h.sb = 0)
  | .xorImm h ty d a imm => h.wf && d.wf && a.wf && ty.isInt && immFits ty imm && decide (h.sb = 0)
  | .lut3 h ty _ d a b c => h.wf && d.wf && a.wf && b.wf && c.wf && ty.isInt && decide (h.sb = 0)
  | .lut3Imm h ty _ _ d a imm => h.wf && d.wf && a.wf && ty.isInt && immFits ty imm && decide (h.sb = 0)
  | .popc h ty d a => h.wf && d.wf && a.wf && ty.isInt && decide (h.sb = 0)
  | .clz h ty d a => h.wf && d.wf && a.wf && ty.isInt && decide (h.sb = 0)
  | .bfe h ty d a b => h.wf && d.wf && a.wf && b.wf && ty.isInt && decide (h.sb = 0)
  | .bfeImm h ty d a imm => h.wf && d.wf && a.wf && ty.isInt && immFits ty imm && decide (h.sb = 0)
  | .bfi h ty d a b c => h.wf && d.wf && a.wf && b.wf && c.wf && ty.isInt && decide (h.sb = 0)
  | .bfiImm h ty d a imm => h.wf && d.wf && a.wf && ty.isInt && immFits ty imm && decide (h.sb = 0)
  | .bpick h d a b c => h.wf && d.wf && a.wf && b.wf && c.wf && decide (h.sb = 0)
  | .bpickImm h d a _ => h.wf && d.wf && a.wf && decide (h.sb = 0)
  | .sel h ty pr _ d a b => h.wf && decide (pr < 32) && d.wf && a.wf && b.wf && ty.isWord && decide (h.sb = 0)
  | .selImm h ty pr _ d a _ => h.wf && decide (pr < 32) && d.wf && a.wf && ty.isWord && decide (h.sb = 0)
  | .icmp h ty _ pd a b => h.wf && decide (pd < 32) && a.wf && b.wf && ty.isInt && decide (h.sb = 0)
  | .icmpImm h ty _ pd a imm => h.wf && decide (pd < 32) && a.wf && ty.isInt && immFits ty imm && decide (h.sb = 0)
  | .lea h ty sh d a b => h.wf && decide (sh < 8) && d.wf && a.wf && b.wf && ty.isWord && decide (h.sb = 0)
  | .leaImm h ty sh d a _ => h.wf && decide (sh < 8) && d.wf && a.wf && ty.isWord && decide (h.sb = 0)
  | .idot4 h ty _ _ _ d a b c => h.wf && d.wf && a.wf && b.wf && c.wf && ty.is32 && decide (h.sb = 0)
  | .umov h ty d a => h.wf && d.wf && a.wf && ty.isWord && decide (h.sb = 0)
  | .umovImm h ty d _ => h.wf && d.wf && ty.isWord && decide (h.sb = 0)
  | .uadd h ty _ _ _ d a b => h.wf && d.wf && a.wf && b.wf && ty.isWord && decide (h.sb = 0)
  | .uaddImm h ty _ d a _ => h.wf && d.wf && a.wf && ty.isWord && decide (h.sb = 0)
  | .usub h ty _ d a b => h.wf && d.wf && a.wf && b.wf && ty.isWord && decide (h.sb = 0)
  | .usubImm h ty _ d a _ => h.wf && d.wf && a.wf && ty.isWord && decide (h.sb = 0)
  | .umul h ty _ d a b => h.wf && d.wf && a.wf && b.wf && ty.isWord && decide (h.sb = 0)
  | .umulImm h ty _ d a _ => h.wf && d.wf && a.wf && ty.isWord && decide (h.sb = 0)
  | .umad h ty _ _ d a b c => h.wf && d.wf && a.wf && b.wf && c.wf && ty.isWord && decide (h.sb = 0)
  | .umadImm h ty _ d a _ => h.wf && d.wf && a.wf && ty.isWord && decide (h.sb = 0)
  | .umin h ty d a b => h.wf && d.wf && a.wf && b.wf && ty.isWord && decide (h.sb = 0)
  | .uminImm h ty d a _ => h.wf && d.wf && a.wf && ty.isWord && decide (h.sb = 0)
  | .umax h ty d a b => h.wf && d.wf && a.wf && b.wf && ty.isWord && decide (h.sb = 0)
  | .umaxImm h ty d a _ => h.wf && d.wf && a.wf && ty.isWord && decide (h.sb = 0)
  | .ushl h ty _ d a b => h.wf && d.wf && a.wf && b.wf && ty.isWord && decide (h.sb = 0)
  | .ushlImm h ty _ d a _ => h.wf && d.wf && a.wf && ty.isWord && decide (h.sb = 0)
  | .ushr h ty d a b => h.wf && d.wf && a.wf && b.wf && ty.isWord && decide (h.sb = 0)
  | .ushrImm h ty d a _ => h.wf && d.wf && a.wf && ty.isWord && decide (h.sb = 0)
  | .usar h ty d a b => h.wf && d.wf && a.wf && b.wf && ty.isWord && decide (h.sb = 0)
  | .usarImm h ty d a _ => h.wf && d.wf && a.wf && ty.isWord && decide (h.sb = 0)
  | .uand h ty _ _ d a b => h.wf && d.wf && a.wf && b.wf && ty.isWord && decide (h.sb = 0)
  | .uandImm h ty d a _ => h.wf && d.wf && a.wf && ty.isWord && decide (h.sb = 0)
  | .uor h ty _ _ d a b => h.wf && d.wf && a.wf && b.wf && ty.isWord && decide (h.sb = 0)
  | .uorImm h ty d a _ => h.wf && d.wf && a.wf && ty.isWord && decide (h.sb = 0)
  | .uxor h ty _ _ d a b => h.wf && d.wf && a.wf && b.wf && ty.isWord && decide (h.sb = 0)
  | .uxorImm h ty d a _ => h.wf && d.wf && a.wf && ty.isWord && decide (h.sb = 0)
  | .ucmp h ty _ pd a b => h.wf && decide (pd < 32) && a.wf && b.wf && ty.isWord && decide (h.sb = 0)
  | .ucmpImm h ty _ pd a _ => h.wf && decide (pd < 32) && a.wf && ty.isWord && decide (h.sb = 0)
  | .ulea h ty sh d a b => h.wf && decide (sh < 8) && d.wf && a.wf && b.wf && ty.isWord && decide (h.sb = 0)
  | .uleaImm h ty sh d a _ => h.wf && decide (sh < 8) && d.wf && a.wf && ty.isWord && decide (h.sb = 0)
  | .plut3 h _ _ _ _ pd pa pb pc => h.wf && decide (pd < 32) && decide (pa < 32) && decide (pb < 32) && decide (pc < 32) && decide (h.sb = 0)
  | .pmovTov h _ d pa => h.wf && d.wf && decide (pa < 32) && decide (h.sb = 0)
  | .pmovFromv h pd a => h.wf && decide (pd < 32) && a.wf && a.notQ && decide (h.sb = 0)
  | .pmovSave h d => h.wf && d.wf && decide (h.sb = 0)
  | .pmovLoad h a => h.wf && a.wf && a.notQ && decide (h.sb = 0)
  | .vote h _ _ pd pa => h.wf && decide (pd < 32) && decide (pa < 32) && decide (h.sb = 0)
  | .ballot h _ d pa => h.wf && d.wf && decide (pa < 32) && decide (h.sb = 0)
  | .lget h _ g ty pd d a b => h.wf && decide (g < 8) && decide (pd < 32) && d.wf && a.wf && b.wf && decide (g < 7) && ty.isB && a.notQ && b.notQ && decide (h.sb = 0)
  | .pswap h ln neglo ty d a => h.wf && decide (ln < 8) && d.wf && a.wf && decide (ln < 7) && ty.isSwap && ((!neglo || !ty.isB)) && a.notQ && decide (h.sb = 0)
  | .matchv h ty pd d a => h.wf && decide (pd < 32) && d.wf && a.wf && ty.isB && a.notQ && decide (h.sb = 0)
  | .lred h op rm ty d a => h.wf && d.wf && a.wf && ty.isRed && ((!ty.isFloat || !op.isBitwise)) && a.notQ && (rm.isZero || (op.isSum && ty.isFloat)) && decide (h.sb = 0)
  | .scan h op _ rm ty d a => h.wf && d.wf && a.wf && ty.isRed && ((!ty.isFloat || !op.isBitwise)) && a.notQ && (rm.isZero || (op.isSum && ty.isFloat)) && decide (h.sb = 0)
  | .readl h ty d a b => h.wf && d.wf && a.wf && b.wf && ty.isB && a.notQ && b.notQ
  | .readlFirst h ty d a => h.wf && d.wf && a.wf && ty.isB && a.notQ
  | .fadd h ty _ _ _ _ d a b => h.wf && d.wf && a.wf && b.wf && ty.isFloat && decide (h.sb = 0)
  | .faddImm h ty _ _ d a imm => h.wf && d.wf && a.wf && ty.isFloat && immFits ty imm && decide (h.sb = 0)
  | .fmul h ty _ _ _ _ d a b => h.wf && d.wf && a.wf && b.wf && ty.isFloat && decide (h.sb = 0)
  | .fmulImm h ty _ _ d a imm => h.wf && d.wf && a.wf && ty.isFloat && immFits ty imm && decide (h.sb = 0)
  | .ffma h ty _ _ _ _ _ d a b c => h.wf && d.wf && a.wf && b.wf && c.wf && ty.isFloat && decide (h.sb = 0)
  | .ffmaImm h ty _ _ d a imm => h.wf && d.wf && a.wf && ty.isFloat && immFits ty imm && decide (h.sb = 0)
  | .fmin h ty _ _ d a b => h.wf && d.wf && a.wf && b.wf && ty.isFloat && decide (h.sb = 0)
  | .fminImm h ty d a imm => h.wf && d.wf && a.wf && ty.isFloat && immFits ty imm && decide (h.sb = 0)
  | .fmax h ty _ _ d a b => h.wf && d.wf && a.wf && b.wf && ty.isFloat && decide (h.sb = 0)
  | .fmaxImm h ty d a imm => h.wf && d.wf && a.wf && ty.isFloat && immFits ty imm && decide (h.sb = 0)
  | .fcmp h ty _ _ _ pd a b => h.wf && decide (pd < 32) && a.wf && b.wf && ty.isScalarFloat && decide (h.sb = 0)
  | .fcmpImm h ty _ pd a imm => h.wf && decide (pd < 32) && a.wf && ty.isScalarFloat && immFits ty imm && decide (h.sb = 0)
  | .fclass h ty d a => h.wf && d.wf && a.wf && ty.isScalarFloat && decide (h.sb = 0)
  | .fclassTest h ty pd a b => h.wf && decide (pd < 32) && a.wf && b.wf && ty.isScalarFloat && decide (h.sb = 0)
  | .frnd h ty _ d a => h.wf && d.wf && a.wf && ty.isFloat && decide (h.sb = 0)
  | .ffrac h ty d a => h.wf && d.wf && a.wf && ty.isFloat && decide (h.sb = 0)
  | .fscale h ty _ _ d a b => h.wf && d.wf && a.wf && b.wf && ty.isScalarFloat && decide (h.sb = 0)
  | .cvt h ty sel sk _ _ d a => h.wf && decide (sel < 8) && decide (sk < 32) && d.wf && a.wf && cvtOk ty sel sk d a && decide (h.sb = 0)
  | .cvtq h tk sk _ _ d a b c => h.wf && d.wf && a.wf && b.wf && c.wf && sk.isScalarFloat && (tk.grouped || c.isZeroCode) && decide (h.sb = 0)
  | .dq h ty kind _ _ d a b c => h.wf && d.wf && a.wf && b.wf && c.wf && ty.isScalarFloat && (kind.grouped || c.isZeroCode) && decide (h.sb = 0)
  | .rcp h ty _ d a => h.wf && d.wf && a.wf && ty.isScalarFloat && decide (h.sb = 0)
  | .rsq h ty _ d a => h.wf && d.wf && a.wf && ty.isScalarFloat && decide (h.sb = 0)
  | .sqrt h ty _ _ d a => h.wf && d.wf && a.wf && ty.isScalarFloat && decide (h.sb = 0)
  | .exp2 h ty _ d a => h.wf && d.wf && a.wf && ty.isScalarFloat && decide (h.sb = 0)
  | .log2 h ty _ d a => h.wf && d.wf && a.wf && ty.isScalarFloat && decide (h.sb = 0)
  | .sinr h ty _ d a => h.wf && d.wf && a.wf && ty.isScalarFloat && decide (h.sb = 0)
  | .cosr h ty _ d a => h.wf && d.wf && a.wf && ty.isScalarFloat && decide (h.sb = 0)
  | .bra h _ pr _ _ _ => h.wf && decide (pr < 32) && decide (h.sb = 0)
  | .brx h _ vv pr _ a _ => h.wf && decide (pr < 32) && a.wf && ((!vv || a.isTarget)) && decide (h.sb = 0)
  | .call h _ => h.wf && decide (h.sb = 0)
  | .callInd h a => h.wf && a.wf && decide (h.sb = 0)
  | .ret h pr _ => h.wf && decide (pr < 32) && decide (h.sb = 0)
  | .exit h => h.wf && decide (h.sb = 0)
  | .breakp h pr _ _ => h.wf && decide (pr < 32) && decide (h.sb = 0)
  | .movemRd h d => h.wf && d.wf && decide (h.sb = 0)
  | .movemWr h a => h.wf && a.wf && decide (h.sb = 0)
  | .bar h _ sc id n => h.wf && decide (id < 16) && decide (n < 32) && sc.upToDev && decide (h.sb = 0)
  | .barg h _ sc id => h.wf && decide (id < 8) && sc.gangOrDev && decide (h.sb = 0)
  | .launch h pr a b => h.wf && decide (pr < 32) && a.wf && b.wf && b.notQ
  | .cancel h _ => h.wf && decide (h.sb = 0)
  | .cancelId h lv a => h.wf && a.wf && lv.hasId && decide (h.sb = 0)
  | .yieldw h => h.wf && decide (h.sb = 0)
  | .sleep h _ => h.wf && decide (h.sb = 0)
  | .sleepWatch h a _ => h.wf && a.wf && decide (h.sb = 0)
  | .syscall h d a _ => h.wf && d.wf && a.wf
  | .trap h n => h.wf && decide (n < 16) && decide (h.sb = 0)
  | .rett h => h.wf && decide (h.sb = 0)
  | .idend h => h.wf && decide (h.sb = 0)
  | .time h _ d => h.wf && d.wf
  | .movsr h idx d => h.wf && decide (idx < 32) && d.wf
  | .setsr h idx a => h.wf && decide (idx < 32) && a.wf && decide (h.sb = 0)
  | .ld h sp _ _ hint fe _ d a => h.wf && decide (hint < 8) && d.wf && a.wf && ((!fe || sp.feOk))
  | .st h sp _ hint fe _ a b => h.wf && decide (hint < 8) && a.wf && b.wf && ((!fe || sp.feOk))
  | .ldu h _ _ _ hint _ d a => h.wf && decide (hint < 8) && d.wf && a.wf
  | .atom h _ sp sz _ _ d a b => h.wf && d.wf && a.wf && b.wf && sp.atomOk && sz.isWord && b.notQ
  | .cas h sp sz _ _ d a b => h.wf && d.wf && a.wf && b.wf && sp.atomOk && sz.isWord && b.isReg
  | .red h op sp sz _ _ a b => h.wf && a.wf && b.wf && sp.atomOk && sz.isWord && op.redOk && b.notQ
  | .fence h _ _ => h.wf
  | .pref h sp hint _ _ a => h.wf && decide (hint < 8) && a.wf && sp.genOrGlob
  | .cflush h sp _ a => h.wf && a.wf && sp.genOrGlob
  | .cinv h sp sc _ a => h.wf && a.wf && sp.genOrGlob && sc.wgOrDev
  | .space h d a => h.wf && d.wf && a.wf && d.notQ && a.isReg
  | .cvta h _ sp d a => h.wf && d.wf && a.wf && sp.isNamed && d.notQ && a.isReg
  | .gwin h d a b => h.wf && d.wf && a.wf && b.wf
  | .gwinSelf h d b => h.wf && d.wf && b.wf
  | .spfe h mode n d a => h.wf && decide (n < 16384) && d.wf && a.wf && (mode.isTest || d.isZeroCode)
  | .hflush h sp _ a => h.wf && a.wf && sp.hflushOk
  | .ownreq h _ k a => h.wf && decide (k < 16) && a.wf
  | .frz h sc k d a b => h.wf && decide (k < 16) && d.wf && a.wf && b.wf && sc.frzOk
  | .thaw h k a => h.wf && decide (k < 16) && a.wf
  | .frzq h d a => h.wf && d.wf && a.wf
  | .rbegin h d a => h.wf && d.wf && a.wf
  | .rcommit h => h.wf
  | .strbIn h port _ hint e a b => h.wf && decide (port < 8) && decide (hint < 8) && decide (e < 32) && a.wf && b.wf
  | .strbOut h port _ k hint a b => h.wf && decide (port < 8) && decide (k < 16) && decide (hint < 8) && a.wf && b.wf
  | .strbQin h port _ e pw pp => h.wf && decide (port < 8) && decide (e < 32) && decide (pw < 16) && decide (pp < 8)
  | .strbQout h port _ pw pp => h.wf && decide (port < 8) && decide (pw < 16) && decide (pp < 8)
  | .strstat h port d => h.wf && decide (port < 8) && d.wf
  | .strflush h port => h.wf && decide (port < 8)
  | .strclose h port => h.wf && decide (port < 8)
  | .copy h _ _ hint k d a b => h.wf && decide (hint < 8) && decide (k < 16) && d.wf && a.wf && b.wf
  | .copyg h _ hint k d a b => h.wf && decide (hint < 8) && decide (k < 16) && d.wf && a.wf && b.wf
  | .copygSlot h slot _ _ hint k off a b => h.wf && decide (slot < 64) && decide (hint < 8) && decide (k < 16) && decide (off < 128) && a.wf && b.wf
  | .copym h slot _ _ _ hint k off a b => h.wf && decide (slot < 64) && decide (hint < 8) && decide (k < 16) && decide (off < 128) && a.wf && b.wf
  | .waitk h _ => h.wf
  | .kadd h k a => h.wf && decide (k < 16) && a.wf
  | .kaddImm h k _ => h.wf && decide (k < 16)
  | .rowcpy h k d a c => h.wf && decide (k < 16) && d.wf && a.wf && c.wf
  | .rowzero h k d c => h.wf && decide (k < 16) && d.wf && c.wf
  | .rank h _ n k d a b => h.wf && decide (n < 32) && decide (k < 16) && d.wf && a.wf && b.wf && decide (1 ≤ n) && decide (n ≤ 16)
  | .route h pd d a b c => h.wf && decide (pd < 32) && d.wf && a.wf && b.wf && c.wf
  | .tgen h t k d a b c => h.wf && decide (t < 256) && decide (k < 16) && d.wf && a.wf && b.wf && c.wf && decide (1 ≤ t) && decide (t ≤ 128)
  | .claimo h o n1 => h.wf && decide (o < 64) && decide (n1 < 64)
  | .relo h o n1 => h.wf && decide (o < 64) && decide (n1 < 64)
  | .claima h t n1 => h.wf && decide (t < 16) && decide (n1 < 16)
  | .rela h t n1 => h.wf && decide (t < 16) && decide (n1 < 16)
  | .mma h _ hk _ fs t oa ob k => h.wf && decide (fs < 8) && decide (t < 16) && decide (oa < 64) && decide (ob < 64) && decide (k < 16) && (hk || k == 0)
  | .mmas h _ hk _ fs t oa ob om k => h.wf && decide (fs < 8) && decide (t < 16) && decide (oa < 64) && decide (ob < 64) && decide (om < 64) && decide (k < 16) && (hk || k == 0)
  | .accz h t => h.wf && decide (t < 16)
  | .accld h t k d a => h.wf && decide (t < 16) && decide (k < 16) && d.wf && a.wf
  | .accst h t k d a => h.wf && decide (t < 16) && decide (k < 16) && d.wf && a.wf
  | .accred h _ _ t k d a => h.wf && decide (t < 16) && decide (k < 16) && d.wf && a.wf
  | .accrd h t n1 d a => h.wf && decide (t < 16) && decide (n1 < 16) && d.wf && a.wf
  | .slotwr h _ o d a => h.wf && decide (o < 64) && d.wf && a.wf && d.notQ
  | .slotrd h _ o d a => h.wf && decide (o < 64) && d.wf && a.wf
  | .quadrantIssue _ _ => false
  | .fixedLatencyWriteback _ _ _ => false
  | .variableResultDone _ _ _ => false
  | .sleepWake _ _ => false
  | .yieldExpire _ _ => false
  | .warpSlotFree _ _ => false
  | .trapEntry _ _ _ _ _ => false
  | .impreciseFaultTaken _ _ => false
  | .pendingFaultTimeout _ _ _ => false
  | .remoteRollback _ _ => false
  | .pageWalk _ _ => false
  | .engineWriteLands _ _ => false
  | .copyBlockFetch _ _ => false
  | .copyLateFault _ _ => false
  | .followOnHandoff _ => false
  | .rowBlockWritten _ _ => false
  | .rowSourceWriteback _ => false
  | .rankRowWritten _ _ => false
  | .tgenDone _ => false
  | .anvilOpStart _ _ => false
  | .anvilOpComplete _ => false
  | .accredContributionArrive _ _ => false
  | .accredRoomFreed _ _ => false
  | .tongsPrefetch _ _ _ _ => false
  | .streamBeatWrite _ => false
  | .queueBeatSend _ _ _ => false
  | .freezeInstall _ => false
  | .generationRetirement _ _ _ _ => false
  | .retirementAck _ _ => false
  | .thawOverdue _ => false
  | .launchQueueFront _ => false
  | .launchDispatch => false
  | .dispatchReservation _ => false
  | .workgroupEnd _ => false
  | .launchComplete _ => false
  | .timeLimitExpiry _ => false
  | .preemptRequest _ _ => false
  | .contextSave _ => false
  | .contextRestore _ => false
  | .syscallServiceRun _ => false
  | .serviceDone _ _ => false
  | .serviceTimeout _ => false
  | .tlbInvalidate _ _ _ => false
  | .cancelLaunchCmd _ => false
  | .setJobWindow _ => false
  | .hostCopy _ _ _ => false
  | .unknownCommand _ => false
  | .cxlMemAccess _ _ _ => false
  | .hostCwinAccess _ _ _ _ => false
  | .ownershipTransfer _ _ => false
  | .tenureExpiry _ => false
  | .backinvTimeout _ => false
  | .hostLinkDown _ => false
  | .podFlitReceive _ _ => false
  | .podAckTimer _ => false
  | .podNackTimer _ => false
  | .podResendTimer _ _ => false
  | .planeDark _ _ _ => false
  | .linkSummarySend => false
  | .jobPacketReceive _ => false
  | .jobCompletionReceive _ _ => false
  | .jobRetransmitTimer _ _ _ => false
  | .landingCounterDeadline _ _ _ => false
  | .ethernetPortDown _ => false
  | .windowBoundary => false
  | .ptpSync _ => false
  | .preciseTimeLoss => false
  | .channelCounterSnapshot => false
  | .unitFence _ => false
  | .thermalThrottle _ => false
  | .thermalTrip _ => false
  | .supplyFault _ => false
  | .watchdogExpiry _ => false
  | .coldReset _ => false
  | .spdmRequest _ => false
  | .warmReset => false
  | .partitionReset _ => false
  | .partitionEnable _ _ => false
  | .devstatErrClear => false
  | .rtinvWrite _ => false
  | .planeenWrite _ _ => false
  | .quiesceWrite _ => false
  | .qdoorPush _ _ => false
  | .queueClose _ => false
  | .intmaskWrite _ _ => false
  | .intstatClear _ _ => false
  | .logringEnable _ _ => false
  | .registerWrite _ _ => false
  | .jobResponseReceive _ => false
  | .podFlitSend _ => false
  | .warmResetRetirementTimeout => false

end Sys2Proof
end

