-- ==== Sys2Proof/Certificates/Slice0/Obligations.lean ====
section
/-! DEFINITION. The statements: what the rules of the spec say the machine does, as propositions about `exec`, `step` and the operations they
call. The terms are those of Sys2Proof/Safety.lean. -/
open Sys2Proof Sys2Proof.Machine

/-- The encodings of R79 and R86 to R96: words written out by hand from the tables decode to their instructions. -/
def Obligations.WrittenWordsDecode : Prop :=
  let d := fun (bs : List Byte) => decodeTableWord 96 (wordOfBytes bs)
  d [0x02, 0x90, 0, 0, 3, 2, 8, 0, 0x10, 4, 0, 0] =
    some (.iadd ⟨2, false, 4, 0, 0, false⟩ .i32 true false false (.v 3) (.v 1) (.v 2)) ∧
  d [0x52, 0xD0, 7, 0, 8, 0x12, 0x80, 0x51, 0xF, 0xF, 0xF, 0xF] =
    some (.lut3Imm ⟨31, false, 4, 0, 0, false⟩ .b32 0x0A 6 (.v 8) (.v 9) 0x0F0F0F0F) ∧
  d [0xC5, 0xE8, 7, 0, 0xB, 0xC, 0, 0, 0x80, 0x80, 3, 0] =
    some (.pswap ⟨31, false, 10, 0, 0, false⟩ 6 true .f32 (.v 11) (.v 6)) ∧
  d [0x0A, 0xD9, 7, 0, 0x14, 0x14, 0, 0, 0xE0, 4, 2, 0] =
    some (.cvt ⟨31, false, 6, 0, 0, false⟩ .e4m3x4 0 8 .rn true (.v 20) (.v 10)) ∧
  d [0, 0x59, 0, 0, 1, 0xF0, 0xE1, 3, 0x80, 0, 0, 0] =
    some (.fadd ⟨1, false, 6, 0, 0, false⟩ .f32 .rn false false false (.v 1) (.q 0) (.q 0)) ∧
  d [0x80, 0xC1, 7, 0, 0, 0x20, 0, 3, 0, 0, 4, 0] = some (.bra ⟨31, false, 0, 0, 0, false⟩ false 1 false 3 4) ∧
  d [0x8E, 0xC1, 7, 0, 0, 0, 0, 0, 0, 3, 0, 0] = some (.trap ⟨31, false, 0, 0, 0, false⟩ 3) ∧
  d [0, 0x42, 0x20, 0, 6, 4, 0, 0, 1, 0, 0, 0] = some (.ld ⟨1, false, 0, 1, 0, false⟩ .gen .w32 .wg 0 false 0 (.v 6) (.v 2)) ∧
  d [3, 0xC2, 0x27, 0, 8, 8, 0x26, 0x20, 0xA1, 5, 4, 0] =
    some (.atom ⟨31, false, 0, 1, 0, false⟩ .fadd .glob .w32 .dev 0x40 (.v 8) (.s 4) (.v 9)) ∧
  d [0x85, 0xC2, 7, 0, 8, 9, 2, 0x18, 0, 0x86, 0, 0] = some (.rowcpy ⟨31, false, 0, 0, 0, false⟩ 3 (.s 8) (.s 4) (.s 12)) ∧
  d [0x15, 0xC6, 7, 0, 0, 0x40, 0x32, 4, 8, 1, 0x14, 0] =
    some (.strbIn ⟨31, false, 1, 0, 0, false⟩ 1 true 0 5 (.s 32) (.s 12)) ∧
  d [4, 0xC3, 7, 0, 0x20, 0x10, 0x40, 0x1C, 0, 0, 8, 0] = some (.mma ⟨31, false, 0, 0, 0, false⟩ true true .k32 1 0 2 4 2)

/-- The encodings of R79 and R86 to R96 lose no field: decoding the word of a well-formed instruction gives the instruction. -/
def Obligations.EncodedInstructionsDecodeBack : Prop := ∀ i : Instr, wellFormed i = true → decodeWord (encode i) = .ok i

/-- No bit of an accepted word is ignored (R87): a word that decodes to an instruction is that instruction's own word. -/
def Obligations.EachWordHasOneMeaning : Prop :=
  ∀ (w : Nat) (i : Instr), w < 2 ^ 96 → decodeWord w = .ok i → wellFormed i = true ∧ encode i = w

/-- R97: every opcode that is not listed traps with cause 0x000. -/
def Obligations.UnlistedOpcodesTrap : Prop :=
  ∀ (s : State) (a : Nat) (bs : List Byte),
    let w := slotWord bs (s.pc.toNat % 5)
    let op := w % 1024
    (0x01C ≤ op ∧ op ≤ 0x040 ∨ 0x053 ≤ op ∧ op ≤ 0x054 ∨ 0x05B ≤ op ∧ op ≤ 0x07F ∨ 0x08F ≤ op ∧ op ≤ 0x09F ∨
     0x0AF ≤ op ∧ op ≤ 0x0BF ∨ 0x0CA ≤ op ∧ op ≤ 0x0FF ∨ 0x114 ≤ op ∧ op ≤ 0x13F ∨ 0x146 ≤ op ∧ op ≤ 0x17F ∨
     0x194 ≤ op ∧ op ≤ 0x1FF ∨ 0x219 ≤ op ∧ op ≤ 0x27F ∨ 0x28A ≤ op ∧ op ≤ 0x2FF ∨ 0x30D ≤ op) →
    decodeWord w = .error 0x000 ∧
    s.decodeSlot a bs = .act ((s.modCur (fun v => v.modPath (fun p => { p with line := some (a, bs), arr := none, refilled := false }))).precise 0x000 0)

/-- R69, R240: a step executes what the bytes at the slot decode to. The agenda and the quadrant that is due are the model's own (log 1). -/
def Obligations.StepRunsTheDecodedInstruction : Prop :=
  let follow := fun (i : Instr) (t : State) => match exec i t with
    | .next u => Host.Outcome.next (if (hdrOf i).isSome then t.afterInstr exec i u else u)
    | .fault r => .fault r
    | .refused r => .refused r
  (∀ (s u t : State) (core quad : Nat) (o : Option Instr),
    (s.due = some (core, quad) ∧ u = { s with due := none } ∨
      s.due = none ∧ s.agenda = [] ∧ core = s.cur.id.core ∧ quad = s.cur.id.slot / 16 ∧ u = s) →
    u.issue exec core quad = (t, o) →
    match o with
    | none => step s = .next t
    | some i => (∃ bs, t.cur.path.line = some (lineAddr t.pc, bs) ∧ decodeWord (slotWord bs (t.pc.toNat % 5)) = .ok i) ∧ step s = follow i t) ∧
  (∀ (s : State) (i : Instr) (rest : List Instr), s.due = none → s.agenda = i :: rest → step s = follow i { s with agenda := rest })

/-- R69 to R78, R240, R264: from reset with a word placed (log 8), the next step fetches and executes the instruction of that word. -/
def Obligations.PlacedInstructionRuns : Prop :=
  ∀ (w : Nat) (i : Instr), w < 2 ^ 96 → decodeWord w = .ok i →
    ∃ t, step (State.reset.withFetchWord 96 w) = (match exec i t with
        | .next u => .next (t.afterInstr exec i u)
        | .fault r => .fault r
        | .refused r => .refused r) ∧
      t.pc = placeSlot ∧ t.cur.em = Mask.full ∧ t.cur.pend = [] ∧ t.cur.stack = [] ∧ t.mem.mem = (State.reset.withFetchWord 96 w).mem.mem ∧
      t.cur.path.line = some (lineAddr placeSlot, placeLine w)

/-- R50, R98: a failing check is a precise fault, raised before any effect and whatever the guard and em hold. -/
def Obligations.FailedChecksTrapBeforeAnyEffect : Prop :=
  ∀ (i : Instr) (h : Hdr) (s : State) (c : Nat), hdrOf i = some h → issueCause (s.checked i) i h = some c →
    exec i s = .next ((s.checked i).precise c 0)

/-- R162, R271, R275: entering the handler. A walk error is logged beside it (R267, R278). -/
def Obligations.TrapEntry : Prop :=
  ∀ (s : State) (c : Nat) (a : DWord),
    s.wg.kern.handler ≠ 0 → s.cur.trapMode = false → s.cur.issuing = 0 → s.cur.stack.length < 32 → s.roomFor 1 = true →
    let u := (s.logWalk s.cur.id c s.pc a).logSpill c s.pc a
    ∃ hp : Path, hp.pc = s.wg.kern.handler ∧ hp.rpc = trapMark ∧ hp.mask = s.cur.path.mask ∧ hp.creation = s.cur.path.mask ∧
      hp.isRec = false ∧ hp.arr = some 0 ∧
      s.precise c a = { u with cur := { s.cur with
        stack := hp :: s.cur.stack, cause := BitVec.ofNat 9 c, epc := s.pc, fault := a, trapMode := true,
        nextPid := s.cur.nextPid + 1, pend := s.cur.settle.pend } } ∧
      (¬ (0x080 ≤ c ∧ c < 0x0A0 ∧ c % 8 = 5) → c ≠ 0x06C → u = s)

/-- R162, R271, R280, R413: no handler, and the double fault: the launch is cancelled with the cause, its warps stop, and the black-box log holds
the event. -/
def Obligations.TrapWithoutHandlerOrTwiceEndsTheWarp : Prop :=
  ∀ (s : State) (c : Nat) (epc a : DWord),
    let t := s.trap c epc a
    -- what cancelling the launch leaves
    let ends := t.cur.id = s.cur.id ∧ t.mem = s.mem ∧ t.fab = s.fab ∧
      t.sched.launches = s.sched.launches.map (fun l =>
        if l.key = s.wg.launch ∧ l.cancelled = false then { l with cancelled := true, cause := if l.cause = 0 then c else l.cause } else l) ∧
      (∀ g ∈ t.allWgs, g.launch = s.wg.launch → g.here = false) ∧
      (∀ g ∈ s.allWgs, g.launch = s.wg.launch → g.here = true → ∀ w ∈ t.allWarps, w.wg = g.key → w.running = false)
    (s.wg.kern.handler = 0 → ends ∧
      (∃ e, t.logs.events.head? = some e ∧ e.kind = 2 ∧ e.cause = c ∧ e.part = s.wg.part ∧ e.core = s.cur.id.core ∧ e.slot = s.cur.id.slot ∧
        e.epc = epc ∧ e.addr = a) ∧
      (s.cur.wg = s.wg.key → s.wg.here = true → t.cur.running = false)) ∧
    (s.wg.kern.handler ≠ 0 → s.cur.trapMode = true → ends ∧ t.cur.running = false ∧
      (∃ e, t.logs.events.head? = some e ∧ e.kind = 2 ∧ e.cause = c ∧ e.epc = epc ∧ e.addr = a) ∧
      (s.sched.saved = [] → ∃ e1 e2 e3 : BbEvent, t.logs.events.take 3 = [e1, e2, e3] ∧ e2.kind = 4 ∧ e2.cause = c ∧ e2.epc = epc ∧ e2.addr = a ∧
        e3.kind = 3 ∧ e3.cause = s.cur.cause.toNat ∧ e3.epc = s.cur.epc ∧ e3.addr = s.cur.fault))

/-- R163: the return from a trap. -/
def Obligations.RettReturnsToTheSavedSlot : Prop :=
  ∀ (s : State) (h : Hdr), clears (.rett h) h s → lanesOn (.rett h) h s ≠ 0 →
    (s.cur.trapMode = true → s.cur.path.rpc = trapMark → s.cur.issuing = 0 → s.cur.stack ≠ [] →
      ∃ t, exec (.rett h) s = .next t ∧ t.cur.trapMode = false ∧ t.pc = s.cur.epc ∧ t.cur.path.arr = some s.pc ∧
        t.cur.stack.length = s.cur.stack.length - 1 ∧ t.cur.stack.map (·.mask) = (s.cur.stack.drop 1).map (·.mask) ∧
        t = { s with freeCtr := s.freeCtr + 1, cur := { s.cur with
          stack := t.cur.stack, base := t.cur.base, trapMode := false, issuing := 0, sb := (s.cur.countSb h.sb).sb, pend := t.cur.pend } }) ∧
    (s.cur.trapMode = false → exec (.rett h) s = .next ((s.opened (.rett h) h).precise 0x06A 0)) ∧
    (s.cur.trapMode = true → s.cur.path.rpc ≠ trapMark → exec (.rett h) s = .next ((s.opened (.rett h) h).precise 0x06B 0))

/-- R81, R82: what a read returns before a result is certain. -/
def Obligations.UncertainReadsGiveOldOrNew : Prop :=
  ∀ (s : State) (n : Fin 240) (l : Fin 128),
    (certain s (.v n) → (s.readV n)[l] = s.cur.v[n][l]) ∧
    (∀ p ∈ s.cur.pend, s.cur.pend.filter (fun q => q.reg == .v n && q.uncertain) = [p] →
      (s.readV n)[l] = s.cur.v[n][l] ∨ p.mask.getLsbD l = true ∧ (s.readV n)[l] = p.old[l])

/-- R41: the predicate p31. -/
def Obligations.PredicateThirtyOneIsTrue : Prop :=
  ∀ s : State, s.readP 31 = BitVec.allOnes 128 ∧
    (∀ (m x : Mask) (lat : Machine.Lat), s.writeP 31 m x lat = s) ∧
    (∀ h : Hdr, h.pg = 31 → s.active h = if h.pn then 0 else s.cur.em)

/-- R99 to R111, R124 to R140: results of the lane-by-lane computations on registers, with their frame. -/
def Obligations.VectorResultsOnRegisters : Prop :=
  ∀ (s : State) (i : Instr) (h : Hdr) (q : VecShape) (r : Nat),
    vecShape i = some q → q.d = .v r → (∀ x ∈ q.srcs, isReg x.1 = true) → clears i h s →
    certain (s.opened i h) (.v r) → (q.n = 2 → certain (s.opened i h) (.v (r + 1))) →
    ∃ t, exec i s = .next t ∧
      wroteV s t r q.n (lanesOn i h s) (fun l => q.val l (q.srcs.map (fun x => ((s.opened i h).readVec x.1 x.2).getD l 0))) ∧
      onlyV (s.stepped h) t

/-- R111, R114, R131: outcomes of the vector tests on registers, with their frame. -/
def Obligations.VectorTestsOnRegisters : Prop :=
  ∀ (s : State) (i : Instr) (h : Hdr) (q : TestShape),
    testShape i = some q → (∀ x ∈ q.srcs, isReg x.1 = true) → clears i h s → certain (s.opened i h) (.p q.pd) →
    ∃ t, exec i s = .next t ∧
      wroteP s t q.pd (lanesOn i h s) (fun l => q.val l (q.srcs.map (fun x => ((s.opened i h).readVec x.1 x.2).getD l 0))) ∧
      onlyP (s.stepped h) t

/-- R99, R301, R306, R309, R310, R311: computations whose sources or destination are ports, and the element that each lane takes. -/
def Obligations.VectorComputationsOnPorts : Prop :=
  (∀ (s : State) (i : Instr) (h : Hdr) (q : VecShape), vecShape i = some q → clears i h s →
    let o := s.opened i h
    let act := lanesOn i h s
    (∀ (p : Pulled) (t : State), pull o act q.srcs = .ok p →
      p.s.putVec q.d q.n (act &&& ~~~p.dead) (Vector.ofFn (fun l : Fin 128 => q.val l (p.vals.map (fun x => x[l])))) (p.s.fixed q.lat) = .ok t →
      exec i s = .next (s.closed h (t.writeEnds p.ends (t.fixed q.lat)))) ∧
    (∀ (u : State) (c : Nat) (a : DWord), pull o act q.srcs = .trap u c a → exec i s = .next (o.popFault (o.keepDeferred u) c a)) ∧
    (∀ u : State, pull o act q.srcs = .hold u → exec i s = .next (o.keepWaits u))) ∧
  (∀ (s : State) (i : Instr) (h : Hdr) (q : TestShape) (p : Pulled), testShape i = some q → clears i h s →
    pull (s.opened i h) (lanesOn i h s) q.srcs = .ok p →
    ∃ t, t = p.s.writeP q.pd (lanesOn i h s &&& ~~~p.dead) (maskOf (fun l => q.val l (p.vals.map (fun x => x.getD l 0)))) (p.s.fixed q.lat) ∧
      exec i s = .next (s.closed h (t.writeEnds p.ends (t.fixed q.lat)))) ∧
  (∀ (s : State) (i : Instr) (h : Hdr) (q : VecShape) (r n w : Nat) (xs ys : List (Opd × Nat)) (p : Port) (el : Nat → DWord),
    let o := s.opened i h
    let act := lanesOn i h s
    let rank := fun (l : Nat) => ((Mask.lanes act).filter (fun k => decide (k < l))).length
    -- the instruction completes: these lanes compute with these elements, the end predicate takes the lanes left without one
    let done := fun (live : Mask) (x : Nat → DWord) (inside : Nat → Bool) (p' : Port) => ∃ t, exec i s = .next t ∧
      wroteV s t r q.n live (fun l => q.val l (xs.map (fun y => (o.readVec y.1 y.2).getD l 0) ++ x l :: ys.map (fun y => (o.readVec y.1 y.2).getD l 0))) ∧
      wroteP s t p.endP act (fun l => !inside l) ∧ t.port n = some p' ∧ t.mem.mem = s.mem.mem ∧
      t = { s.stepped h with
            cur := { (s.stepped h).cur with v := t.cur.v, p := t.cur.p, pend := t.cur.pend, ports := s.cur.ports.setIfInBounds n (some p') }
            mem := { s.mem with copies := t.mem.copies, home := t.mem.home }
            logs := { s.logs with counters := t.logs.counters } }
    vecShape i = some q → q.srcs = xs ++ (.q n, w) :: ys → q.d = .v r → (∀ y ∈ xs ++ ys, isReg y.1 = true) → clears i h s → act ≠ 0 →
    o.port n = some p → certain o (.v r) → (q.n = 2 → certain o (.v (r + 1))) → certain o (.p p.endP) →
    -- a layout: lane order when packed, one element for each lane number when lockstep, FILL beyond the end
    (let at_ := fun (l : Nat) => if p.packed then p.pos + rank l else p.pos + l
     let inside := fun (l : Nat) => decide (at_ l < p.len)
     let last := if p.packed then p.pos + ((Mask.lanes act).filter inside).length else min (p.pos + 128) p.len
     let fill := p.clip (BitVec.ofNat 64 (layOf p.record).fill)
     let ended := if p.packed then ∃ l ∈ Mask.lanes act, inside l = false else p.len ≤ p.pos
     p.mode = .inp → p.reread = false → p.deferred = none →
     (p.endP = 31 → ended → exec i s = .next ((o.keepDeferred o).precise (0x108 + n) 0)) ∧
     (¬ (p.endP = 31 ∧ ended) → last < 2 ^ 48 →
      (∀ l ∈ Mask.lanes act, inside l = true → match p.pre.find? (fun e => e.pos == at_ l), (layOf p.record).elem p.base (at_ l) with
        | some e, _ => e.fault = none ∧ el l = e.val
        | none, none => el l = fill
        | none, some (a, m, nib) => ∃ ts, engTargets o 0 a m = .ok ts ∧ (∀ x ∈ ts, o.plain x) ∧
          el l = BitVec.ofNat 64 (leNat (ts.map (fun x => ((x.cells 1).map o.cell).headD 0)) / 2 ^ (4 * nib) % 2 ^ p.width)) →
      done (if p.packed then act &&& maskOf inside else act) (fun l => if inside l then el l else fill) inside
        { p with pos := last, endSeen := p.endSeen || last == p.len, pre := p.pre.filter (fun e => last ≤ e.pos) })) ∧
    -- a queue: the oldest elements in lane order
    (let inside := fun (l : Nat) => decide (rank l < p.queue.length)
     let got := min (Mask.lanes act).length p.queue.length
     p.mode = .qin → (∀ v q', o.joined o.cur n = some (v, q') → o.warpAt v.id = some v ∧ q'.part.length < 128) →
     (p.queue.length < (Mask.lanes act).length → p.closed = false →
      exec i s = .next (if p.gone then (o.keepDeferred o).precise (0x110 + n) 0 else o)) ∧
     (p.queue.length < (Mask.lanes act).length → p.closed = true → p.endP = 31 → exec i s = .next ((o.keepDeferred o).precise (0x108 + n) 0)) ∧
     ((Mask.lanes act).length ≤ p.queue.length ∨ p.closed = true ∧ p.endP ≠ 31 → p.pos + got < 2 ^ 48 →
      done (act &&& maskOf inside) (fun l => p.queue.getD (rank l) 0) inside
        { p with pos := p.pos + got, queue := p.queue.drop (Mask.lanes act).length,
                 endSeen := p.closed && (p.queue.drop (Mask.lanes act).length).isEmpty })))

/-- R112, R113: the uniform computations and tests. -/
def Obligations.UniformResults : Prop :=
  (∀ (s : State) (i : Instr) (h : Hdr) (q : UniShape) (r : Nat),
    uniShape i = some q → q.d = .s r → clears i h s →
    certain (s.opened i h) (.s r) → (q.n = 2 → certain (s.opened i h) (.s (r + 1))) →
    ∃ t, exec i s = .next t ∧ onlyS (s.stepped h) t ∧
      (lanesOn i h s ≠ 0 → wroteS s t r q.n (q.val (q.srcs.map (fun x => (s.opened i h).readUni x.1 x.2)))) ∧
      (lanesOn i h s = 0 → t.cur.s = s.cur.s)) ∧
  (∀ (s : State) (n : Fin 128) (p : Pend), s.cur.pend.filter (fun q => q.reg == .s n && q.uncertain) = [p] →
    s.readS n = s.cur.s[n] ∨ s.readS n = p.old[0]) ∧
  (∀ (s : State) (i : Instr) (h : Hdr) (q : UniTestShape),
    uniTestShape i = some q → clears i h s → certain (s.opened i h) (.p q.pd) →
    ∃ t, exec i s = .next t ∧
      wroteP s t q.pd (lanesOn i h s) (fun _ => q.val (q.srcs.map (fun x => (s.opened i h).readUni x.1 x.2))) ∧
      onlyP (s.stepped h) t)

/-- R17 to R24, R124 to R142: the results of the float instructions, from the encodings of their operands, lane by lane and element by element.
Of EXP2, LOG2, SINR and COSR only the results that R141, R142 and R19 fix are stated, not the bounds of R140. -/
def Obligations.FloatResultsFollowTheRules : Prop :=
  ∀ (s : State) (h : Hdr) (ty : Ty) (rm : Rm) (sat na nb nc : Bool) (r : Nat) (a b c : Opd) (imm : BitVec 32),
    ty.isFloat = true → isReg a = true → isReg b = true → isReg c = true →
    let f := (fmtOf ty).1
    let w := 1 + f.eb + f.mb
    let n := tyRegs ty
    -- element j of an operand, its sign turned on request
    let elem := fun (neg : Bool) (x : DWord) (j : Nat) =>
      let e := x.toNat / 2 ^ (w * j) % 2 ^ w
      if neg then (if e < 2 ^ (w - 1) then e + 2 ^ (w - 1) else e - 2 ^ (w - 1)) else e
    let src := fun (neg : Bool) (o : Opd) (i : Instr) (l j : Nat) => elem neg (laneSrc s i h o n l) j
    let cst := fun (_ : Instr) (_ j : Nat) => elem false (immVal ty imm) j
    let scale := fun (i : Instr) (l : Nat) => (laneSrc s i h b 1 l).toNat
    -- each element of the result meets P, and nothing stands above the last
    let gives := fun (i : Instr) (P : Nat → Nat → Nat → Prop) => vecReady s i h r n → computes s i h r n (fun l y =>
      y.toNat < 2 ^ (w * (fmtOf ty).2) ∧ ∀ j < (fmtOf ty).2, P l j (elem false y j))
    let two := fun (i : Instr) (x y : Instr → Nat → Nat → Nat) (P : Nat → Nat → Nat → Prop) => gives i (fun l j => P (x i l j) (y i l j))
    let three := fun (i : Instr) (x y z : Instr → Nat → Nat → Nat) => gives i (fun l j => f.fused rm sat (x i l j) (y i l j) (z i l j))
    let one := fun (i : Instr) (neg : Bool) (P : Nat → Nat → Prop) => gives i (fun l j => P (src neg a i l j))
    let test := fun (i : Instr) (pd : Nat) (P : Nat → Prop) => clears i h s → certain (s.opened i h) (.p pd) →
      ∀ g : Nat → Bool, (∀ l, g l = true ↔ P l) → decides s i h pd g
    two (.fadd h ty rm sat na nb (.v r) a b) (src na a) (src nb b) (f.sum rm sat) ∧
    two (.faddImm h ty rm sat (.v r) a imm) (src false a) cst (f.sum rm sat) ∧
    two (.fmul h ty rm sat na nb (.v r) a b) (src na a) (src nb b) (f.product rm sat) ∧
    two (.fmulImm h ty rm sat (.v r) a imm) (src false a) cst (f.product rm sat) ∧
    two (.fmin h ty na nb (.v r) a b) (src na a) (src nb b) (f.pick false) ∧
    two (.fminImm h ty (.v r) a imm) (src false a) cst (f.pick false) ∧
    two (.fmax h ty na nb (.v r) a b) (src na a) (src nb b) (f.pick true) ∧
    two (.fmaxImm h ty (.v r) a imm) (src false a) cst (f.pick true) ∧
    three (.ffma h ty rm sat na nb nc (.v r) a b c) (src na a) (src nb b) (src nc c) ∧
    three (.ffmaImm h ty rm sat (.v r) a imm) (src false a) cst (src false (.v r)) ∧
    (ty.isScalarFloat = true →
      (∀ (cmp : FCmp) (pd : Nat), let i : Instr := .fcmp h ty cmp na nb pd a b
        test i pd (fun l => f.compares cmp (src na a i l 0) (src nb b i l 0))) ∧
      (∀ (cmp : FCmp) (pd : Nat), let i : Instr := .fcmpImm h ty cmp pd a imm
        test i pd (fun l => f.compares cmp (src false a i l 0) (cst i l 0))) ∧
      (let i : Instr := .fclass h ty (.v r) a
       vecReady s i h r 1 → computes s i h r 1 (fun l y => y.toNat = 2 ^ f.classNo (src false a i l 0))) ∧
      (∀ pd : Nat, let i : Instr := .fclassTest h ty pd a b
        test i pd (fun l => scale i l / 2 ^ f.classNo (src false a i l 0) % 2 = 1)) ∧
      one (.frnd h ty rm (.v r) a) false (f.integral rm) ∧
      one (.ffrac h ty (.v r) a) false f.fraction ∧
      (let i : Instr := .fscale h ty rm sat (.v r) a b
       gives i (fun l j => f.scaled rm sat (src false a i l j) (intVal .i32 (laneSrc s i h b 1 l)))) ∧
      (∀ t : QTarget, let i : Instr := .cvtq h t ty rm sat (.v r) a b c
        vecReady s i h r 1 → computes s i h r 1 (fun l y =>
          f.quantises t rm sat (src false a i l 0) (scale i l) (laneSrc s i h c 1 l).toNat y.toNat)) ∧
      (∀ t : QTarget, let i : Instr := .dq h ty t rm sat (.v r) a b c
        gives i (fun l _ => f.dequantises t rm sat (laneSrc s i h a 1 l).toNat (scale i l) (laneSrc s i h c 1 l).toNat)) ∧
      one (.rcp h ty na (.v r) a) na (f.viaSingle Fmt.reciprocal) ∧
      one (.rsq h ty na (.v r) a) na (f.viaSingle Fmt.invRoot) ∧
      one (.sqrt h ty rm na (.v r) a) na (f.root rm) ∧
      one (.exp2 h ty na (.v r) a) na f.power ∧
      one (.log2 h ty na (.v r) a) na f.logarithm ∧
      one (.sinr h ty na (.v r) a) na (f.turns false) ∧
      one (.cosr h ty na (.v r) a) na (f.turns true))

/-- R15, R16, R100, R105: exact integer arithmetic, reduced at the end. -/
def Obligations.IntegerSumsAndProducts : Prop :=
  let result := fun (ty : Ty) (sat : Bool) (x : Int) (y : DWord) => y = extend ty (pat (tyBits ty) y) ∧
    (if sat then intVal ty y = max (tyRange ty).1 (min (tyRange ty).2 x)
     else (tyRange ty).1 ≤ intVal ty y ∧ intVal ty y ≤ (tyRange ty).2 ∧ (2 ^ tyBits ty : Int) ∣ intVal ty y - x)
  ∀ (s : State) (h : Hdr) (ty : Ty) (sat na nb nc : Bool) (r : Nat) (a b c : Opd) (imm : BitVec 32),
    ty.isInt = true → isReg a = true → isReg b = true → isReg c = true →
    let n := tyRegs ty
    let src := fun (o : Opd) (i : Instr) (l : Nat) => intVal ty (laneSrc s i h o n l)
    let cst := fun (_ : Instr) (_ : Nat) => intVal ty (immVal ty imm)
    let gives := fun (i : Instr) (sat : Bool) (x : Instr → Nat → Int) =>
      vecReady s i h r n → computes s i h r n (fun l y => result ty sat (x i l) y)
    gives (.iadd h ty sat na nb (.v r) a b) sat
      (fun i l => (if na then -src a i l else src a i l) + (if nb then -src b i l else src b i l)) ∧
    gives (.iaddImm h ty sat (.v r) a imm) sat (fun i l => src a i l + cst i l) ∧
    gives (.isub h ty sat (.v r) a b) sat (fun i l => src a i l - src b i l) ∧
    gives (.isubImm h ty sat (.v r) a imm) sat (fun i l => src a i l - cst i l) ∧
    gives (.imul h ty sat (.v r) a b) sat (fun i l => src a i l * src b i l) ∧
    gives (.imulImm h ty sat (.v r) a imm) sat (fun i l => src a i l * cst i l) ∧
    gives (.imad h ty sat nc (.v r) a b c) sat (fun i l => src a i l * src b i l + (if nc then -src c i l else src c i l)) ∧
    gives (.imadImm h ty sat (.v r) a imm) sat (fun i l => src a i l * cst i l + src (.v r) i l) ∧
    -- the high half of the product
    gives (.imulh h ty (.v r) a b) false (fun i l => (src a i l * src b i l).fdiv (2 ^ tyBits ty)) ∧
    gives (.imulhImm h ty (.v r) a imm) false (fun i l => (src a i l * cst i l).fdiv (2 ^ tyBits ty)) ∧
    gives (.imin h ty (.v r) a b) false (fun i l => if src a i l ≤ src b i l then src a i l else src b i l) ∧
    gives (.iminImm h ty (.v r) a imm) false (fun i l => if src a i l ≤ cst i l then src a i l else cst i l) ∧
    gives (.imax h ty (.v r) a b) false (fun i l => if src a i l ≤ src b i l then src b i l else src a i l) ∧
    gives (.imaxImm h ty (.v r) a imm) false (fun i l => if src a i l ≤ cst i l then cst i l else src a i l) ∧
    gives (.iabs h ty sat (.v r) a) sat (fun i l => if src a i l < 0 then -src a i l else src a i l) ∧
    gives (.iabsImm h ty sat (.v r) imm) sat (fun i l => if cst i l < 0 then -cst i l else cst i l) ∧
    (ty.is32 = true →
      -- a 64-bit sum of a product of 32-bit numbers
      (let t : Ty := if tySigned ty then .i64 else .b64
       let wide := fun (i : Instr) (x : Instr → Nat → Int) =>
         vecReady s i h r 2 → computes s i h r 2 (fun l y => result t sat (x i l) y)
       wide (.imadw h ty sat (.v r) a b c) (fun i l => src a i l * src b i l + intVal t (laneSrc s i h c 2 l)) ∧
       wide (.imadwImm h ty sat (.v r) a imm) (fun i l => src a i l * intVal ty (imm.setWidth 64) + intVal t (laneSrc s i h (.v r) 2 l))) ∧
      (let byte := fun (sg : Bool) (o : Opd) (i : Instr) (l j : Nat) =>
         let x : Int := (laneSrc s i h o 1 l).toNat / 256 ^ j % 256
         if sg && decide (128 ≤ x) then x - 256 else x
       gives (.idot4 h ty sat na nb (.v r) a b c) sat (fun i l => src c i l + byte na a i l 0 * byte nb b i l 0 +
         byte na a i l 1 * byte nb b i l 1 + byte na a i l 2 * byte nb b i l 2 + byte na a i l 3 * byte nb b i l 3)))

/-- R107: the shifts. -/
def Obligations.ShiftResults : Prop :=
  ∀ (s : State) (h : Hdr) (ty : Ty) (r : Nat) (a b : Opd) (imm : BitVec 32), ty.isInt = true → isReg a = true → isReg b = true →
    let w := tyBits ty
    let n := tyRegs ty
    let src := fun (i : Instr) (l k : Nat) => (laneSrc s i h a n l).getLsbD k
    -- the amount comes from B or is the immediate
    let gives := fun (i j : Instr) (P : Instr → Nat → Nat → DWord → Prop) =>
      (vecReady s i h r n → computes s i h r n (fun l y => y = extend ty (pat w y) ∧ P i ((laneSrc s i h b 1 l).toNat % 2 ^ 32) l y)) ∧
      (vecReady s j h r n → computes s j h r n (fun l y => y = extend ty (pat w y) ∧ P j imm.toNat l y))
    gives (.shl h ty false (.v r) a b) (.shlImm h ty false (.v r) a imm) (fun i c l y =>
      ∀ k < w, y.getLsbD k = (decide (c < w) && decide (c ≤ k) && src i l (k - c))) ∧
    gives (.shl h ty true (.v r) a b) (.shlImm h ty true (.v r) a imm) (fun i c l y =>
      intVal ty y = max (tyRange ty).1 (min (tyRange ty).2 (intVal ty (laneSrc s i h a n l) * 2 ^ c))) ∧
    gives (.shr h ty (.v r) a b) (.shrImm h ty (.v r) a imm) (fun i c l y =>
      ∀ k < w, y.getLsbD k = (decide (k + c < w) && src i l (k + c))) ∧
    gives (.sar h ty (.v r) a b) (.sarImm h ty (.v r) a imm) (fun i c l y =>
      ∀ k < w, y.getLsbD k = src i l (if k + c < w then k + c else w - 1))

/-- R108: POPC and CLZ. -/
def Obligations.PopulationAndLeadingZeros : Prop :=
  ∀ (s : State) (h : Hdr) (ty : Ty) (r : Nat) (a : Opd), ty.isInt = true → isReg a = true →
    let w := tyBits ty
    (let i : Instr := .popc h ty (.v r) a
     vecReady s i h r 1 → computes s i h r 1 (fun l y =>
      y.toNat = ((List.range w).filter (fun k => (laneSrc s i h a (tyRegs ty) l).getLsbD k)).length ∧ y.toNat ≤ w)) ∧
    (let i : Instr := .clz h ty (.v r) a
     vecReady s i h r 1 → computes s i h r 1 (fun l y =>
      let x := laneSrc s i h a (tyRegs ty) l
      y.toNat ≤ w ∧ (∀ k, w - y.toNat ≤ k → k < w → x.getLsbD k = false) ∧ (y.toNat < w → x.getLsbD (w - 1 - y.toNat) = true)))

/-- R105, R109: BFE and BFI, and the bitwise operations. -/
def Obligations.BitFields : Prop :=
  ∀ (s : State) (h : Hdr) (ty : Ty) (na nb : Bool) (r : Nat) (a b c : Opd) (imm : BitVec 32),
    ty.isInt = true → isReg a = true → isReg b = true → isReg c = true →
    let w := tyBits ty
    let n := tyRegs ty
    let src := fun (o : Opd) (i : Instr) (l k : Nat) => (laneSrc s i h o n l).getLsbD k
    let cst := fun (_ : Instr) (_ k : Nat) => (immVal ty imm).getLsbD k
    let gives := fun (i : Instr) (f : Instr → Nat → Nat → Bool) =>
      vecReady s i h r n → computes s i h r n (fun l y => y = extend ty (pat w y) ∧ ∀ k < w, y.getLsbD k = f i l k)
    -- position and length, from B or the immediate
    let pos := fun (x : Nat) => x % 256
    let len := fun (x : Nat) => min (x / 256 % 256) w
    let field := fun (i : Instr) (l : Nat) => (laneSrc s i h b 1 l).toNat
    let bit := fun (i : Instr) (l p : Nat) => if p < w then src a i l p else tySigned ty && src a i l (w - 1)
    let taken := fun (i : Instr) (x l k : Nat) =>
      if k < len x then bit i l (pos x + k) else decide (0 < len x) && tySigned ty && bit i l (pos x + len x - 1)
    let put := fun (i : Instr) (x l k : Nat) (old : Bool) => if pos x ≤ k ∧ k < pos x + len x then src a i l (k - pos x) else old
    let entry := fun (lut : BitVec 8) (x y z : Bool) => lut.getLsbD (4 * x.toNat + 2 * y.toNat + z.toNat)
    gives (.bfe h ty (.v r) a b) (fun i l k => taken i (field i l) l k) ∧
    gives (.bfeImm h ty (.v r) a imm) (fun i l k => taken i imm.toNat l k) ∧
    gives (.bfi h ty (.v r) a b c) (fun i l k => put i (field i l) l k (src c i l k)) ∧
    gives (.bfiImm h ty (.v r) a imm) (fun i l k => put i imm.toNat l k (src (.v r) i l k)) ∧
    gives (.and h ty na nb (.v r) a b) (fun i l k => (src a i l k != na) && (src b i l k != nb)) ∧
    gives (.andImm h ty (.v r) a imm) (fun i l k => src a i l k && cst i l k) ∧
    gives (.or h ty na nb (.v r) a b) (fun i l k => (src a i l k != na) || (src b i l k != nb)) ∧
    gives (.orImm h ty (.v r) a imm) (fun i l k => src a i l k || cst i l k) ∧
    gives (.xor h ty na nb (.v r) a b) (fun i l k => (src a i l k != na) != (src b i l k != nb)) ∧
    gives (.xorImm h ty (.v r) a imm) (fun i l k => src a i l k != cst i l k) ∧
    (∀ lut : BitVec 8, gives (.lut3 h ty lut (.v r) a b c) (fun i l k => entry lut (src a i l k) (src b i l k) (src c i l k))) ∧
    (∀ (lo : BitVec 5) (hi : BitVec 3), gives (.lut3Imm h ty lo hi (.v r) a imm)
      (fun i l k => entry (hi ++ lo) (src a i l k) (cst i l k) (src (.v r) i l k)))

/-- R110: BPICK. -/
def Obligations.BytePicks : Prop :=
  let byte := fun (x : DWord) (j : Nat) => x.toNat / 256 ^ j % 256
  let picked := fun (a b c y : DWord) => ∀ j < 4,
    let n := byte c j % 8
    let e := if n < 4 then byte a n else byte b (n - 4)
    byte y j = (if byte c j / 16 % 2 = 1 then 0 else if byte c j / 8 % 2 = 1 then (if e / 128 = 1 then 255 else 0) else e)
  ∀ (s : State) (h : Hdr) (r : Nat) (a b c : Opd), isReg a = true → isReg b = true → isReg c = true →
    (let i : Instr := .bpick h (.v r) a b c
     vecReady s i h r 1 → computes s i h r 1 (fun l y =>
      y.toNat < 2 ^ 32 ∧ picked (laneSrc s i h a 1 l) (laneSrc s i h b 1 l) (laneSrc s i h c 1 l) y)) ∧
    (∀ imm : BitVec 32, let i : Instr := .bpickImm h (.v r) a imm
     vecReady s i h r 1 → computes s i h r 1 (fun l y =>
      y.toNat < 2 ^ 32 ∧ picked (laneSrc s i h a 1 l) (imm.setWidth 64) (laneSrc s i h (.v r) 1 l) y))

/-- R105, R106, R111: IADDC, SEL and LEA. -/
def Obligations.SelectsAndCarries : Prop :=
  ∀ (s : State) (h : Hdr) (ty : Ty) (r : Nat) (a b : Opd) (imm : BitVec 32), isReg a = true → isReg b = true → ty.isInt = true →
    let n := tyRegs ty
    let m := 2 ^ tyBits ty
    (∀ (pr : Nat) (neg : Bool), let i : Instr := .sel h ty pr neg (.v r) a b
      vecReady s i h r n → computes s i h r n (fun l y =>
        y = extend ty (pat (tyBits ty) (if ((s.opened i h).readP pr).getLsbD l = !neg then laneSrc s i h a n l else laneSrc s i h b n l)))) ∧
    (∀ (pr : Nat) (neg : Bool), let i : Instr := .selImm h ty pr neg (.v r) a imm
      vecReady s i h r n → computes s i h r n (fun l y =>
        y = extend ty (pat (tyBits ty) (if ((s.opened i h).readP pr).getLsbD l = !neg then laneSrc s i h a n l else immVal ty imm)))) ∧
    (∀ (ci pd : Nat) (i : Instr) (vb : Nat → DWord),
      (i = .iaddc h ty ci pd (.v r) a b ∧ vb = (fun l => laneSrc s i h b n l) ∨ i = .iaddcImm h ty ci pd (.v r) a imm ∧ vb = (fun _ => immVal ty imm)) →
      ty.isB = true → vecReady s i h r n → certain (s.opened i h) (.p pd) →
      let sum := fun (l : Nat) => pat (tyBits ty) (laneSrc s i h a n l) + pat (tyBits ty) (vb l) +
        (if ci ≠ 31 ∧ ((s.opened i h).readP ci).getLsbD l = true then 1 else 0)
      ∃ t, exec i s = .next t ∧ onlyVP (s.stepped h) t ∧ wroteP s t pd (lanesOn i h s) (fun l => decide (m ≤ sum l)) ∧
        wroteV s t r n (lanesOn i h s) (fun l => BitVec.ofNat 64 (sum l % m))) ∧
    -- an index of 32 bits, signed under i64 alone, shifted and added
    (∀ (sh : Nat) (i : Instr) (vb : Nat → DWord),
      (i = .lea h ty sh (.v r) a b ∧ vb = (fun l => laneSrc s i h b n l) ∨ i = .leaImm h ty sh (.v r) a imm ∧ vb = (fun _ => immVal ty imm)) →
      ty.isWord = true → vecReady s i h r n → computes s i h r n (fun l y =>
        let x := (laneSrc s i h a 1 l).setWidth 32
        y.toNat = ((vb l).toNat + (if ty = .i64 then x.signExtend 64 else x.setWidth 64).toNat * 2 ^ sh) % m))

/-- R114, R116, R117: predicates to and from registers, VOTE and BALLOT. -/
def Obligations.PredicateMoves : Prop :=
  ∀ (s : State) (h : Hdr) (pd pa pb pc : Nat) (na nb nc : Bool) (r : Nat),
    let src := fun (i : Instr) (p : Nat) (neg : Bool) (l : Nat) => ((s.opened i h).readP p).getLsbD l != neg
    (∀ lut : BitVec 8, let i : Instr := .plut3 h lut na nb nc pd pa pb pc
      clears i h s → certain (s.opened i h) (.p pd) → decides s i h pd (fun l =>
        lut.getLsbD (4 * (src i pa na l).toNat + 2 * (src i pb nb l).toNat + (src i pc nc l).toNat))) ∧
    (let i : Instr := .pmovTov h na (.v r) pa
     vecReady s i h r 1 → computes s i h r 1 (fun l y => y = if src i pa na l then 1 else 0)) ∧
    (let i : Instr := .pmovSave h (.v r)
     vecReady s i h r 1 → computes s i h r 1 (fun l y =>
      (∀ k < 31, y.getLsbD k = ((s.opened i h).readP k).getLsbD l) ∧ y.getLsbD 31 = true ∧ y.toNat < 2 ^ 32)) ∧
    (∀ a : Opd, isReg a = true → let i : Instr := .pmovLoad h a
      clears i h s → (∀ k < 31, certain (s.opened i h) (.p k)) →
      ∃ t, exec i s = .next t ∧ onlyP (s.stepped h) t ∧ ∀ (k : Fin 31) (l : Fin 128), t.cur.p[k].getLsbD l =
        if (lanesOn i h s).getLsbD l then (laneSrc s i h a 1 l).getLsbD k else s.cur.p[k].getLsbD l) ∧
    (∀ (mode : VoteMode) (v : Bool), let i : Instr := .vote h mode na pd pa
      let all := ∀ l : Fin 128, (lanesOn i h s).getLsbD l = true → src i pa na l = true
      let none' := ∀ l : Fin 128, (lanesOn i h s).getLsbD l = true → src i pa na l = false
      clears i h s → certain (s.opened i h) (.p pd) →
      (v = true ↔ match mode with
        | .all => all
        | .any => ¬ none'
        | .uni => all ∨ none') → decides s i h pd (fun _ => v)) ∧
    (let i : Instr := .ballot h na (.s r) pa
     clears i h s → (∀ k < 4, certain (s.opened i h) (.s (r + k))) →
     ∃ t, exec i s = .next t ∧ onlyS (s.stepped h) t ∧ ∀ k : Fin 128, t.cur.s[k] =
       if r ≤ k ∧ (k : Nat) < r + 4 then
         BitVec.ofNat 32 ((List.range 32).foldl (fun x j =>
           if (lanesOn i h s).getLsbD (32 * (k - r) + j) && src i pa na (32 * (k - r) + j) then x + 2 ^ j else x) 0)
       else s.cur.s[k])

/-- R118, R119, R123: LGET and PSWAP. -/
def Obligations.LaneMoves : Prop :=
  ∀ (s : State) (h : Hdr) (ty : Ty) (r : Nat) (a b : Opd), isReg a = true → isReg b = true →
    let n := tyRegs ty
    (∀ (mode : LgetMode) (c pd : Nat), let i : Instr := .lget h mode c ty pd (.v r) a b
      let g := 128 / 2 ^ c
      let src := fun (l : Nat) =>
        let k := (laneSrc s i h b 1 l).toNat % 2 ^ 32
        let base := l - l % g
        match mode with
        | .abs => base + k % g
        | .rot => base + (l % g + k) % g
        | .rev => base + (g - 1 - (l % g + k) % g)
        | .xor => base + Nat.xor (l % g) (k % g)
      c < 7 → vecReady s i h r n → certain (s.opened i h) (.p pd) →
      ∃ t, exec i s = .next t ∧ onlyVP (s.stepped h) t ∧
        wroteV s t r n (lanesOn i h s) (fun l => laneSrc s i h a n (src l)) ∧
        wroteP s t pd (lanesOn i h s) (fun l => (lanesOn i h s).getLsbD (src l))) ∧
    (∀ (k : Nat) (neglo : Bool), let i : Instr := .pswap h k neglo ty (.v r) a
      let src := fun (l : Nat) => laneSrc s i h a n (Nat.xor l (2 ^ k))
      let neg := fun (x : DWord) => match ty with
        | .f64 => x ^^^ (1 <<< 63)
        | .f32 => x ^^^ (1 <<< 31)
        | .f16 | .bf16 => x ^^^ (1 <<< 15)
        | .f16x2 | .bf16x2 => x ^^^ (1 <<< 31) ^^^ (1 <<< 15)
        | _ => -x
      k < 7 → ty.isSwap = true → vecReady s i h r n → computes s i h r n (fun l y =>
        y.setWidth (32 * n) = (if neglo = true ∧ l / 2 ^ k % 2 = 0 then neg (src l) else src l).setWidth (32 * n)))

/-- R120: MATCH. -/
def Obligations.MatchGroupsLanes : Prop :=
  ∀ (s : State) (h : Hdr) (ty : Ty) (pd r : Nat) (a : Opd), isReg a = true → ty = .b32 ∨ ty = .b64 →
    let i : Instr := .matchv h ty pd (.v r) a
    let x := fun (l : Nat) => pat (tyBits ty) (laneSrc s i h a (tyRegs ty) l)
    vecReady s i h r 1 → certain (s.opened i h) (.p pd) →
    ∃ (t : State) (f : Nat → Nat), exec i s = .next t ∧ onlyVP (s.stepped h) t ∧
      (∀ l < 128, (lanesOn i h s).getLsbD l = true →
        (lanesOn i h s).getLsbD (f l) = true ∧ x (f l) = x l ∧ ∀ j < f l, (lanesOn i h s).getLsbD j = true → x j ≠ x l) ∧
      wroteV s t r 1 (lanesOn i h s) (fun l => BitVec.ofNat 64 (f l)) ∧
      wroteP s t pd (lanesOn i h s) (fun l => decide (f l = l))

/-- R34, R35, R121: LRED and SCAN. -/
def Obligations.LaneTrees : Prop :=
  ∀ (s : State) (h : Hdr) (op : RedOp) (rm : Rm) (ty : Ty) (r : Nat) (a : Opd), isReg a = true →
    let n := tyRegs ty
    (let i : Instr := .lred h op rm ty (.v r) a
     vecReady s i h r n → computes s i h r n (fun _ y => y.setWidth (32 * n) =
      ((treeNode (comb2 op rm ty) (lanesOn i h s) (fun l => laneSrc s i h a n l) 7 0).getD (redIdentity op ty)).setWidth (32 * n))) ∧
    (let i : Instr := .lred h op rm ty (.s r) a
     uniReady s i h r n → yields s i h r n
      ((treeNode (comb2 op rm ty) (lanesOn i h s) (fun l => laneSrc s i h a n l) 7 0).getD (redIdentity op ty))) ∧
    (∀ excl : Bool, let i : Instr := .scan h op excl rm ty (.v r) a
     vecReady s i h r n → computes s i h r n (fun l y => y.setWidth (32 * n) =
      ((scanNode (comb2 op rm ty) (lanesOn i h s) (fun l => laneSrc s i h a n l) (if excl then l else l + 1) 8 none 0).getD
        (redIdentity op ty)).setWidth (32 * n)))

/-- R23, R132 to R136: CVT; `toKind` and `readKind` are the conversions of one element, and what they give follows R23. -/
def Obligations.Conversions : Prop :=
  (∀ (dk sk : Nat) (rm : Rm) (sat : Bool) (j : Nat) (x : DWord), dk ≤ 20 → sk ≤ 20 →
    kindConverts dk sk rm sat (if (kindInt sk).isSome then x else BitVec.ofNat 64 (x.toNat / 2 ^ (kindBits sk * j) % 2 ^ kindBits sk))
      (toKind dk rm sat sk (readKind sk j x))) ∧
  ∀ (s : State) (h : Hdr) (ty : Ty) (sel sk : Nat) (rm : Rm) (sat : Bool) (r : Nat) (a : Opd), isReg a = true →
    let i : Instr := .cvt h ty sel sk rm sat (.v r) a
    let dk := cvtKind ty sel
    let nd := kindElems dk
    let ns := kindElems sk
    let el := fun (j : Nat) (x : DWord) => toKind dk rm sat sk (readKind sk j x)
    clears i h s → (∀ k < 8, certain (s.opened i h) (.v (r + k))) →
    (nd = 0 → ¬ (dk = 8 ∧ ns ≠ 0) → r + kindRegs dk ≤ 240 →
      computes s i h r (kindRegs dk) (fun l y => y.setWidth (32 * kindRegs dk) =
        (el 0 (laneSrc s i h a (kindRegs sk) l)).setWidth (32 * kindRegs dk))) ∧
    (nd ≠ 0 → sk ≠ 8 → dk ≠ 8 → r + 1 ≤ 240 →
      computes s i h r 1 (fun l y => y.toNat % 2 ^ 32 =
        ((List.range nd).foldl (fun acc j => acc + (el j (laneSrc s i h a 1 l)).toNat * 2 ^ (kindBits dk * j)) 0) % 2 ^ 32)) ∧
    (nd ≠ 0 → sk = 8 → ∀ ra, a = .v ra → r + 1 ≤ 240 →
      computes s i h r 1 (fun l y => y.toNat % 2 ^ 32 =
        ((List.range nd).foldl (fun acc j => acc + (el 0 (laneSrc s i h (.v (ra + j)) 1 l)).toNat * 2 ^ (kindBits dk * j)) 0) % 2 ^ 32)) ∧
    (dk = 8 → ns ≠ 0 → ns ≤ 8 → r + ns ≤ 240 →
      ∃ t, exec i s = .next t ∧ onlyV (s.stepped h) t ∧ ∀ (k : Fin 240) (l : Fin 128), t.cur.v[k][l] =
        if (lanesOn i h s).getLsbD l ∧ r ≤ k ∧ (k : Nat) < r + ns then (el (k - r) (laneSrc s i h a 1 l)).setWidth 32 else s.cur.v[k][l])

/-- R45, R148: branches, with both short cuts. -/
def Obligations.BranchesSplitAndRejoin : Prop :=
  ∀ (s : State) (h : Hdr) (u : Bool) (pr : Nat) (pnb : Bool) (disp : BitVec 24) (a : Opd) (rcv : BitVec 16) (vv : Bool) (i : Instr) (tgt : Nat → DWord),
    (i = .bra h u pr pnb disp rcv ∧ vv = false ∧ tgt = (fun _ => s.pc + disp.signExtend 64) ∨
     i = .brx h u vv pr pnb a rcv ∧ tgt = (fun l => laneSrc s i h a 2 l)) →
    clears i h s → s.cur.issuing = 0 →
    let p := (s.opened i h).readP pr
    let t1 := lanesOn i h s &&& (if pnb then ~~~p else p)
    let t0 := tgt ((Mask.lanes t1).headD 0)
    let several := vv = true ∧ ∃ l : Fin 128, t1.getLsbD l = true ∧ tgt l ≠ t0
    ∀ T : Mask, (∀ l : Fin 128, T.getLsbD l = (t1.getLsbD l && (!vv || decide (tgt l = t0)))) →
    let F := s.cur.em &&& ~~~T
    let r := s.pc + rcv.signExtend 64
    let diverges := r ≠ s.cur.path.rpc ∨ t0 ≠ r ∧ s.pc + 1 ≠ r
    -- only the issuing path changes
    let keeps := fun (t : State) => t.cur.stack.length = s.cur.stack.length ∧ t.cur.stack.drop 1 = s.cur.stack.drop 1 ∧
      (s.cur.stack ≠ [] → t.cur.base = s.cur.base) ∧
      t = { s with freeCtr := s.freeCtr + 1, cur := { s.cur with
        base := t.cur.base, stack := t.cur.stack, sb := (s.cur.countSb h.sb).sb, pend := t.cur.pend } }
    (T = 0 → ∃ t, exec i s = .next t ∧ onlyPend (s.stepped h) t) ∧
    (T ≠ 0 → F = 0 → ¬ (u = true ∧ several) → ∃ t, exec i s = .next t ∧ t.pc = t0 ∧ t.cur.path.arr = some s.pc ∧ t.cur.em = s.cur.em ∧
      onlyPend { s.arrive t0 with freeCtr := s.freeCtr + 1, cur := { (s.arrive t0).cur with sb := (s.cur.countSb h.sb).sb } } t) ∧
    (T ≠ 0 → u = true → F ≠ 0 ∨ several → exec i s = .next ((s.opened i h).precise 0x061 0)) ∧
    (T ≠ 0 → u = false → F ≠ 0 → rcv = 0 → exec i s = .next ((s.opened i h).precise 0x062 0)) ∧
    -- the path's own reconvergence slot: the lanes that would stand there at once wait without a path of their own
    (T ≠ 0 → u = false → F ≠ 0 → rcv ≠ 0 → r = s.cur.path.rpc → t0 = r →
      ∃ t, exec i s = .next t ∧ keeps t ∧ t.cur.path = { s.cur.path with pc := s.pc + 1, mask := F }) ∧
    (T ≠ 0 → u = false → F ≠ 0 → rcv ≠ 0 → r = s.cur.path.rpc → t0 ≠ r → s.pc + 1 = r →
      ∃ t, exec i s = .next t ∧ keeps t ∧ t.cur.path = { s.cur.path with pc := t0, mask := T, arr := some s.pc, line := none }) ∧
    (T ≠ 0 → u = false → F ≠ 0 → rcv ≠ 0 → diverges → s.roomFor (if s.cur.stack = [] then 3 else 2) = false →
      exec i s = .next ((s.opened i h).precise 0x060 0)) ∧
    (T ≠ 0 → u = false → F ≠ 0 → rcv ≠ 0 → diverges → s.cur.spilled = 0 → s.cur.stack.length ≤ 29 →
      ∃ (t : State) (ft tk rc : Path), exec i s = .next t ∧ t.cur.stack = ft :: tk :: rc :: s.cur.stack.drop 1 ∧
        ft.isRec = false ∧ ft.pc = s.pc + 1 ∧ ft.rpc = r ∧ ft.mask = F ∧ ft.creation = F ∧
        tk.isRec = false ∧ tk.pc = t0 ∧ tk.rpc = r ∧ tk.mask = T ∧ tk.creation = T ∧ tk.arr = some s.pc ∧
        rc.isRec = true ∧ rc.pc = r ∧
        (s.cur.stack = [] → rc.rpc = noneMark ∧ rc.mask = s.cur.em ∧ rc.creation = ~~~s.cur.exited) ∧
        (∀ e es, s.cur.stack = e :: es → rc.rpc = e.rpc ∧ rc.mask = e.mask ∧ rc.creation = e.creation) ∧
        t = { s with freeCtr := s.freeCtr + 1, cur := { s.cur with
          stack := t.cur.stack, nextPid := t.cur.nextPid, sb := (s.cur.countSb h.sb).sb, pend := t.cur.pend } })

/-- R149, R150, R151, R154: CALL, RET, BREAK, EXIT, MOVEM. -/
def Obligations.CallsReturnsBreaksAndExits : Prop :=
  ∀ (s : State) (h : Hdr), s.cur.issuing = 0 →
    (∀ (i : Instr) (a : Opd) (disp : BitVec 24) (tgt : DWord),
      (i = .call h disp ∧ tgt = s.pc + disp.signExtend 64 ∨ i = .callInd h a ∧ tgt = (s.opened i h).readUni a 2) →
      clears i h s →
      (lanesOn i h s = 0 → ∃ t, exec i s = .next t ∧ onlyPend (s.stepped h) t) ∧
      (lanesOn i h s ≠ 0 → s.cur.spilled = 0 → s.cur.stack.length ≤ 30 →
        ∃ (t : State) (cp rc : Path), exec i s = .next t ∧ t.cur.stack = cp :: rc :: s.cur.stack.drop 1 ∧
          cp.isRec = false ∧ cp.pc = tgt ∧ cp.rpc = callMark ∧ cp.mask = lanesOn i h s ∧ cp.creation = lanesOn i h s ∧ cp.arr = some s.pc ∧
          rc.isRec = true ∧ rc.pc = s.pc + 1 ∧
          (s.cur.stack = [] → rc.rpc = noneMark ∧ rc.mask = s.cur.em ∧ rc.creation = ~~~s.cur.exited) ∧
          (∀ e es, s.cur.stack = e :: es → rc.rpc = e.rpc ∧ rc.mask = e.mask ∧ rc.creation = e.creation) ∧
          t = { s with freeCtr := s.freeCtr + 1, cur := { s.cur with
            stack := t.cur.stack, nextPid := t.cur.nextPid, sb := (s.cur.countSb h.sb).sb, pend := t.cur.pend } })) ∧
    (∀ (i : Instr) (pr : Nat) (pnb : Bool) (disp : BitVec 24) (test : Path → Bool) (upTo k : Nat),
      (i = .ret h pr pnb ∧ test = (fun p => p.rpc == callMark) ∧ upTo = k + 1 ∨
       i = .breakp h pr pnb disp ∧ test = (fun p => p.isRec && p.pc == s.pc + disp.signExtend 64) ∧ upTo = k) →
      clears i h s → s.cur.stack.findIdx? test = some k →
      let p := (s.opened i h).readP pr
      let T := lanesOn i h s &&& (if pnb then ~~~p else p)
      ∃ t, exec i s = .next t ∧
        t.cur.stack.map (·.mask) = (s.cur.stack.take upTo).map (fun e => e.mask &&& ~~~T) ++ (s.cur.stack.drop upTo).map (·.mask) ∧
        t.cur.stack.map (·.creation) = s.cur.stack.map (·.creation) ∧ t.cur.stack.map (·.rpc) = s.cur.stack.map (·.rpc) ∧
        -- the lanes that stay go on at the next slot, and every other entry where it stood
        t.cur.stack.map (·.pc) = (s.cur.stack.map (·.pc)).set 0 (s.pc + 1) ∧
        t = { s with freeCtr := s.freeCtr + 1, cur := { s.cur with
          stack := t.cur.stack, sb := (s.cur.countSb h.sb).sb, pend := t.cur.pend } }) ∧
    (let i : Instr := .exit h
     let X := s.cur.exited ||| lanesOn i h s
     clears i h s →
     (X ≠ Mask.full → ∃ t, exec i s = .next t ∧ t.cur.exited = X ∧ t.cur.status = s.cur.status ∧
       t.cur.base.mask = s.cur.base.mask &&& ~~~(lanesOn i h s) ∧ t.cur.base.creation = s.cur.base.creation &&& ~~~(lanesOn i h s) ∧
       t.cur.stack.map (·.mask) = s.cur.stack.map (fun e => e.mask &&& ~~~(lanesOn i h s)) ∧
       t.cur.stack.map (·.creation) = s.cur.stack.map (fun e => e.creation &&& ~~~(lanesOn i h s)) ∧
       t = { s with freeCtr := s.freeCtr + 1, cur := { s.cur with
         base := t.cur.base, stack := t.cur.stack, exited := X, sb := (s.cur.countSb h.sb).sb, pend := t.cur.pend } }) ∧
     (X = Mask.full → s.cur.ports = Vector.replicate 8 none →
       ∃ t, exec i s = .next t ∧ t.cur.status = .ended ∧ t.cur.exited = Mask.full ∧ t.mem = s.mem ∧ t.cur.v = s.cur.v ∧
         t.cur.s = s.cur.s ∧ t.cur.k = s.cur.k)) ∧
    (∀ r : Nat, let i : Instr := .movemRd h (.s r)
      clears i h s → lanesOn i h s ≠ 0 → (∀ k < 4, certain (s.opened i h) (.s (r + k))) →
      ∃ t, exec i s = .next t ∧ onlyS (s.stepped h) t ∧ ∀ k : Fin 128, t.cur.s[k] =
        if r ≤ (k : Nat) ∧ (k : Nat) < r + 4 then (s.cur.em >>> (32 * ((k : Nat) - r))).setWidth 32 else s.cur.s[k]) ∧
    (∀ (r : Nat) (v : Mask), let i : Instr := .movemWr h (.s r)
      let c := s.cur.path.creation &&& ~~~s.cur.exited
      let new := (s.cur.em &&& ~~~c) ||| (v &&& c)
      clears i h s → lanesOn i h s ≠ 0 →
      (∀ k < 4, ∀ j < 32, v.getLsbD (32 * k + j) = ((s.opened i h).readS (r + k)).getLsbD j) →
      (new ≠ 0 → ∃ t, exec i s = .next t ∧ t.cur.em = new ∧ t.pc = s.pc + 1 ∧ t.cur.path.creation = s.cur.path.creation ∧
        t = { s with freeCtr := s.freeCtr + 1, cur := { s.cur with
          base := t.cur.base, stack := t.cur.stack, sb := (s.cur.countSb h.sb).sb, pend := t.cur.pend } }) ∧
      (new = 0 → exec i s = .next ((s.opened i h).precise 0x064 0)))

/-- R155, R156: barriers, at every scope. The expected number of a phase is n, or for n = 0 and for BARG the warps that have not ended. -/
def Obligations.BarriersArriveAndWait : Prop :=
  ∀ (s : State) (h : Hdr) (mode : BarMode) (sc : Scope),
    -- the warp goes on, or waits in what is given; to go on from .sync or .wait is an acquire
    let goes := fun (i : Instr) (waits : Option Hold) (t : State) =>
      t.pc = s.pc + 1 ∧ t.cur.hold = waits.getD s.cur.hold ∧ t.cur.v = s.cur.v ∧ t.cur.s = s.cur.s ∧ t.cur.p = s.cur.p ∧ t.cur.k = s.cur.k ∧
      t.cur.em = s.cur.em ∧ t.warps = s.warps ∧
      t.mem = (if mode ≠ .arrive ∧ waits = none then ((s.opened i h).acquireOn s.cur.id.core sc.code).mem else s.mem) ∧
      (sc ≠ .host → t.mem.mem = s.mem.mem) ∧
      (mode ≠ .arrive → waits = none → sc ≠ .wg → ∀ c ∈ t.mem.copies, c.core = some s.cur.id.core → c.tag.isSome = true)
    -- a barrier after one more arrival
    let arrived := fun (b x : Barrier) (full : Prop) =>
      (full → x.phase = (b.phase + 1) % 65536 ∧ x.count = 0) ∧ (¬ full → x.phase = b.phase ∧ x.count = b.count + 1)
    (∀ id n : Nat, id < 16 →
      let i : Instr := .bar h mode sc id n
      let b := s.wg.bars.getD id Barrier.blank
      let full := (if n = 0 then s.aliveIn s.wg.key else n) ≤ b.count + 1
      clears i h s →
      (lanesOn i h s = 0 → ∃ t, exec i s = .next t ∧ onlyPend (s.stepped h) t) ∧
      (lanesOn i h s ≠ 0 → s.cur.twoLive = true → exec i s = .next ((s.opened i h).precise 0x065 0)) ∧
      (lanesOn i h s ≠ 0 → s.cur.twoLive = false → (s.wg.wgsize < n ∨ 0 < b.count ∧ b.n ≠ some n) →
        exec i s = .next ((s.opened i h).precise 0x069 0)) ∧
      (lanesOn i h s ≠ 0 → s.cur.twoLive = false → n ≤ s.wg.wgsize → (b.count = 0 ∨ b.n = some n) →
        ∃ t, exec i s = .next t ∧
          (mode ≠ .wait → t.cur.barRec = s.cur.barRec.setIfInBounds id (some b.phase) ∧ arrived b (t.wg.bars.getD id Barrier.blank) full) ∧
          (mode = .wait → t.cur.barRec = s.cur.barRec ∧ t.wg.bars = s.wg.bars) ∧
          (mode = .arrive → goes i none t) ∧
          (mode = .sync → (full → goes i none t) ∧ (¬ full → goes i (some (.bar id b.phase sc.code)) t)) ∧
          (mode = .wait → (s.cur.barRec.getD id none ≠ some b.phase → goes i none t) ∧
            (s.cur.barRec.getD id none = some b.phase → goes i (some (.bar id b.phase sc.code)) t)))) ∧
    (∀ id : Nat, id < 8 →
      let i : Instr := .barg h mode sc id
      let b := s.gangBar id
      let full := s.aliveGang s.wg.launch s.wg.gang ≤ b.count + 1
      clears i h s →
      (s.converged (lanesOn i h s) = false → exec i s = .next ((s.opened i h).precise 0x066 0)) ∧
      (s.converged (lanesOn i h s) = true → ∃ t, exec i s = .next t ∧
        (mode ≠ .wait → t.cur.bargRec = s.cur.bargRec.setIfInBounds id (some b.phase) ∧ arrived b (t.gangBar id) full) ∧
        (mode = .wait → t.cur.bargRec = s.cur.bargRec ∧ t.sched.gangs = s.sched.gangs) ∧
        (mode = .arrive → goes i none t) ∧
        (mode = .sync → (full → goes i none t) ∧ (¬ full → goes i (some (.barg id b.phase sc.code)) t)) ∧
        (mode = .wait → (s.cur.bargRec.getD id none ≠ some b.phase → goes i none t) ∧
          (s.cur.bargRec.getD id none = some b.phase → goes i (some (.barg id b.phase sc.code)) t))))

/-- R157, R158, R406, R413: LAUNCH and CANCEL. That 0x168 leaves 0 in sr.fault rests on R275: it names no address. -/
def Obligations.LaunchAndCancel : Prop :=
  ∀ (s : State) (h : Hdr),
    -- the launches of no unit with the identifier stand
    let others := fun (t : State) (lv : Level) (id : Nat) => ∀ l ∈ s.sched.launches,
      (∀ x ∈ s.sched.launches, x.key = l.key → ¬ (x.part = s.wg.part ∧ x.record.ident lv = id)) → l ∈ t.sched.launches
    (∀ (pr : Nat) (a b : Opd), let i : Instr := .launch h pr a b
      let lanes := Mask.lanes (lanesOn i h s)
      clears i h s →
      (lanesOn i h s = 0 → ∃ t, exec i s = .next t ∧ onlyPend (s.stepped h) t) ∧
      (∀ (ts : List (Nat × Target)) (loc : Nat → Nat), lanesOn i h s ≠ 0 → certain (s.opened i h) (.p pr) →
        launchTargets (s.opened i h) (fun l => laneSrc s i h a 2 l) lanes = .ok ts →
        (∀ p ∈ ts, p.2 = .loc (loc p.1) 0 ∧ loc p.1 % 64 = 0 ∧ ∀ j < 4, s.plain (.loc (loc p.1 + 64 * j) 0) ∧
          ∀ x, s.mem.l1 s.cur.id.core (.loc (loc p.1 / 64 + j)) = some x → x.tag = none) →
        let q := fun (l : Nat) => (laneSrc s i h b 1 l).toNat % 256
        let reg := fun (l : Nat) => s.mgmt.queues.getD (q l) QReg.blank
        -- the records that stand in the queue: a launch of which nothing is placed is still the one at the front
        let front := fun (n : Nat) => (s.sched.launches.filter (fun x => x.queue == n && !x.cancelled && x.started.isNone && !x.pooled)).length
        let fits := fun (l : Nat) => decide (front (q l) + (s.held (q l)).length + (lanes.filter (fun j => decide (j < l ∧ q j = q l))).length < 2 ^ (reg l).depth)
        let ours := fun (l : Nat) => (reg l).isOpen = true ∧ (reg l).part = s.wg.part
        -- the queues after the pushes of the lanes below `top`
        let pushed := fun (t : State) (top : Nat) => ∀ n, t.held n = s.held n ++
          (lanes.filter (fun l => decide (l < top ∧ q l = n) && fits l)).map (fun l =>
            ({ bytes := s.readLoc (loc l) 256, addr := laneSrc s i h a 2 l } : Rec))
        ((∀ l ∈ lanes, ours l) → ∃ t, exec i s = .next t ∧ t.pc = s.pc + 1 ∧ wroteP s t pr (lanesOn i h s) fits ∧ pushed t 128 ∧
          t.mem.mem = s.mem.mem ∧ t.cur.v = s.cur.v ∧ t.cur.s = s.cur.s ∧ t.cur.k = s.cur.k ∧ t.wg = s.wg ∧
          t.sched.launches = s.sched.launches) ∧
        (∀ l0 ∈ lanes, ¬ ours l0 → (∀ l ∈ lanes, l < l0 → ours l) → ∃ u : State, exec i s = .next (u.precise 0x168 0) ∧ u.pc = s.pc ∧
          wroteP s u pr (lanesOn i h s &&& BitVec.ofNat 128 (2 ^ l0 - 1)) fits ∧ pushed u l0 ∧ u.mem.mem = s.mem.mem ∧
          u.cur.v = s.cur.v ∧ u.cur.s = s.cur.s ∧ u.cur.k = s.cur.k ∧ u.wg = s.wg))) ∧
    (∀ lv : Level, let i : Instr := .cancel h lv
      -- the issuer's workgroup, the members of its gang, or those of its launch
      let mine := fun (g : Wgroup) => match lv with
        | .wgrp => g.key = s.wg.key
        | .gang => g.launch = s.wg.launch ∧ g.gang = s.wg.gang
        | _ => g.launch = s.wg.launch
      clears i h s →
      (lanesOn i h s = 0 → ∃ t, exec i s = .next t ∧ onlyPend (s.stepped h) t) ∧
      (lanesOn i h s ≠ 0 → s.cur.wg = s.wg.key → s.wg.here = true → (s.allWgs.map (·.key)).Nodup → lv = .wgrp ∨ lv = .gang ∨ lv = .launch →
        ∃ t, exec i s = .next t ∧ t.cur.id = s.cur.id ∧ t.cur.running = false ∧ t.wg.here = false ∧
          (∀ g ∈ t.allWgs, mine g → g.here = false) ∧
          (∀ g ∈ s.allWgs, mine g → g.here = true → ∀ w ∈ t.allWarps, w.wg = g.key → w.running = false) ∧
          t.sched.launches = s.sched.launches.map (fun l => if lv = .launch ∧ l.key = s.wg.launch then { l with cancelled := true } else l) ∧
          -- nothing else
          t.mem = s.mem ∧ t.fab = s.fab ∧ t.sched.queues = s.sched.queues ∧ t.sched.pool = s.sched.pool ∧
          (∀ g ∈ s.wgs, ¬ mine g → g ∈ t.wgs) ∧ (∀ w ∈ s.warps, (∀ g ∈ s.allWgs, mine g → w.wg ≠ g.key) → w ∈ t.warps)) ∧
      (∀ l, lanesOn i h s ≠ 0 → s.cur.wg = s.wg.key → s.wg.here = true → lv = .graph ∨ lv = .phase ∨ lv = .job → s.sched.launches.find? (fun x => x.key == s.wg.launch) = some l → l.part = s.wg.part →
        l.cancelled = false → ∃ t, exec i s = .next t ∧ t.cur.id = s.cur.id ∧ t.cur.running = false ∧ t.wg.here = false ∧
          unitGone s t lv (l.record.ident lv) ∧ others t lv (l.record.ident lv))) ∧
    (∀ (lv : Level) (a : Opd), let i : Instr := .cancelId h lv a
      let id := ((s.opened i h).readUni a 2).toNat
      clears i h s → lanesOn i h s ≠ 0 →
      (∃ t, exec i s = .next t ∧ t.pc = s.pc + 1 ∧ t.cur.id = s.cur.id ∧ t.cur.v = s.cur.v ∧ t.cur.s = s.cur.s ∧ unitGone s t lv id ∧
        others t lv id) ∧
      ((∀ l ∈ s.sched.launches, l.part = s.wg.part → l.cancelled = false → l.record.ident lv ≠ id) →
        (∀ q ∈ s.sched.queues, ∀ r ∈ q.2, r.ident lv ≠ id) → (∀ p ∈ s.sched.pool, p.record.ident lv ≠ id) →
        ∃ t, exec i s = .next t ∧ t.pc = s.pc + 1 ∧ t.sched = s.sched ∧ t.mem = s.mem ∧ t.warps = s.warps))

/-- R46, R85, R159 to R162, R165, R166. That a SYSCALL's slot stays current while the warp waits, and goes on when the status is written, is log 13. -/
def Obligations.WaitsTimeAndSpecialRegisters : Prop :=
  ∀ (s : State) (h : Hdr),
    (clears (.nop h) h s → ∃ t, exec (.nop h) s = .next t ∧ onlyPend (s.stepped h) t) ∧
    (clears (.yieldw h) h s → lanesOn (.yieldw h) h s ≠ 0 → ∃ t, exec (.yieldw h) s = .next t ∧
      onlyPend { s.stepped h with cur := { (s.stepped h).cur with
        hold := .yield (s.clk + 64) ((s.turn.elim [] (fun c => c.others)).map (fun w => w.slot)) } } t) ∧
    (∀ n : BitVec 24, clears (.sleep h n) h s → lanesOn (.sleep h n) h s ≠ 0 → ∃ t, exec (.sleep h n) s = .next t ∧
      onlyPend { s.stepped h with cur := { (s.stepped h).cur with hold := .sleep s.clk (s.clk + max 1 n.toNat) false } } t) ∧
    (∀ (a : Opd) (n : BitVec 24), let i : Instr := .sleepWatch h a n
      clears i h s → lanesOn i h s ≠ 0 → ∃ t, exec i s = .next t ∧ t.pc = s.pc + 1 ∧
        t.cur.hold = .sleep s.clk (s.clk + max 1 n.toNat) true ∧ t.mem.mem = s.mem.mem ∧ t.cur.v = s.cur.v ∧ t.cur.s = s.cur.s ∧
        (∀ va l, window ((s.opened i h).readUni a 2) = .glob va → translate (s.opened i h) s.wg.part va = .ok l →
          (s.cur.id, l.loc va / 64) ∈ t.mem.watch)) ∧
    (∀ (r : Nat) (a : Opd) (n : BitVec 16), let i : Instr := .syscall h (.s r) a n
      clears i h s →
      (s.converged (lanesOn i h s) = false → exec i s = .next ((s.opened i h).precise 0x066 0)) ∧
      (s.converged (lanesOn i h s) = true → ∃ t, exec i s = .next t ∧ t.pc = s.pc ∧ t.cur.hold = .syscall r h.sb ∧
        t.wg.sys = s.wg.sys ++ [SysArrival.mk n.toNat ((s.opened i h).readUni a 2) s.cur.index r] ∧ t.mem = s.mem ∧ t.cur.s = s.cur.s)) ∧
    (∀ n : Nat, clears (.trap h n) h s → lanesOn (.trap h n) h s ≠ 0 →
      s.wg.kern.handler ≠ 0 → s.cur.trapMode = false → s.cur.issuing = 0 → s.cur.stack.length < 32 → s.roomFor 1 = true →
      ∃ t hp, exec (.trap h n) s = .next t ∧ t.cur.stack = hp :: s.cur.stack ∧ hp.pc = s.wg.kern.handler ∧ hp.rpc = trapMark ∧
        hp.mask = s.cur.em ∧ t.cur.cause = BitVec.ofNat 9 (0x070 + n) ∧ t.cur.epc = s.pc + 1 ∧ t.cur.fault = 0 ∧ t.cur.trapMode = true ∧
        t.cur.v = s.cur.v ∧ t.cur.s = s.cur.s ∧ t.cur.p = s.cur.p ∧ t.cur.k = s.cur.k ∧ t.mem = s.mem) ∧
    (clears (.idend h) h s → lanesOn (.idend h) h s ≠ 0 → ∃ t, exec (.idend h) s = .next t ∧
      onlyPend { s.stepped h with wg := { s.wg with idend := s.wg.idend || s.wg.idem } } t) ∧
    (∀ (src : TimeSrc) (r : Nat), let i : Instr := .time h src (.s r)
      uniReady s i h r 2 → lanesOn i h s ≠ 0 → yields s i h r 2 (BitVec.ofNat 64 (match src with
        | .dev => s.time
        | .clk => s.clk
        | .win => s.time / 2 ^ s.mgmt.logW))) ∧
    (∀ (x r : Nat), let i : Instr := .movsr h x (.s r)
      uniReady s i h r (if x = 13 ∨ x = 14 then 2 else 1) → lanesOn i h s ≠ 0 →
      ∃ v : DWord, yields s i h r (if x = 13 ∨ x = 14 then 2 else 1) v ∧
        (x = 0 → v.toNat = s.cur.index % 2 ^ 64) ∧ (x = 1 → v = s.wg.x.setWidth 64) ∧ (x = 2 → v = s.wg.y.setWidth 64) ∧
        (x = 3 → v = s.wg.z.setWidth 64) ∧ (x = 4 → v.toNat = s.wg.wgsize % 2 ^ 64) ∧
        (x = 5 → v.toNat = s.wg.linear / s.wg.gangSize % 2 ^ 64) ∧ (x = 6 → v.toNat = s.wg.linear % s.wg.gangSize % 2 ^ 64) ∧
        (x = 7 → v.toNat = s.cur.id.core % 2 ^ 64) ∧ (x = 8 → v.toNat = s.cur.id.core / 48 % 2 ^ 64) ∧
        (x = 9 → v.toNat = s.mgmt.selfRank % 2 ^ 17) ∧ (x = 11 → v = s.wg.phase.setWidth 64) ∧
        (x = 12 → v = s.cur.cause.setWidth 64) ∧ (x = 13 → v = s.cur.epc) ∧ (x = 14 → v = s.cur.fault) ∧
        -- end of stream seen, port bound, deferred fault pending
        (x = 10 → v.toNat < 2 ^ 24 ∧ ∀ k < 8, match s.cur.ports.getD k none with
          | none => v.getLsbD k = false ∧ v.getLsbD (8 + k) = false ∧ v.getLsbD (16 + k) = false
          | some q => v.getLsbD k = q.endSeen ∧ v.getLsbD (8 + k) = true ∧
            (v.getLsbD (16 + k) = true ↔ q.deferred ≠ none ∨ ∃ e ∈ q.pre, e.fault ≠ none))) ∧
    (∀ (x : Nat) (a : Opd), let i : Instr := .setsr h x a
      let v := (s.opened i h).readUni a (if x = 13 ∨ x = 14 then 2 else 1)
      clears i h s → lanesOn i h s ≠ 0 →
      (x = 12 → ∃ t, exec i s = .next t ∧ onlyPend { s.stepped h with cur := { (s.stepped h).cur with cause := v.setWidth 9 } } t) ∧
      (x = 13 → v.toNat / 5 * 64 < 2 ^ 56 → ∃ t, exec i s = .next t ∧ onlyPend { s.stepped h with cur := { (s.stepped h).cur with epc := v } } t) ∧
      (x = 13 → 2 ^ 56 ≤ v.toNat / 5 * 64 → exec i s = .next ((s.opened i h).precise 0x06F 0)) ∧
      (x = 14 → ∃ t, exec i s = .next t ∧ onlyPend { s.stepped h with cur := { (s.stepped h).cur with fault := v } } t))

/-- R122: READL. -/
def Obligations.ReadLaneToUniform : Prop :=
  ∀ (s : State) (h : Hdr) (ty : Ty) (r : Nat) (a b : Opd) (i : Instr) (j : Nat),
    (i = .readl h ty (.s r) a b ∧ j = ((s.opened i h).readUni b 1).toNat % 128 ∨
     i = .readlFirst h ty (.s r) a ∧ (Mask.lanes (lanesOn i h s)).head? = some j ∨
     (i = .readl h ty (.s r) a b ∨ i = .readlFirst h ty (.s r) a) ∧ lanesOn i h s = 0) →
    ty = .b32 ∨ ty = .b64 → uniReady s i h r (tyRegs ty) →
    (lanesOn i h s = 0 → ∃ t, exec i s = .next t ∧ onlyPend (s.stepped h) t) ∧
    (lanesOn i h s ≠ 0 → yields s i h r (tyRegs ty) (laneSrc s i h a (tyRegs ty) j))

/-- R168, R169, R173, R174, R253: the loads. -/
def Obligations.LoadsReturnTheStoredBytes : Prop :=
  ∀ (s : State) (h : Hdr) (sp : Space) (sz : Size) (sc : Scope) (hint : Nat) (fe : Bool) (off : BitVec 20) (r : Nat) (a : Opd) (ts : List (Nat × Target)),
    let fresh := fun (t : Target) => s.plain t ∧ t.aligned (szBytes sz) ∧ ∀ c ∈ t.cells (szBytes sz), c.1 = 0 →
      ∀ x, s.mem.l1 s.cur.id.core (.loc (c.2 / 64)) = some x → sc ≠ .wg ∧ x.tag = none
    let same := fun (u t : State) => ∃ cs hs n, t = { u with cur := t.cur, mem := { u.mem with copies := cs, home := hs }, logs := { u.logs with counters := n } }
    let down := sc = .host ∧ s.host.linkUp = false
    let posts := fun (t : State) (x : DWord) => t.pc = s.pc + 1 ∧ t.mem = s.mem ∧ t.cur.p = s.cur.p ∧ t.cur.k = s.cur.k ∧
      t.cur.pendFaults = s.cur.pendFaults ++ [⟨0x16C, s.pc, x, s.cur.path.pid, s.time, false⟩]
    (let i : Instr := .ld h sp sz sc hint fe off (.v r) a
     let full := (ts.flatMap (fun p => p.2.feLine)).all (fun x => s.lineFull x.1 x.2)
     vecReady s i h r (szRegs sz) →
     (∀ c x, checkLanes (s.opened i h) (plainAccess false sp sz fe) (laneAddr s i h a off) (Mask.lanes (lanesOn i h s)) = .fault c x → c ≠ 0x16B →
       exec i s = .next ((s.opened i h).precise c x)) ∧
     (checkLanes (s.opened i h) (plainAccess false sp sz fe) (laneAddr s i h a off) (Mask.lanes (lanesOn i h s)) = .ok ts →
      (fe = true → full = false → exec i s = .next (s.opened i h)) ∧
      (fe = false ∨ full = true → down → lanesOn i h s ≠ 0 → s.cur.status = .running → s.cur.pendFaults.length < 8 →
        ∃ t, exec i s = .next t ∧ posts t (laneAddr s i h a off ((Mask.lanes (lanesOn i h s)).headD 0)) ∧ t.cur.s = s.cur.s ∧
          ∀ (k : Fin 240) (l : Fin 128), ((k : Nat) < r ∨ r + szRegs sz ≤ k ∨ (lanesOn i h s).getLsbD l = false) →
            t.cur.v[k][l] = s.cur.v[k][l]) ∧
      (fe = false ∨ full = true → ¬ down → (∀ p ∈ ts, fresh p.2) → ∃ t, exec i s = .next t ∧ same (s.stepped h) t ∧
        onlyV (s.stepped h) { t with mem := s.mem, logs := s.logs } ∧
        wroteV s t r (szRegs sz) (lanesOn i h s) (fun l => match ts.find? (fun p => p.1 == l) with
          | some p => extendTo (szSign sz) (BitVec.ofNat 64 (s.valueAt (szBytes sz) p.2))
          | none => 0)))) ∧
    (let i : Instr := .ldu h sp sz sc hint off (.s r) a
     uniReady s i h r (szRegs sz) →
     (lanesOn i h s = 0 → ∃ t, exec i s = .next t ∧ onlyPend (s.stepped h) t) ∧
     (∀ l t', (Mask.lanes (lanesOn i h s)).head? = some l →
      checkLanes (s.opened i h) (plainAccess false sp sz false) (fun _ => laneAddr s i h a off 0) [l] = .ok [(l, t')] →
      (down → s.cur.status = .running → s.cur.pendFaults.length < 8 →
        ∃ t, exec i s = .next t ∧ posts t (laneAddr s i h a off 0) ∧ t.cur.v = s.cur.v ∧
          ∀ k : Fin 128, ((k : Nat) < r ∨ r + szRegs sz ≤ k) → t.cur.s[k] = s.cur.s[k]) ∧
      (¬ down → fresh t' → ∃ t, exec i s = .next t ∧ same (s.stepped h) t ∧ onlyS (s.stepped h) { t with mem := s.mem, logs := s.logs } ∧
        wroteS s t r (szRegs sz) (extendTo (szSign sz) (BitVec.ofNat 64 (s.valueAt (szBytes sz) t'))))))

/-- R169, R170, R173, R174, R189, R190, R253: the stores. The stored bytes are those of `Target.cells` of the checked targets. Of a store that meets
frozen bytes, the lanes that are not refused write theirs (log 23). -/
def Obligations.StoresWriteTheirBytes : Prop :=
  ∀ (s : State) (h : Hdr) (sp : Space) (sz : Size) (hint : Nat) (fe : Bool) (off : BitVec 20) (a b : Opd) (ts : List (Nat × Target)), isReg b = true →
    let i : Instr := .st h sp sz hint fe off a b
    let n := szBytes sz
    let x := laneSrc s i h b (szRegs sz)
    -- the cells after the stores of some lanes in lane order
    let written := fun (qs : List (Nat × Target)) (t : State) => ∀ c : Nat × Nat, t.cell c = match qs.reverse.find? (fun p => (p.2.cells n).contains c) with
      | some p => byteOf (x p.1).toNat ((p.2.cells n).idxOf c)
      | none => s.cell c
    let checked := checkLanes (s.opened i h) (plainAccess true sp sz fe) (laneAddr s i h a off) (Mask.lanes (lanesOn i h s))
    clears i h s →
    (∀ c y, checked = .fault c y → c ≠ 0x16B → exec i s = .next ((s.opened i h).precise c y)) ∧
    (checked = .ok ts → (∀ p ∈ ts, s.plain p.2 ∧ (p.2.cells n).Nodup) → s.Canonical →
      ∃ t, exec i s = .next t ∧
        written ts t ∧
        (fe = true → ∀ p ∈ ts, ∀ y ∈ p.2.feLine, (s.wgOf y.1).isSome = true → t.lineFull y.1 y.2 = true) ∧
        t.cur.v = s.cur.v ∧ t.cur.s = s.cur.s ∧ t.cur.p = s.cur.p ∧ t.cur.k = s.cur.k ∧ t.cur.em = s.cur.em ∧ t.pc = s.pc + 1 ∧
        t.warps = s.warps ∧ t.eng = s.eng ∧ t.fab = s.fab ∧ t.mgmt = s.mgmt ∧ t.host = s.host ∧ t.logs = { s.logs with counters := t.logs.counters }) ∧
    (∀ p, checked = .ok ts → (∀ q ∈ ts, q.2.isRemote = false) → ts.find? (fun q => s.frozenRange n q.2) = some p →
      s.cur.status = .running → s.cur.pendFaults.length < 8 →
      ∃ t, exec i s = .next t ∧ t.pc = s.pc + 1 ∧
        t.cur.pendFaults = s.cur.pendFaults ++ [⟨0x141, s.pc, laneAddr s i h a off p.1, s.cur.path.pid, s.time, false⟩] ∧
        ((∀ q ∈ ts, s.frozenRange n q.2 = false → s.plain q.2 ∧ (q.2.cells n).Nodup) → s.Canonical →
          written (ts.filter (fun q => !s.frozenRange n q.2)) t) ∧
        t.cur.v = s.cur.v ∧ t.cur.s = s.cur.s ∧ t.cur.p = s.cur.p ∧ t.cur.k = s.cur.k)

/-- R175 to R177: the atomics, in ascending lane order. -/
def Obligations.AtomicsActInLaneOrder : Prop :=
  ∀ (s : State) (h : Hdr) (op : Aop) (sp : Space) (sz : Size) (sc : Scope) (off : BitVec 20) (r : Nat) (a b : Opd) (ts : List (Nat × Target))
    (i : Instr) (d : Bool) (new : Nat → Nat → Option Nat),
    let n := szBytes sz
    (i = .atom h op sp sz sc off (.v r) a b ∧ d = true ∧ (∀ l o, new l o = some (aopNew op (8 * n) o ((laneSrc s i h b (szRegs sz) l).toNat % 2 ^ (8 * n)))) ∨
     i = .red h op sp sz sc off a b ∧ d = false ∧ (∀ l o, new l o = some (aopNew op (8 * n) o ((laneSrc s i h b (szRegs sz) l).toNat % 2 ^ (8 * n)))) ∨
     (∃ (k : Nat) (reg : Nat → Opd), (b = .v k ∧ reg = .v ∨ b = .s k ∧ reg = .s) ∧ i = .cas h sp sz sc off (.v r) a b ∧ d = true ∧
       (∀ l o, new l o = if o = (laneSrc s i h (reg k) (szRegs sz) l).toNat % 2 ^ (8 * n)
         then some ((laneSrc s i h (reg (k + szRegs sz)) (szRegs sz) l).toNat % 2 ^ (8 * n)) else none))) →
    sz = .w32 ∨ sz = .w64 → isReg b = true →
    (if d = true then vecReady s i h r (szRegs sz) else clears i h s) →
    let down := sc = .host ∧ s.host.linkUp = false
    checkLanes (s.opened i h) (atomAccess sp sz sc) (laneAddr s i h a off) (Mask.lanes (lanesOn i h s)) = .ok ts →
    (¬ down → (∀ p ∈ ts, s.plain p.2 ∧ ∀ l l2 m, p.2 ≠ .split l l2 m) → s.Canonical →
      let m := atomRun n new ts s.cell
      ∃ t, exec i s = .next t ∧ (∀ c, t.cell c = m.2 c) ∧
        (d = true → wroteV s t r (szRegs sz) (lanesOn i h s) (fun l => BitVec.ofNat 64 (((m.1.find? (fun y => y.1 == l)).map (·.2)).getD 0))) ∧
        (d = false → t.cur.v = s.cur.v) ∧
        t.cur.s = s.cur.s ∧ t.cur.p = s.cur.p ∧ t.cur.k = s.cur.k ∧ t.cur.em = s.cur.em ∧ t.pc = s.pc + 1 ∧
        t.warps = s.warps ∧ t.eng = s.eng ∧ t.fab = s.fab ∧ t.mgmt = s.mgmt ∧ t.logs = { s.logs with counters := t.logs.counters }) ∧
    (∀ p, (∀ q ∈ ts, q.2.isRemote = false) → ts.find? (fun q => s.frozenRange n q.2) = some p →
      exec i s = .next ((s.opened i h).precise 0x140 (laneAddr s i h a off p.1))) ∧
    (down → (∀ q ∈ ts, q.2.isRemote = false ∧ s.frozenRange n q.2 = false) → lanesOn i h s ≠ 0 → s.cur.status = .running →
      s.cur.pendFaults.length < 8 →
      ∃ t, exec i s = .next t ∧ t.pc = s.pc + 1 ∧ t.mem = s.mem ∧ t.cur.s = s.cur.s ∧ t.cur.p = s.cur.p ∧ t.cur.k = s.cur.k ∧
        t.cur.pendFaults = s.cur.pendFaults ++
          [⟨0x16C, s.pc, laneAddr s i h a off ((Mask.lanes (lanesOn i h s)).headD 0), s.cur.path.pid, s.time, false⟩] ∧
        (d = false → t.cur.v = s.cur.v) ∧
        ∀ (k : Fin 240) (l : Fin 128), ((k : Nat) < r ∨ r + szRegs sz ≤ k ∨ (lanesOn i h s).getLsbD l = false) →
          t.cur.v[k][l] = s.cur.v[k][l])

/-- R178, R348, R366: FENCE. -/
def Obligations.FencesCompleteOrWait : Prop :=
  ∀ (s : State) (h : Hdr) (mode : FenceMode) (sc : Scope), let i : Instr := .fence h mode sc
    clears i h s →
    (lanesOn i h s = 0 → ∃ t, exec i s = .next t ∧ onlyPend (s.stepped h) t) ∧
    (lanesOn i h s ≠ 0 → sc ≠ .job → (sc = .host → s.host.linkUp = true ∧ (mode = .rel ∨ s.mem.hostLines = [])) →
      (sc = .pod → mode = .acq ∨ ∀ o ∈ s.fab.ops, o.warp = s.cur.id → o.answered ≠ none ∨ 3 ≤ o.kind) →
      ∃ t, exec i s = .next t ∧ onlyPend { s.stepped h with
        cur := { (s.stepped h).cur with fence := none }
        mem := { s.mem with copies := if mode ≠ .rel ∧ sc ≠ .wg then s.mem.copies.filter (fun c => c.core != some s.cur.id.core || c.tag.isSome)
          else s.mem.copies } } t) ∧
    (lanesOn i h s ≠ 0 → sc = .job → s.mgmt.timeHeld = true → ∃ (t : State) (f : FenceWait), exec i s = .next t ∧
      onlyPend { s.stepped h with cur := { (s.stepped h).cur with fence := some f } } t ∧ f.boundaries = 0 ∧ f.sc = 4 ∧ f.epc = s.pc ∧
      (f.rel = true ↔ mode ≠ .acq) ∧ (f.acq = true ↔ mode ≠ .rel)) ∧
    (lanesOn i h s ≠ 0 → sc = .host → mode ≠ .rel → s.host.linkUp = true → ∃ t, exec i s = .next t ∧ t.pc = s.pc + 1 ∧ t.cur.fence = none ∧
      t.mem.hostLines = s.mem.hostLines.map (fun p => (p.1, none)) ∧
      ∀ c ∈ t.mem.copies, c.core = some s.cur.id.core → c.tag.isSome = true) ∧
    (lanesOn i h s ≠ 0 → sc = .host → s.host.linkUp = false → s.cur.status = .running → s.cur.pendFaults.length < 8 →
      ∃ t, exec i s = .next t ∧ t.cur.pendFaults = s.cur.pendFaults ++ [⟨0x16C, s.pc, 0, s.cur.path.pid, s.time, false⟩] ∧ t.mem = s.mem ∧ t.cur.fence = s.cur.fence)

/-- R179, R180: the cache operations. -/
def Obligations.CacheOperationsMoveNoData : Prop :=
  ∀ (s : State) (h : Hdr) (sp : Space) (off : BitVec 20) (a : Opd),
    (∀ (hint : Nat) (l1 : Bool), let i : Instr := .pref h sp hint l1 off a
      clears i h s →
      let res := fun (l : Nat) => resolve (s.opened i h) (cacheAccess sp false false) l (laneAddr s i h a off l)
      let lanes := Mask.lanes (lanesOn i h s)
      -- no line that leaves a cache is dropped with bytes that its DRAM does not hold (R263)
      let calm := (∀ x ∈ s.mem.home, x.dram = none) ∨ s.noDrops ∧ ∀ l ∈ lanes, ∀ loc m, res l = .ok (.loc loc m) → m = 0
      (calm → (∀ l ∈ lanes, ∀ r g o j c, res l ≠ .ok (.remote r g o j) ∧ res l ≠ .fault c) →
        ∃ t cs hs n, exec i s = .next t ∧
          onlyPend { s.stepped h with mem := { s.mem with copies := cs, home := hs }, logs := { s.logs with counters := n } } t) ∧
      ((∀ o ∈ s.fab.ops, o.group < s.eng.nextId) → (∀ c ∈ s.eng.cmds, c.id < s.eng.nextId) →
        ∃ t, exec i s = .next t ∧ t.pc = s.pc + 1 ∧ t.cur.v = s.cur.v ∧ t.cur.s = s.cur.s ∧
        t.cur.p = s.cur.p ∧ t.cur.k = s.cur.k ∧ t.cur.em = s.cur.em ∧ t.wg = s.wg ∧ t.wgs = s.wgs ∧
        (calm → t.mem.mem = s.mem.mem ∧ t.sched = s.sched) ∧ ((∀ l ∈ lanes, ∀ c, res l ≠ .fault c) → t.mgmt = s.mgmt) ∧
        t.eng.cmds = s.eng.cmds ∧ t.eng.anvil = s.eng.anvil)) ∧
    (∀ (i : Instr) (write hf dev : Bool) (ts : List (Nat × Target)),
      (i = .cflush h sp off a ∧ write = false ∧ hf = false ∧ dev = true ∨
       i = .cinv h sp .wg off a ∧ write = false ∧ hf = false ∧ dev = false ∨
       i = .cinv h sp .dev off a ∧ write = true ∧ hf = false ∧ dev = true ∨
       i = .hflush h sp off a ∧ write = false ∧ hf = true ∧ dev = true ∧ s.host.linkUp = true) →
      clears i h s →
      (∀ l ∈ Mask.lanes (lanesOn i h s), hf = true ∨ match window (laneAddr s i h a off l) with
        | .glob _ | .priv _ | .rank _ _ _ => True
        | _ => False) →
      checkLanes (s.opened i h) (cacheAccess sp write hf) (laneAddr s i h a off) (Mask.lanes (lanesOn i h s)) = .ok ts →
      ∃ t, exec i s = .next t ∧ t.pc = s.pc + 1 ∧ t.cur.v = s.cur.v ∧ t.cur.s = s.cur.s ∧ t.cur.p = s.cur.p ∧ t.cur.k = s.cur.k ∧ t.wg = s.wg ∧
        ((∀ x ∈ s.mem.home, ∀ bs, x.dram = some bs → bs.length = 64) → s.Canonical →
          ∀ loc, (write = false ∧ (s.mem.homeLine (loc / 64)).budget = none) ∨ (s.mem.homeLine (loc / 64)).dram = none →
            t.mem.mem.get loc = s.mem.mem.get loc) ∧
        (∀ p ∈ ts, ∀ loc m, p.2 = .loc loc m → isDram loc = true → s.mem.frozen (64 * (loc / 64)) = false →
          ∀ c ∈ t.mem.copies, c.key = .loc (loc / 64) → (dev = false → c.core = some s.cur.id.core) → c.tag.isSome = true)) ∧
    (∀ i : Instr, i = .cflush h sp off a ∨ i = .cinv h sp .wg off a ∨ i = .cinv h sp .dev off a → sp = .gen → clears i h s →
      (∀ l ∈ Mask.lanes (lanesOn i h s), match window (laneAddr s i h a off l) with
        | .spad _ _ | .gang _ _ | .cwin _ => True
        | _ => False) →
      ∃ t, exec i s = .next t ∧ onlyPend (s.stepped h) t)

/-- R182: SPACE. -/
def Obligations.SpaceOfAnAddress : Prop :=
  let space := fun (core : Nat) (x : DWord) =>
    let w := x.toNat / 2 ^ 56 % 128
    if x.getLsbD 63 then 12
    else if w = 0 then 4
    else if w = 0x7C then 1
    else if w = 0x7D then (if x.toNat / 2 ^ 48 % 256 = core then 2 else 18)
    else if w = 0x7E then 3
    else if w = 0x7F then 5
    else 0
  ∀ (s : State) (h : Hdr) (r : Nat) (a : Opd), isReg a = true →
    (let i : Instr := .space h (.v r) a
     vecReady s i h r 1 → computes s i h r 1 (fun l y => y.toNat = space s.cur.id.core (laneSrc s i h a 2 l))) ∧
    (let i : Instr := .space h (.s r) a
     uniReady s i h r 1 → lanesOn i h s ≠ 0 →
     yields s i h r 1 (BitVec.ofNat 64 (space s.cur.id.core (laneSrc s i h a 2 ((Mask.lanes (lanesOn i h s)).headD 0)))))

/-- R183: CVTA, with the access kind 3 of R171. -/
def Obligations.AddressConversions : Prop :=
  let code := fun (sp : Space) => match sp with
    | .priv => 0x7C
    | .spad => 0x7D
    | .gsh => 0x7E
    | _ => 0x7F
  let inside := fun (sp : Space) (x : DWord) => match sp with
    | .glob => x.getLsbD 63 = true ∨ x.toNat / 2 ^ 56 = 0
    | q => x.toNat / 2 ^ 56 = code q
  let field := fun (sp : Space) => if sp = .spad then 48 else 56
  ∀ (s : State) (h : Hdr) (from_ : Bool) (sp : Space) (r : Nat) (a d : Opd) (i : Instr), sp ≠ .gen → isReg a = true →
    i = .cvta h from_ sp d a → d = .v r ∧ vecReady s i h r 2 ∨ d = .s r ∧ uniReady s i h r 2 ∧ (∃ k, a = .s k) → lanesOn i h s ≠ 0 →
    let core := s.cur.id.core
    let fault := fun (x : DWord) (c : Nat) =>
      (from_ = false ∨ sp = .glob) ∧ ¬ inside sp x ∧ c = 0x0BB ∨
      from_ = false ∧ sp = .spad ∧ inside sp x ∧ x.toNat / 2 ^ 48 % 256 ≠ core ∧ c = 0x0B9 ∨
      from_ = true ∧ sp ≠ .glob ∧ 2 ^ field sp ≤ x.toNat ∧ c = 0x0BA
    let value := fun (x : DWord) => if sp = .glob then x.toNat
      else if from_ then code sp * 2 ^ 56 + (if sp = .spad then core * 2 ^ 48 else 0) + x.toNat
      else x.toNat % 2 ^ field sp
    ((∀ l ∈ Mask.lanes (lanesOn i h s), ∀ c, ¬ fault (laneSrc s i h a 2 l) c) →
      (d = .v r → computes s i h r 2 (fun l y => y.toNat = value (laneSrc s i h a 2 l) % 2 ^ 64)) ∧
      (d = .s r → yields s i h r 2 (BitVec.ofNat 64 (value (laneSrc s i h a 2 0))))) ∧
    (∀ l c, l ∈ Mask.lanes (lanesOn i h s) → fault (laneSrc s i h a 2 l) c →
      (∀ k ∈ Mask.lanes (lanesOn i h s), k < l → ∀ c', ¬ fault (laneSrc s i h a 2 k) c') → exec i s = .next ((s.opened i h).precise c (laneSrc s i h a 2 l)))

/-- R184: GWIN and SPFE. That their faults leave 0 in sr.fault is the model's choice (log 69). -/
def Obligations.GangWindowsAndFullBits : Prop :=
  ∀ (s : State) (h : Hdr),
    (∀ (r : Nat) (a b : Opd) (i : Instr) (m : Nat),
      (i = .gwin h (.s r) a b ∧ m = ((s.opened i h).readUni a 1).toNat ∨ i = .gwinSelf h (.s r) b ∧ m = s.wg.linear % s.wg.gangSize) →
      uniReady s i h r 2 → lanesOn i h s ≠ 0 →
      let off := ((s.opened i h).readUni b 1).toNat
      (∀ g, m < s.wg.gangSize → s.member m = some g → off < g.kern.scratch →
        yields s i h r 2 (BitVec.ofNat 64 (0x7E * 2 ^ 56 + m * 2 ^ 52 + off))) ∧
      ((s.wg.gangSize ≤ m ∨ s.member m = none ∨ ∃ g, s.member m = some g ∧ g.kern.scratch ≤ off) →
        exec i s = .next ((s.opened i h).precise 0x0BA 0))) ∧
    (∀ (mode : SpfeMode) (n : Nat) (d a : Opd), let i : Instr := .spfe h mode n d a
      let off := ((s.opened i h).readUni a 1).toNat
      clears i h s → lanesOn i h s ≠ 0 →
      (n = 0 → ∃ t, exec i s = .next t ∧ onlyPend (s.stepped h) t) ∧
      (n ≠ 0 → s.wg.kern.scratch < off + 128 * n → exec i s = .next ((s.opened i h).precise 0x0BA 0)) ∧
      (n ≠ 0 → off + 128 * n ≤ s.wg.kern.scratch → off % 128 ≠ 0 → exec i s = .next ((s.opened i h).precise 0x0BC 0)) ∧
      (n ≠ 0 → off + 128 * n ≤ s.wg.kern.scratch → off % 128 = 0 →
        (mode ≠ .test → ∃ t, exec i s = .next t ∧ t.pc = s.pc + 1 ∧ t.mem = s.mem ∧ t.cur.v = s.cur.v ∧ t.cur.s = s.cur.s ∧
          (∀ line, t.lineFull s.wg.key line =
            if off / 128 ≤ line ∧ line < off / 128 + n then decide (mode = .full) else s.lineFull s.wg.key line) ∧
          t.wg = { s.wg with full := t.wg.full } ∧ t.wgs = s.wgs) ∧
        (∀ r, mode = .test → d = .s r → uniReady s i h r 1 → yields s i h r 1
          (BitVec.ofNat 64 ((List.range n).filter (fun k => s.lineFull s.wg.key (off / 128 + k))).length))))

/-- R185, R364, R365: OWNREQ. -/
def Obligations.OwnershipRequests : Prop :=
  ∀ (s : State) (h : Hdr) (proc : Bool) (k : Nat) (a : Opd) (va : Nat) (l : Leaf), let i : Instr := .ownreq h proc k a
    let x := (s.opened i h).readUni a 2
    let want := if proc then 1 else 2
    clears i h s → lanesOn i h s ≠ 0 → k < 16 → window x = .glob va → walk s s.wg.part va = .ok l →
    (l.own = 0 → exec i s = .next ((s.opened i h).precise 0x0BD x)) ∧
    (l.own ≠ 0 → bits l.w 2 2 = 0 → exec i s = .next ((s.opened i h).precise 0x099 x)) ∧
    (l.own ≠ 0 → bits l.w 2 2 = 1 → s.host.linkUp = true → s.mem.ownOf l.at_ = none → (s.cur.k.getD k 0).toNat + 64 ≤ 2 ^ 31 →
      (l.own = want → ∃ t, exec i s = .next t ∧ onlyPend (s.stepped h) t) ∧
      (l.own ≠ want → ∃ (t : State) (o : OwnRegion), exec i s = .next t ∧ t.cur.k.getD k 0 = s.cur.k.getD k 0 + 64 ∧
        (∀ j, j ≠ k → t.cur.k.getD j 0 = s.cur.k.getD j 0) ∧ t.mem = { s.mem with own := s.mem.own ++ [o] } ∧
        o.leafLoc = l.at_ ∧ o.target = some want ∧ o.stuck = false ∧ o.waiting = [⟨s.cur.id, s.wg.key, k, want, s.pc, s.cur.path.pid, x⟩] ∧
        t.pc = s.pc + 1 ∧ t.cur.v = s.cur.v ∧ t.cur.s = s.cur.s ∧ t.cur.p = s.cur.p))

/-- R196 to R198, R302, R312: binding, reporting, flushing and closing a port. That the first use of a port after a restore reads its record again
also where it is a flush or a close is log 80; what a close of a queue that was never joined does is log 84. -/
def Obligations.PortsBindReportAndClose : Prop :=
  (∀ (s : State) (h : Hdr) (n : Nat) (i : Instr) (mode : PortMode) (packed : Bool) (hint e k : Nat) (a b : Opd), n < 8 →
    (i = .strbIn h n packed hint e a b ∧ mode = .inp ∧ k = 0 ∨ i = .strbOut h n packed k hint a b ∧ mode = .out ∧ e = 31) →
    clears i h s → lanesOn i h s ≠ 0 →
    let base := (s.opened i h).readUni a 2
    let rcd := (s.opened i h).readUni b 2
    (s.port n ≠ none → exec i s = .next ((s.opened i h).precise 0x101 0)) ∧
    (∀ r u, s.port n = none → bindFault (s.opened i h) base = none → readRecord (s.opened i h) rcd = .ok (r, u) → recordOk r = true →
      ((layOf r).esz ≤ 4 → base.toNat % (max 1 ((layOf r).width / 8)) = 0) → (mode = .out → (layOf r).esz ≠ 0) →
      ∃ (t : State) (p : Port), exec i s = .next t ∧ t.pc = s.pc + 1 ∧ t.mem = u.mem ∧ t.cur.v = s.cur.v ∧ t.cur.s = s.cur.s ∧
        t.cur.p = s.cur.p ∧ t.cur.k = s.cur.k ∧ t.cur.ports = s.cur.ports.setIfInBounds n (some p) ∧ p.mode = mode ∧
        p.width = (layOf r).width ∧ p.packed = packed ∧ p.base = base ∧ p.record = r ∧ p.recAddr = rcd ∧ p.hint = hint ∧ p.endP = e ∧
        p.k = k ∧ p.pos = 0 ∧ p.endSeen = false ∧ p.pre = [] ∧ p.part = [])) ∧
  (∀ (s : State) (h : Hdr) (n : Nat) (i : Instr) (mode : PortMode) (w64 : Bool) (e pw pp : Nat), n < 8 →
    (i = .strbQin h n w64 e pw pp ∧ mode = .qin ∨ i = .strbQout h n w64 pw pp ∧ mode = .qout ∧ e = 31) → clears i h s → lanesOn i h s ≠ 0 →
    (s.port n ≠ none → exec i s = .next ((s.opened i h).precise 0x101 0)) ∧
    (s.port n = none → s.wg.wgsize ≤ pw ∨ pw = s.cur.index ∨ s.wg.kern.ports.getLsbD pp = false →
      exec i s = .next ((s.opened i h).precise 0x102 0)) ∧
    (s.port n = none → pw < s.wg.wgsize → pw ≠ s.cur.index → s.wg.kern.ports.getLsbD pp = true →
      (∀ v q, s.peerWarp s.wg.key pw = some v → v.ports.getD pp none = some q → q.width = if w64 then 64 else 32) →
      ∃ (t : State) (p : Port), exec i s = .next t ∧
        onlyPend { s.stepped h with cur := (s.stepped h).cur.setPort n (some p) } t ∧ p.mode = mode ∧
        p.width = (if w64 then 64 else 32) ∧ p.packed = true ∧ p.endP = e ∧ p.peerWarp = pw ∧ p.peerPort = pp ∧ p.pos = 0 ∧ p.queue = [] ∧
        p.part = [] ∧ p.closed = false ∧ p.discard = false)) ∧
  (∀ (s : State) (h : Hdr) (n r : Nat), let i : Instr := .strstat h n (.s r)
    uniReady s i h r 2 → lanesOn i h s ≠ 0 →
    (s.port n = none → yields s i h r 2 0) ∧
    (∀ p, s.port n = some p → (∀ e ∈ p.pre, e.fault = none) → ∃ b : Bool, (p.finished = false → b = (s.joined s.cur n).isSome) ∧
      yields s i h r 2 (BitVec.ofNat 64 ((p.deferred.map (·.1)).getD p.pos + 2 ^ 48 + (if p.endSeen then 2 ^ 49 else 0) +
        (if p.deferred.isSome then 2 ^ 50 else 0) + (if b then 2 ^ 51 else 0) + (if p.packed then 2 ^ 52 else 0) +
        2 ^ 53 * (match p.mode with
          | .inp => 1
          | .out => 2
          | .qin => 3
          | .qout => 4))))) ∧
  (∀ (s : State) (h : Hdr) (n : Nat) (close : Bool), let i : Instr := if close then .strclose h n else .strflush h n
    clears i h s → lanesOn i h s ≠ 0 → n < 8 →
    (s.port n = none → ∃ t, exec i s = .next t ∧ onlyPend (s.stepped h) t) ∧
    (∀ p, s.port n = some p → p.mode = .inp → ∃ t, exec i s = .next t ∧
      onlyPend { s.stepped h with cur := if close then (s.stepped h).cur.setPort n none else (s.stepped h).cur } t) ∧
    (∀ p c x, s.port n = some p → p.mode = .out → p.reread = true → readRecord (s.opened i h) p.recAddr = .fault c x →
      exec i s = .next ((s.opened i h).stopAt c x)) ∧
    (∀ p, s.port n = some p → p.mode = .out → p.reread = false → ∃ t, exec i s = .next t ∧ t.pc = s.pc + 1 ∧ t.cur.k = s.cur.k ∧ t.mem = s.mem ∧
      t.cur.ports = s.cur.ports.setIfInBounds n (if close then none else some { p with part := [] }) ∧
      -- what stands collected is sent: a piece of each push's command holds its elements
      t.eng.cmds = s.eng.cmds.map (fun c =>
        let mine := p.part.filter (fun e => e.2.2 == c.id)
        if mine.isEmpty then c else { c with
          pieces := c.pieces ++ [{ idx := (mine.head?.map (·.1)).getD 0, bytes := mine.flatMap (fun e => pushBytes p e.1 e.2.1), mem := 0,
                                   drop := mine.length * (p.width / 8) }]
          todo := c.todo.filter (fun j => !(mine.any (fun e => e.1 == j))) }) ∧
      t.cur.v = s.cur.v ∧ t.cur.s = s.cur.s ∧ t.cur.p = s.cur.p) ∧
    (∀ p v q, s.port n = some p → p.mode = .qout → p.discard = false → s.joined s.cur n = some (v, q) → v.id ≠ s.cur.id → p.part.length < 128 →
      (∀ e ∈ p.part, e.2.2 = 0) → q.queue.length + p.part.length ≤ 512 →
      ∃ t q', exec i s = .next t ∧ t.pc = s.pc + 1 ∧ t.mem = s.mem ∧ t.cur.v = s.cur.v ∧ t.cur.s = s.cur.s ∧
        (t.cur.ports.getD n none = if close then none else some { p with part := [] }) ∧
        (t.warpAt v.id).map (fun w => w.ports.getD p.peerPort none) = some (some q') ∧
        q'.queue = q.queue ++ p.part.map (·.2.1) ∧ (q'.closed = (close || q.closed)))) ∧
  (∀ (s : State) (i : Instr) (h : Hdr), ((vecShape i).isSome = true ∨ (testShape i).isSome = true) → clears i h s → lanesOn i h s = 0 →
    ∃ t, exec i s = .next t ∧ onlyPend (s.stepped h) t)

/-- R186 to R188: FRZ, THAW and FRZQ. That FRZ takes the free entry with the lowest index is the model's choice (log 97); that a THAW of an entry
whose installation is not complete waits is log 24. -/
def Obligations.FreezingAndThawing : Prop :=
  ∀ (s : State) (h : Hdr) (k : Nat),
    (∀ (sc : Scope) (r : Nat) (a b : Opd) (va : Nat) (rs : List (Nat × Nat)), let i : Instr := .frz h sc k (.s r) a b
      let base := (s.opened i h).readUni a 2
      let len := (s.opened i h).readUni b 2
      uniReady s i h r 1 → lanesOn i h s ≠ 0 →
      (base.toNat % 4096 ≠ 0 ∨ len = 0 ∨ len.toNat % 4096 ≠ 0 → exec i s = .next ((s.opened i h).precise 0x143 0)) ∧
      (base.toNat % 4096 = 0 → len.toNat % 4096 = 0 → sc.code ≤ (s.part s.wg.part).frzMax + 2 → window base = .glob va →
        2 ^ 56 < va + len.toNat → exec i s = .next ((s.opened i h).precise 0x147 base)) ∧
      (base.toNat % 4096 = 0 → len ≠ 0 → len.toNat % 4096 = 0 → sc.code ≤ (s.part s.wg.part).frzMax + 2 → window base = .glob va →
        va + len.toNat ≤ 2 ^ 56 →
        freezeRanges (s.opened i h) sc.code s.wg.part va (len.toNat / 4096) = .ok rs → roomK s k 64 →
        ((∀ j : Fin 64, s.mem.frz[j].state ≠ .free) → exec i s = .next ((s.opened i h).precise 0x144 0)) ∧
        (∀ j : Fin 64, s.mem.frz[j].state = .free → (∀ m : Fin 64, m < j → s.mem.frz[m].state ≠ .free) →
          ∃ t e, exec i s = .next t ∧ t.pc = s.pc + 1 ∧ t.mem = { s.mem with frz := s.mem.frz.set j e } ∧ e.state = .pending ∧
            e.gen = s.mem.frz[j].gen ∧ e.sc = sc.code ∧ e.part = s.wg.part ∧ e.job = s.wg.job s ∧ e.ranges = rs ∧ e.owner = some (s.cur.id, s.wg.key, k) ∧
            counted s t k 64 ∧ wroteS s t r 1 (BitVec.ofNat 64 (j + 64 * e.gen.toNat)) ∧ t.cur.v = s.cur.v ∧ t.cur.p = s.cur.p))) ∧
    (∀ (a : Opd), let i : Instr := .thaw h k a
      let x := ((s.opened i h).readUni a 1).toNat
      ∀ j : Fin 64, (j : Nat) = x % 64 → clears i h s → lanesOn i h s ≠ 0 →
      let e := s.mem.frz[j]
      let own := e.part = s.wg.part ∧ e.job = s.wg.job s
      (e.state ≠ .free → ¬ own → exec i s = .next ((s.opened i h).precise 0x145 0)) ∧
      (e.state = .pending → own → exec i s = .next (s.opened i h)) ∧
      (e.state = .free ∨ own ∧ (e.state = .thawing ∨ e.state = .installed ∧ e.gen.toNat ≠ x / 64) →
        exec i s = .next ((s.opened i h).precise 0x146 0)) ∧
      (e.state = .installed → own → e.gen.toNat = x / 64 → roomK s k (64 * (s.scopeRanks e.sc).length) →
        ∃ t, exec i s = .next t ∧ t.pc = s.pc + 1 ∧ counted s t k (64 * (s.scopeRanks e.sc).length) ∧ t.mem.mem = s.mem.mem ∧
          t.mem.frz = s.mem.frz.set j
            { e with state := .thawing, owner := some (s.cur.id, s.wg.key, k), acks := s.scopeRanks e.sc, since := s.clk, overdue := false } ∧ sameRegs s t)) ∧
    (∀ (r : Nat) (a : Opd) (l m : Nat), let i : Instr := .frzq h (.s r) a
      uniReady s i h r 2 → lanesOn i h s ≠ 0 → resolve (s.opened i h) frzqAccess 0 ((s.opened i h).readUni a 2) = .ok (.loc l m) →
      let cov := fun (j : Fin 64) => s.mem.frz[j].active && s.mem.frz[j].covers l
      ((∀ j, cov j = false) → yields s i h r 2 0) ∧
      -- the lowest covering entry, the widest scope of all, whether one thaws, and their number
      (∀ (j m : Fin 64), cov j = true → (∀ x, x < j → cov x = false) → cov m = true → (∀ x, cov x = true → s.mem.frz[x].sc ≤ s.mem.frz[m].sc) →
        yields s i h r 2 (BitVec.ofNat 64 (1 + 2 * s.mem.frz[m].sc +
          (if (List.finRange 64).any (fun x => cov x && s.mem.frz[x].state == .thawing) then 16 else 0) +
          256 * ((List.finRange 64).filter cov).length + 2 ^ 32 * (j + 64 * s.mem.frz[j].gen.toNat)))))

/-- R191 to R194: remote regions. -/
def Obligations.RemoteRegions : Prop :=
  ∀ (s : State) (h : Hdr),
    (∀ (r : Nat) (a : Opd), let i : Instr := .rbegin h (.s r) a
      let area := (s.opened i h).readUni a 2
      uniReady s i h r 1 → lanesOn i h s ≠ 0 →
      (s.cur.region ≠ none → exec i s = .next ((s.opened i h).precise 0x120 0)) ∧
      (s.cur.region = none → s.inBase = false → exec i s = .next ((s.opened i h).precise 0x122 0)) ∧
      (∀ c, s.cur.region = none → s.inBase = true → areaFault (s.opened i h) area = some c → exec i s = .next ((s.opened i h).precise c area)) ∧
      (∀ ts, s.cur.region = none → s.inBase = true → areaFault (s.opened i h) area = none → areaTargets (s.opened i h) true area 274 = .ok ts →
        (∀ p ∈ ts, s.plain p.2) → s.Canonical → (ts.flatMap (fun p => p.2.cells 64)).Nodup →
        ∃ t g, exec i s = .next t ∧ t.pc = s.pc + 1 ∧ t.cur.region = some g ∧ g.area = area ∧ g.slot = s.pc ∧ g.d = r ∧ g.failed = none ∧
          wroteS s t r 1 0 ∧ t.cur.v = s.cur.v ∧ t.cur.p = s.cur.p ∧ t.cur.k = s.cur.k ∧
          (∀ n c, (ts.flatMap (fun p => p.2.cells 64))[n]? = some c → t.cell c = (s.opened i h).checkpoint.getD n 0) ∧
          (∀ c, c ∉ ts.flatMap (fun p => p.2.cells 64) → t.cell c = s.cell c))) ∧
    (let i : Instr := .rcommit h
     clears i h s → lanesOn i h s ≠ 0 →
     (s.cur.region = none → exec i s = .next ((s.opened i h).precise 0x121 0)) ∧
     (∀ g, s.cur.region = some g →
      (s.inBase = false → exec i s = .next ((s.opened i h).precise 0x122 0)) ∧
      (s.inBase = true → s.regionBusy s.cur.id = true → exec i s = .next (s.opened i h)) ∧
      (s.inBase = true → s.regionBusy s.cur.id = false → g.failed = none →
        ∃ t, exec i s = .next t ∧ onlyPend { s.stepped h with cur := { (s.stepped h).cur with region := none } } t) ∧
      (∀ c ts, s.inBase = true → s.regionBusy s.cur.id = false → g.failed = some c → g.d < 128 →
        areaTargets (s.opened i h) false g.area 274 = .ok ts → (∀ p ∈ ts, s.plain p.2 ∧ p.2.aligned 64 ∧ ∀ l m, p.2 = .loc l m →
          ∀ x, s.mem.l1 s.cur.id.core (.loc (l / 64)) = some x → x.tag = none) →
        ∃ t, exec i s = .next t ∧ t.pc = g.slot + 1 ∧ t.cur.stack = [] ∧ t.cur.region = none ∧ t.cur.s.getD g.d 0 = BitVec.ofNat 32 c ∧
          t.mem.mem = s.mem.mem ∧ t.wg = s.wg ∧
          (let byte := fun (n : Nat) => match (ts.flatMap (fun p => p.2.cells 64))[n]? with
             | some c => s.cell c
             | none => 0
           let word := fun (n : Nat) => byte (n + 3) ++ byte (n + 2) ++ byte (n + 1) ++ byte n
           (∀ l : Fin 128, t.cur.em.getLsbD l = ((byte (l / 8)).getLsbD (l % 8) && !s.cur.exited.getLsbD l)) ∧
           (∀ j : Fin 16, t.cur.k[j] = word (32 + 4 * j)) ∧ (∀ j : Fin 128, (j : Nat) ≠ g.d → t.cur.s[j] = word (96 + 4 * j)) ∧
           (∀ (j : Fin 31) (l : Fin 128), t.cur.p[j].getLsbD l = (word (608 + 4 * l)).getLsbD j) ∧
           (∀ (j : Fin 240) (l : Fin 128), t.cur.v[j][l] = if (j : Nat) < 32 then word (1152 + 512 * j + 4 * l) else s.cur.v[j][l])))))

/-- R42, R200 to R215: the issue of the class 5 instructions. -/
def Obligations.EngineInstructionsQueueTheirWork : Prop :=
  ∀ (s : State) (h : Hdr) (k : Nat) (d a b : Opd),
    (∀ (i : Instr) (scatter copyg : Bool) (sg : Sg) (hint : Nat) (slot : Option (Nat × Bool × Nat)),
      (i = .copy h scatter sg hint k d a b ∧ copyg = false ∧ slot = none ∨
       i = .copyg h sg hint k d a b ∧ scatter = false ∧ copyg = true ∧ slot = none ∨
       (∃ o side off, i = .copygSlot h o side sg hint k off a b ∧ scatter = false ∧ copyg = true ∧ slot = some (o, side, off)) ∨
       (∃ o side off, i = .copym h o side false sg hint k off a b ∧ scatter = false ∧ copyg = false ∧ slot = some (o, side, off))) →
      clears i h s →
      let o := s.opened i h
      let dst := if slot.isSome then 0 else o.readUni d 2
      (s.converged (lanesOn i h s) = false → exec i s = .next (o.precise 0x0E1 0)) ∧
      (∀ r remote u, s.converged (lanesOn i h s) = true → s.mgmt.fencedBellows.getLsbD s.cur.id.core = false →
        copyCheck o scatter copyg dst (slot.map (fun x => (if x.2.1 then 4096 else 16384, 128 * x.2.2))) (o.readUni a 2) (o.readUni b 2) =
          .ok (r, remote, u) →
        roomK s k (layOf r).bytes → s.copyCount s.cur.id.core < 64 →
        ∃ t, exec i s = .next t ∧ t.pc = s.pc + 1 ∧ counted s t k (layOf r).bytes ∧ sameRegs s t ∧ t.mem = u.mem ∧
          queued s t k (fun c => ∃ base cont g, c.kind = .copy scatter r base cont g ∧ base = (if scatter then dst else o.readUni a 2) ∧
            c.hint = hint ∧ c.remote = decide (remote ≠ 0) ∧ c.follow = none ∧ c.copyg.isSome = copyg ∧
            (copyg = false → c.todo = List.range (layOf r).blocks)))) ∧
    (∀ (o : Nat) (side : Bool) (sg : Sg) (hint off : Nat) (r : List Byte) (remote : Nat) (u : State) (f : Follow),
      let i : Instr := .copym h o side true sg hint k off a b
      clears i h s → s.converged (lanesOn i h s) = true → s.mgmt.fencedBellows.getLsbD s.cur.id.core = false →
      copyCheck (s.opened i h) false false 0 (some (if side then 4096 else 16384, 128 * off)) ((s.opened i h).readUni a 2)
        ((s.opened i h).readUni b 2) = .ok (r, remote, u) →
      let more := fun (j : Nat) => (if j = k then (layOf r).bytes else 0) + (if f.k = some j then 64 else 0)
      followCheck (s.opened i h) = .ok f → (∀ c ∈ s.eng.cmds, c.id ≠ s.eng.nextId) → (∀ j, more j ≠ 0 → roomK s j (more j)) → k < 16 →
      s.copyCount s.cur.id.core < 64 →
      ∃ t, exec i s = .next t ∧ t.pc = s.pc + 2 ∧ (∀ j, t.cur.k.getD j 0 = s.cur.k.getD j 0 + BitVec.ofNat 32 (more j)) ∧ sameRegs s t ∧
        queued s t k (fun c => c.follow.isSome = true) ∧
        enqueued s t f.t (.mma (s.wg.fs.getD f.fs 0) f.z f.sparse f.sg f.oa f.ob f.om f.k) true) ∧
    (∀ (i : Instr) (src : Option DWord) (c : Opd) (ls ld : List Nat), let o := s.opened i h
      (i = .rowcpy h k d a c ∧ src = some (o.readUni a 2) ∨ i = .rowzero h k d c ∧ src = none) → clears i h s → lanesOn i h s ≠ 0 →
      let dst := o.readUni d 2
      let len := (o.readUni c 1).toNat
      let bad := fun (x : DWord) => x.toNat % 1024 ≠ 0 ∨ rowWindow x = false
      (len % 1024 ≠ 0 ∨ len = 0 ∨ 2 ^ 31 < len ∨ bad dst ∨ (∃ x, src = some x ∧ bad x) → exec i s = .next (o.precise 0x0EC 0)) ∧
      (len % 1024 = 0 → len ≠ 0 → len ≤ 2 ^ 31 → ¬ bad dst → (∀ x, src = some x → ¬ bad x ∧ rowRange o 0 x (len / 256) = .ok ls) →
        rowRange o 1 dst (len / 256) = .ok ld →
        (src.isSome = true → (∃ l ∈ ls, l ∈ ld) → exec i s = .next (o.precise 0x0ED 0)) ∧
        ((src.isSome = true → ∀ l ∈ ls, l ∉ ld) → roomK s k len →
          ∃ t, exec i s = .next t ∧ t.pc = s.pc + 1 ∧ counted s t k len ∧ sameRegs s t ∧ t.mem = s.mem ∧
            queued s t k (fun c => c.todo = List.range (len / 1024) ∧
              (∀ x, src = some x → c.kind = .rowcpy ls ld x dst) ∧ (src = none → c.kind = .rowzero ld dst))))) ∧
    (∀ (kind : RankKind) (n : Nat) (r : List Byte) (u : State) (x y : Nat), let i : Instr := .rank h kind n k d a b
      let o := s.opened i h
      let base := o.readUni a 2
      let l := layOf r
      clears i h s → lanesOn i h s ≠ 0 → readRecord o (o.readUni b 2) = .ok (r, u) → rankRecordOk kind.code r = true → rowWindow base = true →
      patternCheck u 0 l base = .ok x →
      (∀ j < l.e 1, ∀ m < l.e 0 * (l.width / 8), notHbm u (base + BitVec.ofInt 64 (j * l.st 1 + m)) = false) →
      8 * n * l.e 1 ≤ 2 ^ 31 → spanCheck u 1 8 (o.readUni d 2) (8 * n * l.e 1) = .ok y → roomK s k (8 * n * l.e 1) →
      ∃ t, exec i s = .next t ∧ t.pc = s.pc + 1 ∧ counted s t k (8 * n * l.e 1) ∧ sameRegs s t ∧ t.mem = u.mem ∧
        queued s t k (fun c => c.kind = .rank kind.code n r base (o.readUni d 2) ∧ c.todo = List.range (l.e 1))) ∧
    (∀ (t' : Nat) (c : Opd) (x y z : Nat), let i : Instr := .tgen h t' k d a b c
      let o := s.opened i h
      let n := (o.readUni c 2).toNat % 2 ^ 32
      let cap := (o.readUni c 2).toNat / 2 ^ 32
      clears i h s → lanesOn i h s ≠ 0 →
      (n = 0 ∨ 4096 < n → exec i s = .next (o.precise 0x0EF 0)) ∧
      (0 < n → n ≤ 4096 → spanCheck o 0 4 (o.readUni a 2) (4 * n) = .ok x → spanCheck o 1 4 (o.readUni d 2) (16 + 16 * n) = .ok y →
        spanCheck o 1 8 (o.readUni b 2) (8 * cap) = .ok z → roomK s k 64 →
        ∃ t, exec i s = .next t ∧ t.pc = s.pc + 1 ∧ counted s t k 64 ∧ sameRegs s t ∧ t.mem = s.mem ∧
          queued s t k (fun q => q.kind = .tgen t' n cap (o.readUni a 2) (o.readUni d 2) (o.readUni b 2)))) ∧
    (∀ mask : BitVec 16, let i : Instr := .waitk h mask
      clears i h s → lanesOn i h s ≠ 0 →
      ((∀ j : Fin 16, mask.getLsbD j = true → s.cur.k[j] = 0) →
        ∃ t, exec i s = .next t ∧ onlyPend { s.stepped h with cur := { (s.stepped h).cur with hold := .none } } t) ∧
      ((∃ j : Fin 16, mask.getLsbD j = true ∧ s.cur.k[j] ≠ 0) →
        exec i s = .next { s.opened i h with cur := { (s.opened i h).cur with hold := .waitk mask } })) ∧
    (∀ (i : Instr) (x : Int) (imm : BitVec 20), (i = .kadd h k a ∧ x = ((s.opened i h).readUni a 1).toInt ∨ i = .kaddImm h k imm ∧ x = imm.toInt) →
      clears i h s → lanesOn i h s ≠ 0 → k < 16 →
      let y := (s.cur.k.getD k 0).toNat + (if 2 ^ 31 ≤ x then x - 2 ^ 32 else x)
      (0 ≤ y ∧ y ≤ 2 ^ 31 ∨ y = -2 ^ 31 → ∃ t, exec i s = .next t ∧
        onlyPend { s.stepped h with cur := { (s.stepped h).cur with k := s.cur.k.setIfInBounds k (BitVec.ofInt 32 y) } } t) ∧
      (y < 0 ∧ y ≠ -2 ^ 31 ∨ 2 ^ 31 < y → exec i s = .next ((s.opened i h).precise 0x028 0))) ∧
    (∀ (pd r : Nat) (c : Opd), let i : Instr := .route h pd (.v r) a b c
      let lo := fun (x : DWord) => x.toNat % 2 ^ 32
      let keep := fun (l : Nat) =>
        decide ((Fmt.f32.val (lo (laneSrc s i h b 1 l))).cmp (Fmt.f32.val (lo (laneSrc s i h c 1 l))) = some .lt) &&
        !(Fmt.f32.val (lo (laneSrc s i h a 2 l))).isNan && decide ((laneSrc s i h a 2 l).toNat / 2 ^ 32 ≠ 0xFFFFFFFF)
      isReg a = true → isReg b = true → isReg c = true → vecReady s i h r 2 → certain (s.opened i h) (.p pd) →
      ∃ t, exec i s = .next t ∧ onlyVP (s.stepped h) t ∧ wroteP s t pd (lanesOn i h s) keep ∧
        wroteV s t r 2 (lanesOn i h s) (fun l => if keep l
          then BitVec.ofNat 64 (fAdd .f32 .rn false (lo (laneSrc s i h b 1 l)) (lo (laneSrc s i h a 2 l)) +
            2 ^ 32 * ((laneSrc s i h a 2 l).toNat / 2 ^ 32))
          else BitVec.ofNat 64 (lo (laneSrc s i h b 1 l) + 2 ^ 32 * 0xFFFFFFFF)))

/-- R42, R200, R216 to R223: the issue of the class 6 instructions. That a misaligned offset of SLOTRD or SLOTWR is 0x0EB too is log 35. -/
def Obligations.AnvilInstructionsQueueTheirWork : Prop :=
  ∀ (s : State) (h : Hdr), s.anvilFenced = false →
    (∀ (o n1 : Nat), let i : Instr := .claimo h o n1
      clears i h s → lanesOn i h s ≠ 0 → (∀ x ∈ s.wg.order, x.write = true ∨ x.slot < o ∨ o + n1 < x.slot) →
      ∃ t, exec i s = .next t ∧ onlyPend { s.stepped h with wg := { s.wg with claimed := t.wg.claimed } } t ∧
        ∀ x, x ∈ t.wg.claimed ↔ (o ≤ x ∧ x ≤ o + n1) ∨ x ∈ s.wg.claimed) ∧
    (∀ (o n1 : Nat), let i : Instr := .relo h o n1
      clears i h s → lanesOn i h s ≠ 0 →
      ∃ t, exec i s = .next t ∧ onlyPend { s.stepped h with wg := { s.wg with claimed := t.wg.claimed, order := t.wg.order } } t ∧
        (∀ x, x ∈ t.wg.claimed ↔ x ∈ s.wg.claimed ∧ ¬ (o ≤ x ∧ x ≤ o + n1)) ∧
        (∀ x ∈ t.wg.order, x.needRelo = true → x.slot < o ∨ o + n1 < x.slot)) ∧
    (∀ (x n1 : Nat), let i : Instr := .claima h x n1
      clears i h s → lanesOn i h s ≠ 0 → (∀ t, x ≤ t → t ≤ x + n1 → t ∈ s.wg.live ∨ s.tileBusy s.wg.key t = false) →
      ∃ t, exec i s = .next t ∧ onlyPend { s.stepped h with wg := { s.wg with live := t.wg.live, tiles := t.wg.tiles } } t ∧
        (∀ y, y ∈ t.wg.live ↔ y ∈ s.wg.live ∨ x ≤ y ∧ y ≤ x + n1) ∧
        (∀ y < 16, s.Canonical → ∀ w < 16384, t.wg.tiles.get (16384 * y + w) =
          if x ≤ y ∧ y ≤ x + n1 ∧ y ∉ s.wg.live then 0 else s.wg.tiles.get (16384 * y + w))) ∧
    (∀ (x n1 : Nat), let i : Instr := .rela h x n1
      clears i h s → lanesOn i h s ≠ 0 →
      ∃ t, exec i s = .next t ∧ onlyPend { s.stepped h with wg := { s.wg with live := t.wg.live } } t ∧
        ∀ y, y ∈ t.wg.live ↔ y ∈ s.wg.live ∧ ¬ (x ≤ y ∧ y ≤ x + n1)) ∧
    (∀ (z hk : Bool) (sg : Sg) (fs tile oa ob om k : Nat) (sparse : Bool) (i : Instr),
      (i = .mma h z hk sg fs tile oa ob k ∧ sparse = false ∧ om = 0 ∨ i = .mmas h z hk sg fs tile oa ob om k ∧ sparse = true) →
      clears i h s →
      (s.converged (lanesOn i h s) = false → exec i s = .next ((s.opened i h).precise 0x0E1 0)) ∧
      (s.converged (lanesOn i h s) = true → mmaFault (s.opened i h) sparse fs tile oa ob om = none →
        (16 ≤ s.anvilCount s.cur.id.core → exec i s = .next (s.opened i h)) ∧
        (s.anvilCount s.cur.id.core < 16 → roomK s k (if hk then 64 else 0) → ∃ t, exec i s = .next t ∧ t.pc = s.pc + 1 ∧
          counted s t k (if hk then 64 else 0) ∧ sameRegs s t ∧ t.mem = s.mem ∧ t.wg.slots = s.wg.slots ∧ t.wg.tiles = s.wg.tiles ∧
          enqueued s t tile (.mma (s.wg.fs.getD fs 0) z sparse sg.code oa ob om (if hk then some k else none)) false))) ∧
    (∀ (i : Instr) (tile k n : Nat) (d a : Opd) (op : AOp), let o := s.opened i h
      let at_ := o.readUni a 2
      let p := (o.readUni d 1).toNat
      let dp := (o.readUni d 2).toNat
      (i = .accz h tile ∧ n = 0 ∧ op = .accz ∨
       i = .accld h tile k d a ∧ n = 65536 ∧ op = .accld at_ p k ∧ p % 64 = 0 ∧ tileSpace 0 at_ = none ∧
         (∃ x, rangeCheck o 0 64 at_ at_ (tileEnd at_ p) = .ok x) ∨
       i = .accst h tile k d a ∧ n = 65536 ∧ op = .accst at_ p k ∧ p % 64 = 0 ∧ 512 ≤ p ∧ tileSpace 1 at_ = none ∧
         (∃ x, rangeCheck o 1 64 at_ at_ (tileEnd at_ p) = .ok x) ∨
       (∃ (ord i32 : Bool) (va : Nat), i = .accred h ord i32 tile k d a ∧ n = 65536 ∧ dp % 2 ^ 32 % 64 = 0 ∧ 512 ≤ dp % 2 ^ 32 ∧
         op = .accred at_ (dp % 2 ^ 32) i32 (if ord then some (dp / 2 ^ 32 % 65536, dp / 2 ^ 48) else none) k ∧
         (ord = false → dp / 2 ^ 32 = 0) ∧ (ord = true → dp / 2 ^ 32 % 65536 < dp / 2 ^ 48) ∧ window at_ = .glob va ∧
         (∃ x, rangeCheck o 2 64 at_ at_ (tileEnd at_ (dp % 2 ^ 32)) = .ok x))) →
      clears i h s → lanesOn i h s ≠ 0 →
      (tile ∉ s.wg.live → exec i s = .next (o.precise 0x0E7 0)) ∧
      (tile ∈ s.wg.live → 16 ≤ s.anvilCount s.cur.id.core → exec i s = .next o) ∧
      (tile ∈ s.wg.live → s.anvilCount s.cur.id.core < 16 → roomK s k n → ∃ t, exec i s = .next t ∧ t.pc = s.pc + 1 ∧ counted s t k n ∧
        sameRegs s t ∧ t.mem = s.mem ∧ t.wg = s.wg ∧ enqueued s t tile op false)) ∧
    (∀ (tile n1 r : Nat) (a : Opd), let i : Instr := .accrd h tile n1 (.v r) a
      clears i h s → lanesOn i h s ≠ 0 → tile ∈ s.wg.live → s.anvilCount s.cur.id.core < 16 → ∃ t, exec i s = .next t ∧ t.pc = s.pc + 1 ∧
        t.cur.v = s.cur.v ∧ t.cur.s = s.cur.s ∧ t.cur.p = s.cur.p ∧ t.mem = s.mem ∧ t.wg = s.wg ∧
        enqueued s t tile (.accrd r (((s.opened i h).readUni a 1).toNat % 128) (n1 + 1) (lanesOn i h s) h.sb) false) ∧
    (∀ (side : Bool) (o r : Nat) (a : Opd), let i : Instr := .slotrd h side o (.v r) a
      let off := ((s.opened i h).readUni a 1).toNat
      clears i h s → lanesOn i h s ≠ 0 →
      (slotFits (lanesOn i h s) side off = false → exec i s = .next ((s.opened i h).precise 0x0EB 0)) ∧
      (slotFits (lanesOn i h s) side off = true → s.anvilCount s.cur.id.core < 16 → ∃ t, exec i s = .next t ∧ t.pc = s.pc + 1 ∧
        t.cur.v = s.cur.v ∧ t.cur.s = s.cur.s ∧ t.cur.p = s.cur.p ∧ t.mem = s.mem ∧ t.wg.slots = s.wg.slots ∧
        enqueued s t 16 (.slotrd side o off ((Mask.lanes (lanesOn i h s)).map (fun l => (l, .lane r 1 l))) h.sb) false)) ∧
    (∀ (side : Bool) (o : Nat) (d a : Opd), let i : Instr := .slotwr h side o d a
      let off := ((s.opened i h).readUni a 1).toNat
      let base := 20480 * o + (if side then 16384 else 0) + off
      isReg d = true → clears i h s →
      (slotFits (lanesOn i h s) side off = false → exec i s = .next ((s.opened i h).precise 0x0EB 0)) ∧
      (slotFits (lanesOn i h s) side off = true → lanesOn i h s ≠ 0 → (∃ x ∈ s.wg.order, x.slot = o ∧ x.write = false ∧ x.needRelo = false) →
        exec i s = .next (s.opened i h)) ∧
      (slotFits (lanesOn i h s) side off = true → (∀ x ∈ s.wg.order, x.slot ≠ o ∨ x.needRelo = true ∨ x.write = true) → s.Canonical →
      ∃ t, exec i s = .next t ∧ onlyPend { s.stepped h with wg := { s.wg with slots := t.wg.slots, order := t.wg.order } } t ∧
        t.wg.order.map (fun x => (x.slot, x.write, x.lo, x.hi)) = s.wg.order.map (fun x => (x.slot, x.write, x.lo, x.hi)) ∧
        (∀ l : Fin 128, (lanesOn i h s).getLsbD l = true → ∀ j < 4, t.wg.slots.get (base + 4 * l + j) = byteOf (laneSrc s i h d 1 l).toNat j) ∧
        (∀ n, (∀ l : Fin 128, (lanesOn i h s).getLsbD l = true → n < base + 4 * l ∨ base + 4 * l + 4 ≤ n) →
          t.wg.slots.get n = s.wg.slots.get n)))

/-- The values of R39, R335, R420, R421 and R423 after reset. The outcome of bring-up is log 7, that memory reads 0 is log 3, and the registers of the
warp that is not there, sr.cause, sr.epc and sr.fault among them, are 0 by log 10. -/
def Obligations.ResetValues : Prop :=
  let r := State.reset
  (r.cur.status = .free ∧ r.warps = [] ∧ r.wgs = [] ∧ r.sched.queues = [] ∧ r.sched.pool = [] ∧ r.sched.launches = [] ∧ r.sched.saved = []) ∧
  ((∀ (n : Fin 240) (l : Fin 128), r.cur.v[n][l] = 0) ∧ (∀ n : Fin 128, r.cur.s[n] = 0) ∧ (∀ n : Fin 31, r.cur.p[n] = 0) ∧
    (∀ n : Fin 16, r.cur.k[n] = 0) ∧ r.cur.em = 0 ∧ r.cur.stack = [] ∧ r.cur.spilled = 0 ∧ (∀ n : Fin 8, r.cur.ports[n] = none) ∧
    r.cur.trapMode = false ∧ r.cur.cause = 0 ∧ r.cur.epc = 0 ∧ r.cur.fault = 0) ∧
  ((∀ a, r.mem.mem.get a = 0) ∧ r.mem.copies = [] ∧ r.mem.tlb = [] ∧ r.mem.poison = [] ∧
    (∀ n : Fin 64, r.mem.frz[n] = FrzEntry.blank) ∧ FrzEntry.blank.state = .free ∧ FrzEntry.blank.gen = 0) ∧
  (∀ p : Fin 8, r.mgmt.parts[p] = Part.blank) ∧ (Part.blank.enable = false ∧ Part.blank.ptroot = 0 ∧ Part.blank.cores = 0 ∧
    Part.blank.tlimit = 0 ∧ Part.blank.intMask = 0 ∧ Part.blank.intStat = 0 ∧ Part.blank.disable = 0) ∧
  (∀ q : Fin 256, r.mgmt.queues[q] = { depth := 4, prio := 0, part := 0, isOpen := false, full := false }) ∧
  (r.mgmt.pcap = 3600 ∧ r.mgmt.retxt = 5000 ∧ r.mgmt.svcto = 1000 ∧ r.mgmt.err = false ∧ r.mgmt.recovery = false ∧ r.mgmt.rtBase = 0 ∧
    r.mgmt.nRank = 0 ∧ r.mgmt.selfRank = 0 ∧ r.mgmt.quiesce = false ∧ r.mgmt.bbPage = 0 ∧ r.mgmt.regMask = 0 ∧ r.mgmt.cmdRing = 0 ∧
    r.mgmt.svcRing = 0 ∧ r.mgmt.cntCtl = 0) ∧
  (r.mgmt.fencedCore = 0 ∧ r.mgmt.fencedChan = 0 ∧ r.mgmt.fencedPlane = 0 ∧ r.mgmt.fencedPort = 0 ∧ r.mgmt.fencedAnvil = 0 ∧
    r.mgmt.fencedBellows = 0 ∧ r.mgmt.fencedL2 = 0 ∧ r.mgmt.fencedRdc = 0) ∧
  (r.logs.events = [] ∧ r.logs.bbHead = 0 ∧ r.eng.cmds = [] ∧ r.eng.anvil = [] ∧ r.eng.contribs = [] ∧ r.fab.ops = []) ∧
  -- the model's own choices: logs 1, 3, 7 and 10
  (r.agenda = [] ∧ r.mgmt.ready = true ∧ r.mgmt.timeHeld = true ∧ r.mgmt.planeEn = 0xFFFF ∧ r.time = 0 ∧ r.clk = 0 ∧ r.mgmt.mhz = 2500)

/-- The premise of CanonicalKeptByEveryStep holds at reset. -/
def Obligations.CanonicalAtReset : Prop := State.reset.Canonical

/-- The canonical form of every store is kept by every step, whatever moves. -/
def Obligations.CanonicalKeptByEveryStep : Prop := ∀ s t : State, s.Canonical → step s = .next t → t.Canonical

/-- R213, the output of one row. -/
def Obligations.RankOutput : Prop :=
  ∀ (f : Fmt) (n : Nat) (row : List Nat), ∃ best : List Nat,
    let val := fun (c : Nat) => f.val (row.getD c 0)
    best.Nodup ∧ best.length = min n row.length ∧ (∀ c ∈ best, c < row.length) ∧
    (∀ i j, i < j → j < best.length → rankBefore (val (best.getD i 0), best.getD i 0) (val (best.getD j 0), best.getD j 0) = true) ∧
    (∀ c < row.length, c ∉ best → ∀ b ∈ best, rankBefore (val b, b) (val c, c) = true) ∧
    rankOut f n row = best.flatMap (fun c => leBytes 4 (Fmt.f32.round .rn false (val c)) ++ leBytes 4 c) ++
      ((List.range (n - row.length)).flatMap (fun _ => leBytes 4 0xFF800000 ++ leBytes 4 0xFFFFFFFF)) ∧
    (∀ a b : FVal × Nat, a.1.isNan = true → b.1.isNan = false → rankBefore b a = true ∧ rankBefore a b = false) ∧
    (∀ a b : FVal × Nat, a.1.isNan = false → b.1.isNan = false → a.1.cmp b.1 = some .gt → rankBefore a b = true ∧ rankBefore b a = false) ∧
    -- equal values, −0 and +0 among them, and NaNs stand by ascending column
    (∀ a b : FVal × Nat, a.1.isNan = true ∧ b.1.isNan = true ∨ a.1.isNan = false ∧ b.1.isNan = false ∧ a.1.cmp b.1 = some .eq →
      rankBefore a b = decide (a.2 ≤ b.2)) ∧
    (∀ a : FVal, a.isNan = true → Fmt.f32.round .rn false a = 0x7FC00000)

/-- R81, R82, R151, R159, R162, R194, R239 to R241, R264, R268, R273, R274 as events. What a TRAP_ENTRY of a hardware cause names, and which moment
it strikes, is log 75; that PAGE_WALK fills the TLBs of the focused core and of its hearth, the oldest entry giving way, is log 76. -/
def Obligations.WarpEvents : Prop :=
  (∀ (s : State) (core quad : Nat),
    -- the quadrant's cycle is due: the next step is it
    exec (.quadrantIssue core quad) s = .next { s with due := some (core, quad) } ∧
    (s.quadWarps core quad = [] → ∃ t, s.issue exec core quad = (t, none) ∧ t.clk = s.clk + 1 ∧ t.cur.v = s.cur.v ∧ t.pc = s.pc ∧
      t.mem.mem = s.mem.mem)) ∧
  (∀ (ptr : Nat) (ws : List (Nat × Nat × Nat)), ws ≠ [] → (∀ x ∈ ws, x.1 < 16) → ptr < 16 → (ws.map (fun x => x.1)).Nodup →
    ∃ y ∈ ws, chooseWarp ptr ws = some y.1 ∧
      ((∃ x ∈ ws, 240 ≤ x.2.1) → ∀ z ∈ ws, z ≠ y → z.2.1 < y.2.1 ∨ z.2.1 = y.2.1 ∧ y.1 < z.1) ∧
      ((∀ x ∈ ws, x.2.1 < 240) → ∀ z ∈ ws, z ≠ y → z.2.1 + 16 * z.2.2 < y.2.1 + 16 * y.2.2 ∨
        z.2.1 + 16 * z.2.2 = y.2.1 + 16 * y.2.2 ∧ (y.1 + 16 - ptr) % 16 < (z.1 + 16 - ptr) % 16)) ∧
  -- a debug comparator is set or switched off
  (∀ (s : State) (core slot path : Nat) (j : Fin 8) (addr : DWord), ∃ t, exec (.trapEntry core slot path (0x018 + j) addr) s = .next t ∧
    (Config.debugFused = true → t = s) ∧
    (Config.debugFused = false → t = { s with mgmt := { s.mgmt with comparators := s.mgmt.comparators.set j (if path = 0 then some addr else none) } })) ∧
  (∀ (s : State) (core slot : Nat) (w : Warp), let id : WarpId := ⟨core, slot⟩
    s.warpAt id = some w →
    (∀ n p a b c, w.pend[n]? = some p → p.lat = .fixed a b c →
      ∃ t, exec (.fixedLatencyWriteback core slot n) s = .next t ∧
        onlyWarp s t id { w with pend := w.pend.modify n (fun p => { p with old := w.held p.reg }) }) ∧
    (∀ e n, 1 ≤ e → e ≤ 7 → w.sb.getD (e - 1) 0 = n → s.countedOut w e < n → ∃ t, exec (.variableResultDone core slot e) s = .next t ∧
      onlyWarp s t id { w with sb := w.sb.setIfInBounds (e - 1) (n - 1),
                               pend := if n = 1 then w.pend.map (fun p => match p.lat with
                                 | .var sb _ => if sb = e then { p with lat := .var sb true } else p
                                 | .fixed _ _ _ => p) else w.pend }) ∧
    (∀ since till watch, w.hold = .sleep since till watch → since < s.clk → ∃ t, exec (.sleepWake core slot) s = .next t ∧
      onlyWarp s t id { w with hold := .none } ∧ ∀ x ∈ t.mem.watch, x.1 ≠ id) ∧
    (∀ till left, w.hold = .yield till left → till ≤ s.clk ∨ left = [] → ∃ t, exec (.yieldExpire core slot) s = .next t ∧
      onlyWarp s t id { w with hold := .none }) ∧
    (w.status = .killed → (s.dropDoomed w).workLeft w = true → ∃ t, exec (.warpSlotFree core slot) s = .next t ∧ t.warpAt id = some w) ∧
    (w.status = .ended ∧ s.warpBusy w = false ∨ w.status = .killed ∧ (s.dropDoomed w).workLeft w = false → ∃ t, exec (.warpSlotFree core slot) s = .next t ∧
      (∀ w', t.warpAt id = some w' → w' = { Warp.blank with id := id }) ∧ (∀ j, j ≠ id → t.warpAt j = s.warpAt j) ∧
      t.mem.mem = s.mem.mem ∧ (w.status = .ended → t.eng = s.eng) ∧
      (w.status = .killed → ∀ c ∈ t.eng.cmds, ¬ (c.warp = id ∧ c.wg = w.wg))) ∧
    (∀ g, s.wgOf w.wg = some g → w.status = .running →
      (∀ cause addr, 0x010 ≤ cause ∧ cause < 0x018 ∨ 0x02A ≤ cause ∧ cause < 0x030 → w.stack = [] → w.spilled = 0 → w.trapMode = false →
        w.hold = .none → g.status = .resident → g.kern.handler ≠ 0 →
        ((s.focusOn id).modCur (fun x => { x with issuing := 0 })).mayStrike cause = true →
        ∃ t w', exec (.trapEntry core slot 0 cause addr) s = .next t ∧ onlyWarp s t id w' ∧ w'.trapMode = true ∧
          w'.cause = BitVec.ofNat 9 cause ∧ w'.epc = w.base.pc ∧
          w'.fault = 0 ∧ w'.path.pc = g.kern.handler ∧
          w'.path.mask = w.base.mask ∧ w'.path.rpc = trapMark ∧ w'.stack.length = 1 ∧ w'.base = w.base ∧ w'.v = w.v ∧ w'.s = w.s ∧ w'.p = w.p ∧
          w'.k = w.k) ∧
      (∀ n p cause addr, 0x040 ≤ cause → cause < 0x050 → w.pend[n]? = some p → (s.focusOn id).unitAt p.epc = some (match cause % 4 with
          | 0 => .v
          | 1 => .f
          | 2 => .u
          | _ => .m) → (cause - 0x040) / 4 = slot / 16 → w.pendFaults.length < 8 →
        ∃ t, exec (.trapEntry core slot n cause addr) s = .next t ∧
          onlyWarp s t id { w.undo p.path p.epc with pendFaults := w.pendFaults ++
            [{ cause := cause, epc := p.epc, addr := 0, pid := p.path, since := s.time, late := false }] }) ∧
      (∀ path cause addr, 0x030 ≤ cause → cause < 0x040 → cause - 0x030 = slot % 16 → g.status = .stopping ∨ w.last = .restored → ∃ t w', exec (.trapEntry core slot path cause addr) s = .next t ∧
        t.warpAt id = some w' ∧ w'.status = .killed ∧ (∀ l ∈ t.sched.launches, l.key = g.launch → l.cancelled = true) ∧ t.mem.mem = s.mem.mem) ∧
      (∀ path cause addr a, 0x058 ≤ cause → cause < 0x060 → s.eng.anvil.find? (fun a => a.id == path && a.started && a.warp == id && a.wg == g.key) = some a →
        ∃ t, exec (.trapEntry core slot path cause addr) s = .next t ∧ (∀ x ∈ t.eng.anvil, x.id ≠ path) ∧ t.mem.mem = s.mem.mem) ∧
      (∀ f r, w.pendFaults = f :: r → w.stack = [] → w.spilled = 0 → w.hold = .none → w.trapMode = false → g.kern.handler ≠ 0 →
        ∃ t w', exec (.impreciseFaultTaken core slot) s = .next t ∧ onlyWarp s t id w' ∧ w'.pendFaults = r ∧ w'.trapMode = true ∧
          w'.cause = BitVec.ofNat 9 f.cause ∧ w'.epc = f.epc ∧ w'.fault = f.addr ∧ w'.path.pc = g.kern.handler ∧ w'.path.mask = w.base.mask ∧
          w'.base = w.base ∧ w'.v = w.v ∧ w'.s = w.s ∧ w'.p = w.p ∧ w'.k = w.k) ∧
      (∀ n f, w.pendFaults[n]? = some f → w.trapMode = true → f.late = false → f.since + 1000000 ≤ s.time →
        ∃ t, exec (.pendingFaultTimeout core slot n) s = .next t ∧
        onlyWarp s t id { w with pendFaults := w.pendFaults.modify n (fun f => { f with late := true }) } ∧
        t.logs.bbHead = s.logs.bbHead + 1 ∧ t.logs.events.head? = some
          { time := s.time, cause := f.cause, kind := 0, part := g.part, core := core, slot := slot, epc := f.epc, addr := f.addr }) ∧
      (∀ r c ts, w.region = some r → r.failed = some c → r.d < 128 → s.regionBusy id = false → w.trapMode = false → w.hold = .none →
        areaTargets (s.focusOn id) false r.area 274 = .ok ts → (∀ p ∈ ts, (s.focusOn id).plain p.2 ∧ p.2.aligned 64 ∧ ∀ l m, p.2 = .loc l m →
          ∀ x, s.mem.l1 core (.loc (l / 64)) = some x → x.tag = none) →
        ∃ t w', exec (.remoteRollback core slot) s = .next t ∧ t.warpAt id = some w' ∧ (∀ j, j ≠ id → t.warpAt j = s.warpAt j) ∧
          t.mem.mem = s.mem.mem ∧ w'.region = none ∧ w'.stack = [] ∧ w'.base.pc = r.slot + 1 ∧ w'.s.getD r.d 0 = BitVec.ofNat 32 c ∧
          w'.exited = w.exited ∧ ∀ j : Fin 240, 32 ≤ (j : Nat) → w'.v[j] = w.v[j]))) ∧
  (∀ (s : State) (part : Nat) (va : DWord) (l : Leaf), walk s part va.toNat = .ok l → ∃ t, exec (.pageWalk part va) s = .next t ∧
    let hearth := s.cur.id.core / 48
    let entry := fun (core : Option Nat) => TlbEntry.mk core hearth (s.part part).asid (va.toNat / 2 ^ l.size) l.size (BitVec.ofNat 64 l.w) l.at_
    t.mem.tlb.head? = some (entry (some s.cur.id.core)) ∧ entry none ∈ t.mem.tlb ∧
    (t.mem.tlb.filter (fun e => e.core == some s.cur.id.core && e.hearth == hearth)).length ≤ 256 ∧
    (t.mem.tlb.filter (fun e => e.core == none && e.hearth == hearth)).length ≤ 16384 ∧
    t.mem.mem = s.mem.mem ∧ t.cur = s.cur ∧ t.warps = s.warps ∧
    (∀ e ∈ s.mem.tlb, e.hearth ≠ hearth ∨ e.core ≠ none ∧ e.core ≠ some s.cur.id.core → e ∈ t.mem.tlb))

/-- R201 to R215, R293 to R298, R321, R327 to R329 as events of the bellows. That of several writes of one byte the last stays, where R293 leaves
the value of either visit, is the model's choice (log 98); that TGEN writes its table before its list is log 37. -/
def Obligations.EngineEvents : Prop :=
  ∀ (s : State) (id : Nat) (c : Cmd), s.eng.cmds.find? (fun c => c.id == id) = some c → (s.wgOf c.wg).isSome = true → s.Canonical →
    let u := s.viewOf c
    let byteAt := fun (a : DWord) => match resolve (u.seenBy c.pins) (engAccess 0) 0 a with
      | .ok t => ((t.cells 1).map u.cell).headD 0
      | _ => 0
    let readable := fun (a : DWord) => ∃ t, resolve (u.seenBy c.pins) (engAccess 0) 0 a = .ok t ∧ u.plain t
    let quiet := c.copyg = none ∧ c.follow = none ∧ c.refused = none ∧ (∀ o ∈ s.fab.ops, o.group ≠ id) ∧ u.fenced c = true
    -- a piece lands
    (∀ (p : Piece) (ts : List (Target × DWord × Byte)) (ow : WarpId) (k : Nat) (w : Warp),
      c.pieces.find? (fun q => q.idx == p.idx) = some p →
      (match c.kind with
        | .tileLoad _ => False
        | .push _ => False
        | .rowcpy _ _ _ _ => False
        | .rowzero _ _ => False
        | .tgen _ _ _ _ _ _ => 16 ≤ p.idx ∧ p.idx < 32
        | _ => True) →
      u.fenced c = true → u.pieceWaits c p = false → u.slotsReady c p = true → u.pieceOwner c p.mem = some (ow, k) →
      (∀ d ∈ s.eng.cmds, d.follow ≠ none → d.refused = none ∧ ∀ o ∈ s.fab.ops, o.group = d.id → o.refused = [] ∧ o.answered ≠ some (some 5)) →
      landTargets u c.pins p.bytes = .ok (ts, []) → u.local1 ts → u.warpAt ow = some w → k < 16 → p.drop ≤ (w.k.getD k 0).toNat →
      ∃ t w', exec (.engineWriteLands id p.idx) s = .next t ∧ (∀ x, t.cell x = landed s.cell ts x) ∧ t.warpAt ow = some w' ∧
        (w'.k.getD k 0).toNat = (w.k.getD k 0).toNat - p.drop ∧ w'.v = w.v ∧ w'.s = w.s ∧ w'.p = w.p ∧
        ∀ d ∈ t.eng.cmds, d.id = id → ∀ q ∈ d.pieces, q.idx ≠ p.idx) ∧
    -- a block of a copy is fetched, or its fetch fails
    (∀ (blk : Nat), let srcs := (c.moves c.wg blk).map (fun m => if m.2.isNone then ByteSrc.val 0 else m.1)
      canFetch u c blk = true →
      ((∀ x ∈ srcs, match x with
          | .at a => readable a
          | .val _ => True) →
        ∃ t got pn, exec (.copyBlockFetch id blk) s = .next t ∧ t.mem.mem = s.mem.mem ∧
          got = srcs.map (fun x => ((match x with
            | .at a => byteAt a
            | .val b => b), (none : Option (Target × DWord)))) ∧
          t.eng.cmds.find? (fun d => d.id == id) = some { c with
            todo := c.todo.filter (fun b => b != blk), pieces := c.pieces ++ (makePieces c blk (u.copyMembers c) got).1,
            pins := pn }) ∧
      (∀ cause a, u.readMoves c.pins c.hint c.core [] srcs = .fault cause a →
        ∃ t, exec (.copyLateFault id blk) s = .next t ∧ t.mem.mem = s.mem.mem ∧
          ∀ d ∈ t.eng.cmds, d.id = id → d.todo = [] ∧ d.failed = some (cause, a))) ∧
    -- the follow-on of a COPYM
    (∀ i, c.follow = some i → u.cmdIdle c = true → s.anvilCount c.core < 16 → ∃ t, exec (.followOnHandoff id) s = .next t ∧ t.mem = s.mem ∧
      t.eng.cmds = s.eng.cmds.filter (fun d => d.id != id) ∧
      t.eng.anvil = s.eng.anvil.map (fun a => if a.id = i then { a with waitsCopy := false } else a)) ∧
    -- row operations
    (∀ (blk : Nat) (src dst : List Nat) (a b : DWord) (w : Warp),
      let ds := (dst.drop (4 * blk)).take 4
      let fs := (src.drop (4 * blk)).take 4
      blk ∈ c.todo → ds.length = 4 →
      -- no granule is written yet, and none has to wait for another operation on its channel
      (∀ i < 4, c.wrote blk i = false ∧ u.channelBusy c (channelOf (dst.getD (4 * blk + i) 0)) = false) → (∀ d ∈ ds, d % 256 = 0 ∧ ∀ j < 256, u.mem.frozen (d + j) = false) → ds.Nodup → quiet → u.warpAt c.warp = some w →
      c.k < 16 → 1024 ≤ (w.k.getD c.k 0).toNat →
      (c.kind = .rowzero dst b → ∃ t w', exec (.rowBlockWritten id blk) s = .next t ∧
        (∀ x, t.mem.mem.get x = if ∃ d ∈ ds, d ≤ x ∧ x < d + 256 then 0 else s.mem.mem.get x) ∧
        t.warpAt c.warp = some w' ∧ (w'.k.getD c.k 0).toNat = (w.k.getD c.k 0).toNat - 1024 ∧
        ∀ d ∈ t.eng.cmds, d.id = id → blk ∉ d.todo) ∧
      (c.kind = .rowcpy src dst a b → c.wroteBack = true → fs.length = ds.length →
        (∀ f ∈ fs, (∀ d ∈ ds, f + 256 ≤ d ∨ d + 256 ≤ f) ∧ ∀ i < 4, u.mem.poisonOf (f + 64 * i) = none) →
        ∃ t w', exec (.rowBlockWritten id blk) s = .next t ∧
        (∀ (i f d : Nat), fs[i]? = some f → ds[i]? = some d → ∀ j < 256, t.mem.mem.get (d + j) = s.mem.mem.get (f + j)) ∧
        (∀ x, (∀ d ∈ ds, x < d ∨ d + 256 ≤ x) → t.mem.mem.get x = s.mem.mem.get x) ∧
        t.warpAt c.warp = some w' ∧ (w'.k.getD c.k 0).toNat = (w.k.getD c.k 0).toNat - 1024 ∧
        ∀ d ∈ t.eng.cmds, d.id = id → blk ∉ d.todo)) ∧
    (∀ (src dst : List Nat) (a b : DWord), c.kind = .rowcpy src dst a b → c.wroteBack = false →
      ∃ t, exec (.rowSourceWriteback id) s = .next t ∧ t.mem.mem = s.mem.mem ∧
        (∀ x ∈ src, ∀ i < 4, (t.mem.homeLine (x / 64 + i)).dram = none) ∧
        t.eng.cmds.find? (fun d => d.id == id) = some { c with wroteBack := true }) ∧
    -- RANK and TGEN
    (∀ (row kind n : Nat) (r : List Byte) (base out : DWord) (ts : List (Target × DWord × Byte)),
      let l := layOf r
      let w := l.width / 8
      let a := base + BitVec.ofInt 64 (row * l.st 1)
      let bs := (List.range (l.e 0 * w)).map (fun i => byteAt (a + BitVec.ofNat 64 i))
      let vals := (List.range (l.e 0)).map (fun j => leNat ((bs.drop (w * j)).take w))
      let f := if kind = 0 then Fmt.f32 else if kind = 1 then Fmt.f16 else Fmt.bf16
      let bytes := (rankOut f n vals).zipIdx.map (fun b => (LandDest.addr, out + BitVec.ofNat 64 (8 * n * row) + BitVec.ofNat 64 b.2, b.1))
      c.kind = .rank kind n r base out → row ∈ c.todo → quiet → (∀ i < l.e 0 * w, readable (a + BitVec.ofNat 64 i)) →
      landTargets u (pinAll u c.pins ((List.range (l.e 0 * w)).map (fun i => a + BitVec.ofNat 64 i))) bytes = .ok (ts, []) → u.local1 ts →
      ∃ t, exec (.rankRowWritten id row) s = .next t ∧ (∀ x, t.cell x = landed s.cell ts x) ∧ ∀ d ∈ t.eng.cmds, d.id = id → row ∉ d.todo) ∧
    (∀ (h n cap : Nat) (counts tab list : DWord), c.kind = .tgen h n cap counts tab list → quiet →
      (c.todo ≠ [] → (∀ i < 4 * n, readable (counts + BitVec.ofNat 64 i)) → ∃ t p pn, exec (.tgenDone id) s = .next t ∧ t.mem.mem = s.mem.mem ∧
        t.eng.cmds.find? (fun d => d.id == id) = some { c with todo := [], pieces := [p], pins := pn } ∧ p.idx = 0 ∧
        p.bytes.map (fun b => b.2.2) = (List.range (4 * n)).map (fun i => byteAt (counts + BitVec.ofNat 64 i))) ∧
      (∀ p ts, c.todo = [] → c.pieces = [p] → p.idx = 0 →
        let m := (List.range n).foldl (fun m e => tgenStep h cap m e (leNat (((p.bytes.map (fun b => b.2.2)).drop (4 * e)).take 4)))
          { off := 0, tiles := 0, ne := 0, big := 0, recs := [], entries := [] }
        let put : DWord → List Byte → List (LandDest × DWord × Byte) := fun at_ bs =>
          bs.zipIdx.map (fun b => (LandDest.addr, at_ + BitVec.ofNat 64 b.2, b.1))
        landTargets u c.pins (put tab (leBytes 4 m.tiles ++ leBytes 4 m.ne ++ leBytes 4 m.big ++ leBytes 4 (if cap < m.tiles then 1 else 0) ++ m.recs) ++
          put list m.entries) = .ok (ts, []) → u.local1 ts →
        ∃ t, exec (.tgenDone id) s = .next t ∧ (∀ x, t.cell x = landed s.cell ts x) ∧
          ∀ d ∈ t.eng.cmds, d.id = id → d.todo = [] ∧ d.pieces = []))

/-- R217 to R223, R291, R299, R300, R33, R36 as events of the anvil and of the adders. R291 names the array and the accumulator store as what an
operation occupies; that a SLOTRD runs beside both is the model's reading (log 5, DEDUCED). Where a slot or a tile that an operation reads holds an
uncorrectable error see R278; the clauses on results are about the others. -/
def Obligations.AnvilEvents : Prop :=
  (∀ (s : State) (core : Nat) (kind : AnvilKind) (a : AnvilOp),
    (∀ x ∈ s.eng.anvil, ¬ (x.core = core ∧ x.started = true ∧ x.op.kind = kind)) →
    s.eng.anvil.find? (fun x => x.core == core && x.op.kind == kind && s.mayStart x) = some a →
    let v := (s.focusOn a.warp).focusWg a.wg
    let begun := s.eng.anvil.map (fun (x : AnvilOp) => if x.id = a.id then { x with started := true } else x)
    ((∀ addr p k, a.op ≠ .accld addr p k) → ∃ t, exec (.anvilOpStart core kind) s = .next t ∧ t.eng = { s.eng with anvil := begun } ∧ t.mem = s.mem) ∧
    (∀ addr p k, a.op = .accld addr p k → (∀ d ∈ s.eng.cmds, d.id < s.eng.nextId) →
      (∀ m < 128, ∀ x ∈ tileRow addr p m, ∃ tg, resolve (v.seenBy ⟨[], []⟩) (engAccess 0) 0 x = .ok tg ∧ v.plain tg) →
      ∃ t c, exec (.anvilOpStart core kind) s = .next t ∧ t.eng.anvil = begun ∧ t.eng.cmds = s.eng.cmds ++ [c] ∧ c.kind = .tileLoad a.id ∧
        c.k = k ∧ t.mem.mem = s.mem.mem ∧ c.pieces.length = 128 ∧
        ∀ m < 128, ∃ q, c.pieces[m]? = some q ∧ q.idx = 16 * m ∧ q.drop = 512 ∧
          q.bytes.map (fun b => b.2.2) = (tileRow addr p m).map (fun x => match resolve (v.seenBy ⟨[], []⟩) (engAccess 0) 0 x with
            | .ok tg => ((tg.cells 1).map v.cell).headD 0
            | _ => 0))) ∧
  (∀ (s : State) (id : Nat) (a : AnvilOp) (g : Wgroup) (w : Warp), s.eng.anvil.find? (fun x => x.id == id && x.started) = some a →
    s.wgOf a.wg = some g → s.warpAt a.warp = some w → w.wg = a.wg → s.Canonical →
    let v := (s.focusOn a.warp).focusWg a.wg
    let gone := fun (t : State) => exec (.anvilOpComplete id) s = .next t ∧ ∀ x ∈ t.eng.anvil, x.id ≠ id
    (∀ d z sp sg oa ob om k, a.op = .mma d z sp sg oa ob om k → g.badSlots ((fslotOf d).reads oa ob om) = false →
      (z = false ∨ a.step ≠ 0 → g.badTile a.tile = false) → ∃ t g' w', gone t ∧ t.wgOf a.wg = some g' ∧ t.mem.mem = s.mem.mem ∧
      (a.step = 0 → ∀ m < 128, ∀ n < 128, g'.tiles.get (tileIdx a.tile m n) = BitVec.ofNat 32 (g.mmaElem (fslotOf d) sg oa ob om m n
        (if z then 0 else (g.tiles.get (tileIdx a.tile m n)).toNat))) ∧
      (a.step ≠ 0 → ∀ m < 128, ∀ n < 128, g'.tiles.get (tileIdx a.tile m n) = BitVec.ofNat 32 (g.mmaSpan (fslotOf d) sg oa ob om m n
        (g.tiles.get (tileIdx a.tile m n)).toNat (a.step * granuleSteps sg) (granulesOf d sg * granuleSteps sg))) ∧
      (∀ x, x / 16384 ≠ a.tile → g'.tiles.get x = g.tiles.get x) ∧ t.warpAt a.warp = some w' ∧ w'.v = w.v ∧
      (∀ kk, k = some kk → kk < 16 → 64 ≤ (w.k.getD kk 0).toNat → (w'.k.getD kk 0).toNat = (w.k.getD kk 0).toNat - 64)) ∧
    (a.op = .accz → ∃ t g', gone t ∧ t.wgOf a.wg = some g' ∧ t.mem.mem = s.mem.mem ∧
      ∀ x, g'.tiles.get x = if x / 16384 = a.tile then 0 else g.tiles.get x) ∧
    (∀ addr p k c q, a.op = .accld addr p k → (s.eng.cmds.find? (fun c => match c.kind with
        | .tileLoad i => i == a.id
        | _ => false)) = some c →
      (∀ o ∈ s.fab.ops, o.group = c.id → o.answered ≠ none) → c.pieces = (List.range 128).map q → (∀ m < 128, (q m).idx = 16 * m) →
      ∃ t g', gone t ∧ t.wgOf a.wg = some g' ∧ t.mem.mem = s.mem.mem ∧
        (∀ m < 128, ∀ n < 128, g'.tiles.get (tileIdx a.tile m n) =
          BitVec.ofNat 32 (leNat ((((q m).bytes.map (fun b => b.2.2)).drop (4 * n)).take 4))) ∧
        (∀ x, x / 16384 ≠ a.tile → g'.tiles.get x = g.tiles.get x)) ∧
    (∀ addr p k, a.op = .accst addr p k → g.badTile a.tile = false → ∃ t c, gone t ∧ t.eng.cmds = s.eng.cmds ++ [c] ∧ c.kind = .tile ∧ c.id = a.id ∧ c.k = k ∧ c.todo = [] ∧
      c.warp = a.warp ∧ c.pieces.length = 128 ∧ t.mem = s.mem ∧
      ∀ m < 128, ∃ q, c.pieces[m]? = some q ∧ q.drop = 512 ∧
        q.bytes = ((tileRow addr p m).zip (g.rowBytes a.tile m)).map (fun b => (LandDest.addr, b.1, b.2))) ∧
    (∀ addr p i32 ord k (loc mode : Nat → Nat), a.op = .accred addr p i32 ord k → g.badTile a.tile = false →
      (∀ l ∈ s.sched.launches, l.key = g.launch → l.cancelled = false) →
      (∀ i < 1024, resolve v { engAccess 2 with size := 64 } 0 (addr + BitVec.ofNat 64 (i / 8 * p + 64 * (i % 8))) = .ok (.loc (loc i) (mode i))) →
      ∃ t ks, gone t ∧ t.mem = s.mem ∧ t.eng.contribs = s.eng.contribs ++ ks ∧ ks.length = 1024 ∧
        ∀ i < 1024, ∃ q, ks[i]? = some q ∧ q.id = s.eng.nextId ∧ q.idx = i ∧ q.isI32 = i32 ∧ q.ord = ord ∧ q.k = k ∧ q.launch = g.launch ∧ q.held = false ∧
          q.noRoom = false ∧ q.words.length = 16 ∧ ∀ j < 16, ∃ x, q.words[j]? = some (loc i + 4 * j, x, g.tiles.get (tileIdx a.tile (i / 8) (16 * (i % 8) + j)))) ∧
    (∀ d row rows mask sb, a.op = .accrd d row rows mask sb → g.badTile a.tile = false → d + rows ≤ 240 → rows ≤ 128 → ∃ t w', gone t ∧ t.warpAt a.warp = some w' ∧ t.mem.mem = s.mem.mem ∧
      (∀ j (h : d + j < 240) (l : Fin 128), j < rows → w'.v[d + j][l] =
        if mask.getLsbD l then g.tiles.get (tileIdx a.tile ((row + j) % 128) l) else w.v[d + j][l]) ∧
      (∀ (r : Fin 240), (r : Nat) < d ∨ d + rows ≤ r → w'.v[r] = w.v[r]) ∧ w'.s = w.s ∧ w'.p = w.p ∧ w'.k = w.k) ∧
    (∀ side o off mask sb (r : Fin 240), a.op = .slotrd side o off ((Mask.lanes mask).map (fun l => (l, .lane r 1 l))) sb →
      (∀ l < 128, mask.getLsbD l = true → g.bad.contains (2 ^ 40 + (slotAt side o off + 4 * l) / 64) = false) →
      ∃ t w', gone t ∧ t.warpAt a.warp = some w' ∧ t.mem.mem = s.mem.mem ∧
      (∀ (r' : Fin 240) (l : Fin 128), w'.v[r'][l] = if r' = r ∧ mask.getLsbD l then
        BitVec.ofNat 32 (leNat (g.slots.getN (slotAt side o off + 4 * l) 4)) else w.v[r'][l]) ∧ w'.s = w.s ∧ w'.p = w.p ∧ w'.k = w.k)) ∧
  (∀ (s : State) (id piece : Nat) (c : Contrib) (i : Instr),
    (i = .accredContributionArrive id piece ∧ s.eng.contribs.find? (fun c => c.id == id && c.idx == piece && !c.held && !c.noRoom) = some c ∨
     i = .accredRoomFreed id piece ∧ s.heldLines c.slice < 16384 ∧ s.isSaved c.wg = false ∧
       s.eng.contribs.find? (fun c => c.id == id && c.idx == piece && c.noRoom) = some c) →
    (c.ord = none → s.Canonical → s.noDrops → s.mem.poisonOf (64 * c.line) = none → (c.words.map (fun x => x.1)).Nodup →
      (∀ x ∈ c.words, x.1 % 4 = 0 ∧ x.1 < cwBase ∧ s.mem.frozenN x.1 4 = false ∧ (s.mem.homeLine (x.1 / 64)).budget = none) →
      ∃ t, exec i s = .next t ∧
        (∀ x ∈ c.words, leNat (t.mem.mem.getN x.1 4) = if c.isI32 then (leNat (s.mem.mem.getN x.1 4) + x.2.2.toNat) % 2 ^ 32
          else fAdd .f32 .rn false (leNat (s.mem.mem.getN x.1 4)) x.2.2.toNat % 2 ^ 32) ∧
        (∀ y, (∀ x ∈ c.words, y < x.1 ∨ x.1 + 4 ≤ y) → t.mem.mem.get y = s.mem.mem.get y) ∧
        ∀ y ∈ t.eng.contribs, ¬ (y.id = c.id ∧ y.idx = c.idx)) ∧
    (∀ j n, c.ord = some (j, n) → c.held = false →
      let mates := s.eng.contribs.filter (fun x => x.held && x.line == c.line)
      (∀ x ∈ mates, ∀ j' n', x.ord = some (j', n') → j' ≠ j ∧ n' = n) → s.heldLines c.slice < 16384 →
      (s.eng.contribs.filter (fun x => (x.held || decide (x.id = c.id ∧ x.idx = c.idx)) && x.line == c.line)).length < n →
      ∃ t, exec i s = .next t ∧ t.mem = s.mem ∧ t.eng.cmds = s.eng.cmds ∧
        t.eng.contribs = s.eng.contribs.map (fun x => if x.id = c.id ∧ x.idx = c.idx then { x with held := true, noRoom := false } else x)))

/-- R186, R187, R313 to R318, R352, R356, R357 as events of the tongs and of the frozen table. R314 lets the elements of pushes land in any order: that
the oldest beat of a push lands first, and that of several writes of one byte the last one stays, are the model's choices (logs 30 and 98). -/
def Obligations.StreamAndFreezeEvents : Prop :=
  (∀ (s : State) (core slot port pos : Nat) (w : Warp) (p : Port), let id : WarpId := ⟨core, slot⟩
    s.warpAt id = some w → w.status = .running → w.ports.getD port none = some p → p.mode = .inp → p.reread = false → p.deferred = none → pos < p.len →
    p.pos ≤ pos → pos < p.pos + 512 → (∀ e ∈ p.pre, e.pos ≠ pos) →
    (∀ o ∈ s.fab.ops, ∀ b nib, o.dst ≠ .pre port b pos nib) →
    ∀ a m nib, (layOf p.record).elem p.base pos = some (a, m, nib) →
    let v := s.focusOn id
    (∀ c b, engTargets v 0 a m = .fault c b → ∃ t, exec (.tongsPrefetch core slot port pos) s = .next t ∧
      onlyWarp s t id (w.setPort port (some { p with pre := { pos := pos, val := 0, fault := some (c, a) } :: p.pre }))) ∧
    (∀ ts, engTargets v 0 a m = .ok ts → (∀ tg ∈ ts, v.plain tg) →
      let x := BitVec.ofNat 64 (leNat (ts.map (fun tg => ((tg.cells 1).map v.cell).headD 0)) / 2 ^ (4 * nib) % 2 ^ p.width)
      ∃ t, exec (.tongsPrefetch core slot port pos) s = .next t ∧
        onlyWarp s t id (w.setPort port (some { p with pre := { pos := pos, val := x, fault := none } :: p.pre })))) ∧
  (∀ (s : State) (id : Nat) (c : Cmd) (wd : Nat) (p : Piece) (rest : List Piece) (ts : List (Target × DWord × Byte)),
    s.eng.cmds.find? (fun c => c.id == id) = some c → (s.wgOf c.wg).isSome = true → s.Canonical → c.kind = .push wd → c.pieces = p :: rest →
    let u := s.viewOf c
    (∀ b ∈ p.bytes, b.1 = .addr) → u.beatWaits c = false → u.fenced c = true → 0 < wd → p.bytes.length % wd = 0 → landTargets u c.pins p.bytes = .ok (ts, []) → u.local1 ts →
    ∃ t, exec (.streamBeatWrite id) s = .next t ∧ (∀ x, t.cell x = landed s.cell ts x) ∧
      ∀ d ∈ t.eng.cmds, d.id = id → ∀ q ∈ d.pieces, q.idx ≠ p.idx) ∧
  (∀ (s : State) (core slot port : Nat) (w v : Warp) (p q : Port), let id : WarpId := ⟨core, slot⟩
    s.warpAt id = some w → w.ports.getD port none = some p → p.mode = .qout → s.joined w port = some (v, q) → 128 ≤ p.part.length →
    q.queue.length + 128 ≤ 512 → (∀ e ∈ p.part.take 128, e.2.2 = 0) → s.warpAt v.id = some v → (v.id = id → p.peerPort ≠ port) →
    ∃ t w' v', exec (.queueBeatSend core slot port) s = .next t ∧ t.warpAt id = some w' ∧ t.warpAt v.id = some v' ∧ t.mem = s.mem ∧
      w'.ports.getD port none = some { p with part := p.part.drop 128 } ∧
      v'.ports.getD p.peerPort none = some { q with queue := q.queue ++ (p.part.take 128).map (fun e => e.2.1) }) ∧
  (∀ (s : State) (e : Fin 64) (id : WarpId) (wg k : Nat) (w : Warp), let x := s.mem.frz[e]
    x.owner = some (id, wg, k) → s.warpAt id = some w → w.wg = wg → k < 16 → 64 ≤ (w.k.getD k 0).toNat →
    let lowered := fun (t : State) => ∃ w', t.warpAt id = some w' ∧ (w'.k.getD k 0).toNat = (w.k.getD k 0).toNat - 64 ∧ w'.v = w.v ∧ w'.p = w.p ∧ w'.s = w.s
    (x.state = .pending → s.freezeReleased x = true → ∃ t, exec (.freezeInstall e) s = .next t ∧
      t.mem = { s.mem with frz := s.mem.frz.set e { x with state := .installed, owner := none } } ∧ lowered t) ∧
    let acked := fun (r : Nat) => s.mem.frz.set e (if x.acks.erase r = [] then { FrzEntry.blank with gen := x.gen + 1 } else { x with acks := x.acks.erase r })
    (x.state = .thawing → s.mgmt.selfRank ∈ x.acks → ∀ sc, ∃ t, exec (.generationRetirement s.mgmt.selfRank e x.gen.toNat sc) s = .next t ∧
      t.mem.mem = s.mem.mem ∧ t.mem.frz = acked s.mgmt.selfRank ∧
      (∀ y, y ∈ t.mem.copies ↔ y ∈ s.mem.copies ∧ ¬ ∃ g, y.tag = some (s.mgmt.selfRank, g) ∧ g.entry = e ∧ g.gen = x.gen.toNat) ∧ lowered t) ∧
    (∀ r, x.state = .thawing → r ∈ x.acks → r ≠ s.mgmt.selfRank → ∃ t, exec (.retirementAck e r) s = .next t ∧
      t.mem = { s.mem with frz := acked r } ∧ lowered t)) ∧
  (∀ (s : State) (e : Fin 64) (r : Nat), s.mem.frz[e].state ≠ .thawing ∨ r ∉ s.mem.frz[e].acks → exec (.retirementAck e r) s = .next s) ∧
  (∀ (s : State) (home e gen : Nat) (sc : Scope), home ≠ s.mgmt.selfRank → ∃ t, exec (.generationRetirement home e gen sc) s = .next t ∧
    t.mem.mem = s.mem.mem ∧ t.mem.frz = s.mem.frz ∧ t.cur = s.cur ∧ t.warps = s.warps ∧
    (∀ y, y ∈ t.mem.copies ↔ y ∈ s.mem.copies ∧ ¬ ∃ g, y.tag = some (home, g) ∧ g.entry = e ∧ g.gen = gen)) ∧
  (∀ (s : State) (e : Fin 64), let x := s.mem.frz[e]
    x.state = .thawing → x.overdue = false → 2 ^ 32 < s.clk - x.since → ∃ t, exec (.thawOverdue e) s = .next t ∧
      t.mem = { s.mem with frz := s.mem.frz.set e { x with overdue := true } } ∧ t.logs.bbHead = s.logs.bbHead + 1 ∧
      t.logs.events.head? = some { time := s.time, cause := 0x148 + 8 * (x.sc - 2) + 6, kind := 0, part := x.part, core := 255, slot := 255,
                                   epc := 0, addr := 0 })

/-- R39, R235, R239, R406 to R418, R422 as events of the scheduler. The model's choices: warps take the free slots of their quadrants in ascending
order (log 42); checks 1 and 2 of R232 are made before a record is parked (log 41); where a context lies in its core's area and the order of its parts,
that a gang with an ended member is saved, and that a PREEMPT of a core of 192 or more sets ERR (log 43). -/
def Obligations.SchedulingEvents : Prop :=
  (∀ (s : State) (q : Nat) (r : Rec) (rest : List Rec), s.mgmt.recovery = false → s.held q = r :: rest → r.f 104 8 ≠ 0 → s.placing q = none → s.unplaced q false = none →
    (∀ c, recordFault r = some c → exec (.launchQueueFront q) s = .next ((s.setHeld q rest).cancelRec (s.queuePart q) r c)) ∧
    (∀ ts, recordFault r = none → s.sched.pool.length < 4096 → s.ctlTargets (s.queuePart q) 0 (BitVec.ofNat 64 (r.f 104 8)) 4 = some ts →
      (∀ tg ∈ ts, s.plain tg) →
      let j := leNat (ts.map (fun tg => ((tg.cells 1).map s.cell).headD 0))
      j ≤ r.f 112 4 → ∃ t p, exec (.launchQueueFront q) s = .next t ∧ t.held q = rest ∧ p ∈ t.sched.pool ∧ p.record = r ∧ p.queue = q ∧
        p.ready = decide (j = 0) ∧ p.cancelled = none ∧ t.mem.mem = s.mem.mem ∧ t.sched.launches = s.sched.launches)) ∧
  (∀ (s : State) (q : Nat) (r : Rec), q < 256 → s.mgmt.recovery = false → (s.part (s.queuePart q)).enable = true →
    (s.mgmt.queues.getD q QReg.blank).prio < 8 → (∀ q', q' ≠ q → s.candsOf q' = []) → s.candsOf q = [.front r] →
    let part := s.queuePart q
    let u := s.setHeld q ((s.held q).drop 1)
    (∀ c x, u.checkRecord part r = .fault c x → ∃ t, exec .launchDispatch s = .next t ∧ t.sched = { (u.cancelRec part r c).sched with rotor := (q + 1) % 256 } ∧
      t.mem = (u.cancelRec part r c).mem) ∧
    (∀ r' k v c, u.checkRecord part r = .ok (r', k, v) → r'.grid ≠ 0 → r'.gangSize = 1 → r'.coResident = false → 0 < r'.wgw → r'.wgw ≤ 16 →
      placeGangs (v.claims ++ v.keptSlots part) (v.part part).cores (openHearths (v.part part).cores) k r'.wgw 1 1 =
        some [[c]] → v.sched.reserve = [] → (∀ w < r'.wgw, w / 4 < (v.freeSlots part c.core (w % 4)).length) →
      ∃ t l g, exec .launchDispatch s = .next t ∧ l ∈ t.sched.launches ∧ l.record = r' ∧ l.queue = q ∧ l.total = r'.grid ∧ l.next = 1 ∧
        g ∈ t.wgs ∧ g.core = c.core ∧ g.launch = l.key ∧ g.linear = 0 ∧ g.status = .resident ∧ g.kern = k ∧
        (∀ w < r'.wgw, ∃ slot x, (v.freeSlots part c.core (w % 4))[w / 4]? = some slot ∧ t.warpAt ⟨c.core, slot⟩ = some x ∧ x.wg = g.key ∧ x.index = w ∧
          x.status = .running ∧ x.path.pc = k.entry ∧ x.em = Mask.full ∧ x.stack = [] ∧ x.trapMode = false ∧ (∀ n : Fin 8, x.ports[n] = none) ∧
          (∀ n : Fin 16, x.k[n] = 0) ∧ (∀ n : Fin 31, x.p[n] = 0) ∧ (∀ (n : Fin 240) (l : Fin 128), x.v[n][l] = 0) ∧
          x.s[1] ++ x.s[0] = BitVec.ofNat 64 (r'.f 8 8) ∧ x.s[3] ++ x.s[2] = r'.addr ∧ ∀ n : Fin 128, 4 ≤ (n : Nat) → x.s[n] = 0))) ∧
  (∀ (s : State) (q : Nat) (l : Launch), s.sched.launches.find? (fun l => l.queue == q && !l.cancelled && (match l.waiting with
      | some t => decide (2 ^ 20 ≤ s.clk - t)
      | none => false) && !(s.sched.reserve.any (fun r => r.2.2 == l.key))) = some l →
    exec (.dispatchReservation q) s =
      .next { s with sched := { s.sched with reserve := s.sched.reserve ++ [(l.prio, openHearths (s.part l.part).cores, l.key)] } }) ∧
  (∀ (s : State) (g : Wgroup) (l : Launch), s.wgOf g.key = some g → s.wgDone g = true → s.sched.launches.find? (fun x => x.key == g.launch) = some l →
    ∃ t, exec (.workgroupEnd g.key) s = .next t ∧ (s.wg.key = g.key → t.wg = Wgroup.blank) ∧ (s.wg.key ≠ g.key → ∀ x ∈ t.wgs, x.key ≠ g.key) ∧
      t.sched.launches = s.sched.launches.map (fun x => if x.key = l.key then { l with done := l.done + 1 } else x) ∧
      (∀ a : Nat, l.record.f 160 8 ≠ 0 → a % 8 = 0 → s.ctlTargets g.part 2 (BitVec.ofNat 64 (l.record.f 160 8)) 8 =
          some ((List.range 8).map (fun i => .loc (a + i) 0)) → s.plain (.loc a 0) → s.Canonical →
        let w := leNat (s.mem.mem.getN a 8)
        let cause := if g.status = .cancelled then g.endCause else 0
        cause < 2 ^ 9 → leNat (t.mem.mem.getN a 8) = bits w 63 42 * 2 ^ 42 + (if g.status = .cancelled then 1 else bits w 41 41) * 2 ^ 41 +
            (if cause ≠ 0 ∧ bits w 40 32 = 0 then cause else bits w 40 32) * 2 ^ 32 + (w + 1) % 2 ^ 32)) ∧
  (∀ (s : State) (l : Nat) (x : Launch), s.sched.launches.find? (fun x => x.key == l) = some x → s.launchDone x = true →
    ∃ t, exec (.launchComplete l) s = .next t ∧ t.sched.launches = s.sched.launches.filter (fun y => y.key != l) ∧
      t.sched.gangs = s.sched.gangs.filter (fun y => y.launch != l) ∧ t.cur = s.cur) ∧
  (∀ (s : State) (l t0 : Nat) (x : Launch), s.sched.launches.find? (fun x => x.key == l) = some x → x.started = some t0 → x.cancelled = false →
    (s.part x.part).tlimit ≠ 0 → (s.part x.part).tlimit.toNat * 1000000 ≤ s.time - t0 →
    ∃ t, exec (.timeLimitExpiry l) s = .next t ∧ (∀ y ∈ t.sched.launches, y.key = l → y.cancelled = true) ∧
      (t.logs.events.head?.map (fun e => (e.cause, e.kind, e.part))) = some (0x17D, 2, x.part) ∧
      ∀ g ∈ t.allWgs, g.launch = l → g.here = false) ∧
  (∀ (s : State) (part : Nat) (value : DWord), part < 8 →
    (value.getLsbD 8 = false → 192 ≤ value.toNat % 256 → exec (.preemptRequest part value) s = .next { s with mgmt := { s.mgmt with err := true } }) ∧
    (value.getLsbD 8 = true ∨ value.toNat % 256 < 192 → ∃ t, exec (.preemptRequest part value) s = .next t ∧
      (∀ g ∈ t.allWgs, g.key ≠ 0 → g.part = part →
        (if value.getLsbD 8 then (s.part part).cores.getLsbD g.core = true else g.core = value.toNat % 256) → g.status ≠ .resident) ∧
      t.mem = s.mem ∧ t.cur = s.cur ∧ t.warps = s.warps)) ∧
  (∀ (s : State) (g : Wgroup), s.wgOf g.key = some g → g.status = .stopping → (∀ x ∈ s.stoppingGang g, s.drained x = true) →
    ((s.stoppingGang g).map (fun x => x.key)).Nodup →
    -- a line of the area of a core, and the warps of a member as they are saved
    let area := fun (core n : Nat) => hbmLoc 0 (((s.part g.part).ctxBase.toNat + 4718592 * core + n) % 2 ^ 39)
    let ws := fun (x : Wgroup) => (s.allWarps.filter (fun w => w.wg == x.key && decide (w.status ≠ .free))).map Warp.saved
    (g.idem = false ∨ (∃ x ∈ s.stoppingGang g, x.idend = true) ∨ (s.stoppingGang g).length ≠ g.gangSize → s.noDrops → s.Canonical →
      (∀ x ∈ s.stoppingGang g, x.part = g.part) → (∀ p ∈ s.sched.saved, ∀ o, p.1.ctx = some o → o % 64 = 0) → ∃ t, exec (.contextSave g.key) s = .next t ∧
      (∀ y, (∀ x ∈ s.stoppingGang g, ∀ i < 73728, y < area x.core (64 * i) ∨ area x.core (64 * i) + 64 ≤ y) → t.mem.mem.get y = s.mem.mem.get y) ∧
      (∀ x ∈ s.stoppingGang g, ∃ tiles at_, ({ x with status := .saved, tiles := tiles, ctx := at_ }, ws x) ∈ t.sched.saved ∧
        ((∀ a ∈ s.eng.anvil, a.wg = x.key → a.started = false) → tiles = x.tiles) ∧
        -- count registers and uniform registers stand at the head of the context
        (s.stoppingGang g = [g] → ∀ off, at_ = some off → (s.part g.part).ctxBase.toNat % 64 = 0 → ∀ i < 576 * (ws x).length,
          some (t.mem.mem.get (area x.core (off + i / 64 * 64) + i % 64)) = ((ws x).flatMap Warp.ctxHead)[i]?))) ∧
    (g.idem = true → (∀ x ∈ s.stoppingGang g, x.idend = false) → (s.stoppingGang g).length = g.gangSize → ∃ t, exec (.contextSave g.key) s = .next t ∧
      t.mem.mem = s.mem.mem ∧ t.sched.saved = s.sched.saved ∧ ∀ l ∈ s.sched.launches, l.key = g.launch →
        ∃ l' ∈ t.sched.launches, l'.key = l.key ∧ ∀ x ∈ s.stoppingGang g, x.linear ∈ l'.redo)) ∧
  (∀ (s : State) (p : Wgroup × List Warp) (cs : List Claim), s.sched.saved.find? (fun x => x.1.key == p.1.key) = some p →
    (∀ x ∈ s.savedGang p.1, s.mgmt.fencedCore.getLsbD x.1.core = false) → (((s.savedGang p.1).flatMap (fun x => x.2)).map (fun w => w.id)).Nodup →
    (∀ x ∈ s.savedGang p.1, ∀ w ∈ x.2, ∀ y ∈ s.allWarps, y.id = w.id → y.status = .free) →
    reclaim s.claims (s.part p.1.part).cores (s.savedGang p.1) = some cs →
    ∃ t, exec (.contextRestore p.1.key) s = .next t ∧ t.mem.mem = s.mem.mem ∧
      ∀ x ∈ s.savedGang p.1, (∃ g ∈ t.wgs, g.key = x.1.key ∧ g.core = x.1.core ∧ g.spad = x.1.spad ∧ g.slots = x.1.slots ∧ g.tiles = x.1.tiles ∧ g.bars = x.1.bars) ∧
        (∀ w ∈ x.2, t.warpAt w.id = some { w with last := .restored }) ∧ ∀ y ∈ t.sched.saved, y.1.key ≠ x.1.key)

/-- R160, R361 to R370, R413 as events of the host and of the control cluster. The model's choices: a SYSCALL that ends without a status leaves D as it
was and the PC moves on (logs 13 and 67), the location of a host access where no leaf maps the page, and its stop beyond the range (log 46). -/
def Obligations.HostEvents : Prop :=
  -- services
  (∀ (s : State) (key : Nat) (w : Warp) (d sb : Nat), s.warpAt w.id = some w → w.wg = key → w.status = .running → w.hold = .syscall d sb → d < 128 →
    (∀ p ∈ w.pend, p.reg = .s d → p.uncertain = false) → s.mgmt.recovery = false →
    let back := fun (t : State) (x : Word) => ∃ w', t.warpAt w.id = some w' ∧ w'.hold = .none ∧ w'.s.getD d 0 = x ∧ w'.path.pc = w.path.pc + 1 ∧
      w'.v = w.v ∧ w'.p = w.p ∧ ∀ r : Fin 128, (r : Nat) ≠ d → w'.s[r] = w.s[r]
    (∀ g a block u, s.wgOf key = some g → s.sysReady g = true → (∃ n, g.sys ≠ [] ∧ ∀ y ∈ g.sys, y.n = n ∧ y.a = a) → s.host.linkUp = true →
      s.argBlock g.part a = .ok (block, u) →
      ((∀ y ∈ g.sys, y.n = 0) → ∃ t, exec (.syscallServiceRun key) s = .next t ∧ back t 0) ∧
      ((∀ y ∈ g.sys, y.n = 1) → ∃ t, exec (.syscallServiceRun key) s = .next t ∧ back t (BitVec.ofNat 32 (u.appendLog g.part (block.drop 8)).2)) ∧
      ((∀ y ∈ g.sys, y.n = 2) → ∃ t, exec (.syscallServiceRun key) s = .next t ∧ back t (BitVec.ofNat 32 (s.time / 1000))) ∧
      ((∀ y ∈ g.sys, 3 ≤ y.n ∧ y.n < 0x8000) ∨ ((∀ y ∈ g.sys, 0x8000 ≤ y.n) ∧ bits s.mgmt.svcRing.toNat 63 63 = 0) →
        ∃ t, exec (.syscallServiceRun key) s = .next t ∧ back t 0xFFFFFFFF) ∧
      ((∀ y ∈ g.sys, 0x8000 ≤ y.n) → bits s.mgmt.svcRing.toNat 63 63 = 1 →
          (∀ x ∈ s.host.services, x.seq % 2 ^ bits s.mgmt.svcRing.toNat 27 24 ≠ s.host.nextService % 2 ^ bits s.mgmt.svcRing.toNat 27 24) →
        ∃ t, exec (.syscallServiceRun key) s = .next t ∧ t.host.nextService = s.host.nextService + 1 ∧
          t.host.services = s.host.services ++ [{ seq := s.host.nextService, wg := key, since := s.time }] ∧ t.warpAt w.id = some w)) ∧
    -- an operation that the service, or the link, does not end takes an imprecise fault
    (let fails := fun (t : State) (cause : Nat) => ∃ w', t.warpAt w.id = some w' ∧ w'.hold = .none ∧ w'.path.pc = w.path.pc + 1 ∧ w'.s = w.s ∧
       w'.pendFaults = w.pendFaults ++ [{ cause := cause, epc := w.path.pc, addr := 0, pid := w.path.pid, since := s.time, late := false }]
     (s.allWarps.map (fun w => w.id)).Nodup → (∀ v ∈ s.allWarps, v.wg = key → v.pendFaults.length < 8) → (∀ p ∈ s.sched.saved, p.1.key ≠ key) →
      (∀ g, s.wgOf key = some g → s.sysReady g = true → (∃ n a, g.sys ≠ [] ∧ ∀ y ∈ g.sys, y.n = n ∧ y.a = a) → s.host.linkUp = false →
        ∃ t, exec (.syscallServiceRun key) s = .next t ∧ fails t 0x16C) ∧
      (∀ x, s.host.services.find? (fun y => y.seq == x.seq) = some x → x.wg = key → s.mgmt.svcto * 1000000 ≤ s.time - x.since →
        ∃ t, exec (.serviceTimeout x.seq) s = .next t ∧ t.host.services = s.host.services.filter (fun y => y.seq != x.seq) ∧ fails t 0x16A)) ∧
    (∀ x status, s.host.services.find? (fun y => y.seq == x.seq) = some x → x.wg = key → ∃ t, exec (.serviceDone x.seq status) s = .next t ∧
      back t status ∧ t.host.services = s.host.services.filter (fun y => y.seq != x.seq))) ∧
  -- commands
  (∀ (s : State) (off code : Nat), s.mgmt.recovery = false → (∀ a ∈ s.host.waiting, a.copy = false) → s.cmdEntry = some off → off % 64 = 0 → s.Canonical →
    -- reading the ring makes the host's own writes of the window visible
    let v := if s.mem.hostLines = [] then s else s.mergeHostLines
    leNat (v.cwRead (off + 8) 2) = code → v.Canonical →
    let done := fun (t : State) => t.host.nextCmd = s.host.nextCmd + 1 ∧ leNat (t.mem.mem.getN (cwBase + off + 60) 4) ≠ 0
    (∀ asid (va len : DWord), code = 1 → asid < 2 ^ 16 → ∃ t, exec (.tlbInvalidate asid va len) s = .next t ∧ done t ∧
      ∀ e, e ∈ t.mem.tlb ↔ e ∈ s.mem.tlb ∧ ¬ (e.asid = asid ∧ e.va * 2 ^ e.size < va.toNat + len.toNat ∧ va.toNat < (e.va + 1) * 2 ^ e.size)) ∧
    (∀ lid : DWord, code = 2 → ∃ t, exec (.cancelLaunchCmd lid) s = .next t ∧ t.host.nextCmd = s.host.nextCmd + 1 ∧
      ∀ l ∈ t.sched.launches, l.part < 8 → l.record.ident .launch = lid.toNat → l.cancelled = true) ∧
    (∀ lw, code = 3 → 10 ≤ lw → lw ≤ 16 → ∃ t, exec (.setJobWindow lw) s = .next t ∧ done t ∧ t.mgmt.logW = lw ∧ t.cur = s.cur) ∧
    (∀ addr tier o (bs : List Byte), code = 4 → bs ≠ [] → addr % 64 + bs.length ≤ 64 → hdm addr = some (tier, o) → tier < 2 → v.leafAt tier o = none →
      let l := hdmLoc tier o none
      l + bs.length ≤ cwBase → (∀ i < bs.length, v.mem.frozen (l + i) = false) → v.noDrops →
      ∃ t, exec (.hostCopy false addr bs) s = .next t ∧ done t ∧
        (∀ i < bs.length, t.mem.mem.get (l + i) = bs.getD i 0) ∧ (∀ x < cwBase, x < l ∨ l + bs.length ≤ x → t.mem.mem.get x = v.mem.mem.get x) ∧
        ∃ t', exec (.hostCopy true addr bs) s = .next t' ∧ done t' ∧ .hostData (v.mem.mem.getN l bs.length) ∈ t'.logs.out) ∧
    (code = 0 ∨ 4 < code → ∃ t, exec (.unknownCommand code) s = .next t ∧ done t ∧ leNat (t.mem.mem.getN (cwBase + off + 56) 4) = 0xFFFFFFFF ∧
      ∀ x < cwBase, t.mem.mem.get x = v.mem.mem.get x)) ∧
  -- host accesses
  (∀ (s : State) (addr n : Nat) (data : Option (List Byte)), hdm addr = none → exec (.cxlMemAccess addr data n) s = .fault .hdmRange) ∧
  (∀ (s : State) (addr tier o n : Nat), s.mgmt.recovery = false → hdm addr = some (tier, o) → tier < 2 →
    (s.leafAt tier o = none ∨ ∃ p va l, s.leafAt tier o = some (p, va, l) ∧ (l.own = 0 ∨ l.own = 1 ∧ ∀ r, s.mem.ownOf l.at_ = some r → r.target = none)) →
    let x := hdmLoc tier o ((s.leafAt tier o).map (fun y => y.2.2))
    (0 < n → o % 64 + n ≤ 64 → ∃ t, exec (.cxlMemAccess addr none n) s = .next t ∧ t.mem.mem = s.mem.mem ∧
      t.logs.out = s.logs.out ++ [.hostData (s.mem.mem.getN x n)]) ∧
    (∀ bs : List Byte, bs ≠ [] → o % 64 + bs.length ≤ 64 → (∀ i < bs.length, s.mem.frozen (x + i) = false) → s.plain (.loc x 0) → s.Canonical →
      ((s.leafAt tier o).map (fun y => y.2.2.rmode)).getD 0 = 0 → ∃ t, exec (.cxlMemAccess addr (some bs) n) s = .next t ∧
        (∀ i < bs.length, t.mem.mem.get (x + i) = bs.getD i 0) ∧ ∀ y, y < x ∨ x + bs.length ≤ y → t.mem.mem.get y = s.mem.mem.get y)) ∧
  (∀ (s : State) (addr tier o n p va : Nat) (l : Leaf), s.mgmt.recovery = false → hdm addr = some (tier, o) → tier < 2 → 0 < n → o % 64 + n ≤ 64 →
    s.leafAt tier o = some (p, va, l) → l.own = 2 → s.mem.ownOf l.at_ = none → ∃ t r, exec (.cxlMemAccess addr none n) s = .next t ∧
      t.host.waiting = s.host.waiting ++ [{ tier := tier, off := o, data := none, n := n, copy := false }] ∧
      t.mem.own = s.mem.own ++ [r] ∧ r.leafLoc = l.at_ ∧ r.target = some 1 ∧ t.mem.mem = s.mem.mem ∧ t.logs = s.logs) ∧
  (∀ (s : State) (off n : Nat) (keep : Bool), s.mgmt.recovery = false → off < 2 ^ 22 → (∀ p ∈ s.mem.hostLines, p.1 ≠ (cwBase + off) / 64) →
    (0 < n → off % 64 + n ≤ 64 → ∃ t, exec (.hostCwinAccess off none n keep) s = .next t ∧ t.mem.mem = s.mem.mem ∧
      t.logs.out = s.logs.out ++ [.hostData (s.mem.mem.getN (cwBase + off) n)]) ∧
    (∀ bs : List Byte, bs ≠ [] → off % 64 + bs.length ≤ 64 → s.Canonical → ∃ t, exec (.hostCwinAccess off (some bs) n false) s = .next t ∧
      (∀ i < bs.length, t.mem.mem.get (cwBase + off + i) = bs.getD i 0) ∧
      (∀ y, y < cwBase + off ∨ cwBase + off + bs.length ≤ y → t.mem.mem.get y = s.mem.mem.get y) ∧
      let bad := bs.length < 64 ∧ (s.mem.poisonOf (64 * ((cwBase + off) / 64))).isSome = true
      ∃ t', exec (.hostCwinAccess off (some bs) n true) s = .next t' ∧ t'.mem.mem = s.mem.mem ∧ (bad → ((cwBase + off) / 64, some []) ∈ t'.mem.hostLines) ∧
        (¬ bad → ∃ line, ((cwBase + off) / 64, some line) ∈ t'.mem.hostLines ∧ ∀ i < bs.length, line.getD (off % 64 + i) 0 = bs.getD i 0))) ∧
  -- ownership
  (∀ (s : State) (o : OwnRegion), s.mem.own.find? (fun x => x.leafLoc == o.leafLoc) = some o → s.fab.held = [] → s.host.waiting = [] → s.sched.ctl = [] →
    (∀ to_, o.target = some to_ → to_ < 3 → o.stuck = false → (to_ = 2 → s.host.linkUp = true) → o.leafLoc % 8 = 0 → o.leafLoc < cwBase →
      s.noDrops → s.Canonical →
      let w := leNat (s.mem.mem.getN o.leafLoc 8)
      ∃ t o', exec (.ownershipTransfer o.leafLoc []) s = .next t ∧ leNat (t.mem.mem.getN o.leafLoc 8) = w / 2 ^ 8 * 2 ^ 8 + to_ * 2 ^ 6 + w % 2 ^ 6 ∧
        (∀ y, y < o.leafLoc ∨ o.leafLoc + 8 ≤ y → t.mem.mem.get y = s.mem.mem.get y) ∧
        o' ∈ t.mem.own ∧ o'.leafLoc = o.leafLoc ∧ o'.target = none ∧ o'.tenure = s.time + 2000) ∧
    -- what waited for the accelerator's ownership is performed before its tenure ends
    (o.target = none → bits (s.mem.dword o.leafLoc) 7 6 = 2 → o.due.any s.waiterStands = true → exec (.tenureExpiry o.leafLoc) s = .next s) ∧
    (o.target = none → o.tenure ≤ s.time → bits (s.mem.dword o.leafLoc) 7 6 ≠ 2 ∨ o.due.any s.waiterStands = false →
      (o.waiting = [] → exec (.tenureExpiry o.leafLoc) s = .next { s with mem := { s.mem with own := s.mem.own.filter (fun x => x.leafLoc != o.leafLoc) } }) ∧
      (∀ r rest, o.waiting = r :: rest → exec (.tenureExpiry o.leafLoc) s = .next (s.setOwn { o with target := some r.want, asked := true, since := s.time }))) ∧
    (o.target = some 2 → o.stuck = false → o.since + 10000000 ≤ s.time → ∃ t o', exec (.backinvTimeout o.leafLoc) s = .next t ∧ o' ∈ t.mem.own ∧ o'.leafLoc = o.leafLoc ∧
      o'.stuck = true ∧ t.mem.mem = s.mem.mem ∧ (o.asked = false → o'.waiting = o.waiting) ∧ (∀ r rest w, o.waiting = r :: rest → r.want = 2 → o.asked = true → s.warpAt r.warp = some w → w.wg = r.wg → w.status = .running →
        w.pendFaults.length < 8 → t.warpAt r.warp = some { w with pendFaults := w.pendFaults ++ [{ cause := 0x16B, epc := r.epc, addr := r.addr, pid := r.pid, since := s.time, late := false }] }))) ∧
  (∀ (s : State) (down : Bool), exec (.hostLinkDown down) s = .next { s with host := { s.host with linkUp := !down && !s.mgmt.recovery } })

/-- R345 to R347, R376 to R398 as events of the fabric and of time. The model's choices: a plane that goes dark loses its bit of PLANEEN (log 50), a
PTP_SYNC within 250 ns restores precise time and adds its offset at once, and WINDOW_BOUNDARY takes device time to the next boundary (log 51), a loss
of precise time sends vector 0 (log 52), the CRC starts from 0 and the headers of slots are free (log 93). -/
def Obligations.FabricEvents : Prop :=
  -- flits
  (∀ (s : State) (peer : Nat) (f : Flit), peer < 144 → peer ≠ s.selfSlot → let p := s.peer peer
    let wave := (peer + 144 - s.selfSlot) % 144
    (flitGood f = false → exec (.podFlitReceive peer f) s = .next s) ∧
    (flitGood f = true → f.typ = 0 → f.seq = p.expected → p.early = [] →
      (f.slots = [] → ∃ t, exec (.podFlitReceive peer f) s = .next t ∧ (t.peer peer).expected = (p.expected + 1) % 65536 ∧ t.mem = s.mem ∧ t.cur = s.cur) ∧
      (∀ (r : RemReq) (bs : List (Option Byte)) (l : Nat), f.slots = [.req r] → r.op = .write bs → r.region < 16 → s.noDrops →
        let g := s.mgmt.regions.getD r.region { base := 0, len := 0, part := 0, valid := false }
        g.valid = true → r.off + bs.length ≤ g.len →
        translatePerm s g.part 1 ⟨false, true, false⟩ (g.base.toNat + r.off) = .ok (.loc l 0) → s.mem.poisonOf l = none →
        (∀ i < bs.length, l + i < cwBase ∧ s.mem.frozen (l + i) = false ∧ (s.mem.homeLine ((l + i) / 64)).budget = none) → s.Canonical →
        ∃ t, exec (.podFlitReceive peer f) s = .next t ∧ (t.peer peer).expected = (p.expected + 1) % 65536 ∧
          (∀ i < bs.length, t.mem.mem.get (l + i) = (bs.getD i none).getD (s.mem.mem.get (l + i))) ∧
          (∀ y, y < l ∨ l + bs.length ≤ y → t.mem.mem.get y = s.mem.mem.get y))) ∧
    (p.waiting ≠ [] → p.unacked.length < 4096 → (∀ g, s.groupFull g = false) → s.livePlanes p ≠ [] → ∃ t f, exec (.podFlitSend peer) s = .next t ∧
      t.logs.out = s.logs.out ++ [.flit peer (dealPlane (s.livePlanes p) p.nextSeq) wave f] ∧ flitGood f = (p.nextSeq < 65536 && p.expected < 65536 && (p.waiting.take 3).all txnFits) ∧ f.seq = p.nextSeq ∧ f.ack = p.expected ∧ f.typ = 0 ∧
      f.slots = p.waiting.take 3 ∧ f.nslot = f.slots.length ∧ f.body.length = 240 ∧ f.body.take (80 * f.nslot) = f.slots.flatMap slotBytes ∧
      (∀ b ∈ f.body.drop (80 * f.nslot), b = 0) ∧ (t.peer peer).nextSeq = (p.nextSeq + 1) % 65536 ∧ (t.peer peer).waiting = p.waiting.drop 3 ∧ t.mem = s.mem) ∧
    (∀ t0, p.ackDue = some t0 → t0 + 256 ≤ s.time → s.livePlanes p ≠ [] → ∃ t pl f, exec (.podAckTimer peer) s = .next t ∧
      t.logs.out = s.logs.out ++ [.flit peer pl wave f] ∧ f.typ = 1 ∧ f.ack = p.expected ∧ f.slots = [] ∧ (t.peer peer).ackDue = none) ∧
    (∀ t0, p.gapSince = some t0 → t0 + 512 ≤ s.time → s.livePlanes p ≠ [] → ∃ t pl f, exec (.podNackTimer peer) s = .next t ∧
      t.logs.out = s.logs.out ++ [.flit peer pl wave f] ∧ f.typ = 2 ∧ f.ack = p.expected ∧ f.slots = [] ∧ (t.peer peer).gapSince = some s.time) ∧
    (∀ u, p.unacked.find? (fun x => x.flit.seq == u.flit.seq) = some u → u.at_ + 4000 ≤ s.time →
      (u.sends < 8 → s.livePlanes p ≠ [] → ∃ t f, exec (.podResendTimer peer u.flit.seq) s = .next t ∧
        .flit peer (dealPlane (s.livePlanes p) u.flit.seq) wave f ∈ t.logs.out ∧ f.seq = u.flit.seq ∧ f.slots = u.flit.slots ∧
        (∃ x ∈ (t.peer peer).unacked, x.flit.seq = u.flit.seq ∧ x.sends = u.sends + 1 ∧ x.at_ = s.time)) ∧
      (8 ≤ u.sends → exec (.podResendTimer peer u.flit.seq) s = .next (s.failOps (s.messageTags (u.flit.slots.filterMap (ownTag s.selfSlot))) 7)))) ∧
  -- planes, summaries, ports
  (∀ (s : State) (pl : Nat) (laser : Bool), pl < 16 → s.fab.dark.getLsbD pl = false → ∃ t, exec (.planeDark [pl] none laser) s = .next t ∧
    t.fab.dark.getLsbD pl = true ∧ (laser = true → ∀ q < 16, q / 4 = pl / 4 → t.fab.dark.getLsbD q = true) ∧ t.mgmt.planeEn.getLsbD pl = false ∧ .msix 0 ∈ t.logs.out ∧ t.mem.mem = s.mem.mem) ∧
  (∀ (s : State), s.fab.summaryAt + 10000 ≤ s.time → ∃ t, exec .linkSummarySend s = .next t ∧ t.fab.summaryAt = s.time ∧ t.mem = s.mem ∧
    let inPod := fun (d : Nat) => d ≠ s.selfSlot ∧ ∃ r e, r < s.mgmt.nRank ∧ rankEntry s r = some e ∧ bits e 19 12 = d ∧
      bits e 11 2 = bits ((rankEntry s s.mgmt.selfRank).getD 0) 11 2
    -- to every peer of the pod that a path leads to, a relayed one too
    ∀ d, inPod d → s.livePlanes (s.peer d) ≠ [] ∨ (s.relayOf d).isSome = true → ∃ l k x, x ∈ (t.peer k).waiting ∧
      (k = d ∧ x = .summary s.selfSlot l ∨ x = .relay d s.selfSlot (.summary s.selfSlot l)) ∧
      ∀ y, y ∈ l ↔ inPod y ∧ s.livePlanes (s.peer y) ≠ []) ∧
  (∀ (s : State) (port : Nat), port ∈ s.fab.ports → ∃ t, exec (.ethernetPortDown port) s = .next t ∧
    t.fab.ports = s.fab.ports.filter (fun p => p != port) ∧ .msix 0 ∈ t.logs.out ∧ t.mem.mem = s.mem.mem) ∧
  -- job packets
  (∀ (s : State) (p : JobPacket) (bs : List (Option Byte)) (l : Nat), p.op = .write bs → s.mgmt.recovery = false →
    (pktDeadline p < s.time → ∃ t r, exec (.jobPacketReceive p) s = .next t ∧ t.logs.out = s.logs.out ++ [.response (s.coordOf p.init) r] ∧
      r.tag = p.tag ∧ r.fail = some 0 ∧ t.mem = s.mem) ∧
    (let g := s.mgmt.regions.getD p.region { base := 0, len := 0, part := 0, valid := false }
     s.time ≤ pktDeadline p → s.noDrops → (∀ c ∈ s.fab.landings, pktMine p c = false) → s.fab.landings.length < 65536 → p.region < 16 → g.valid = true →
      p.off + bs.length ≤ g.len → translatePerm s g.part 1 ⟨false, true, false⟩ (g.base.toNat + p.off) = .ok (.loc l 0) → s.mem.poisonOf l = none →
      (∀ i < bs.length, l + i < cwBase ∧ s.mem.frozen (l + i) = false ∧ (s.mem.homeLine ((l + i) / 64)).budget = none) → s.Canonical →
      ∃ t, exec (.jobPacketReceive p) s = .next t ∧ .accept (s.coordOf p.init) p.tag p.gen p.idx ∈ t.logs.out ∧
        (p.count = 1 → t.logs.out.getLast? = some (.completion (s.coordOf p.init) p.tag p.gen 0)) ∧
        (∀ i < bs.length, t.mem.mem.get (l + i) = (bs.getD i none).getD (s.mem.mem.get (l + i))) ∧
        (∀ y, y < l ∨ l + bs.length ≤ y → t.mem.mem.get y = s.mem.mem.get y))) ∧
  (∀ (s : State) (o : RemoteOp), s.fab.ops.find? (fun x => x.tag == o.tag && x.job && x.answered.isNone && !x.held) = some o →
    s.fab.ops.find? (fun x => x.tag == o.tag && x.answered.isNone) = some o → (∀ x ∈ s.fab.ops, x.held = false) → (∀ x ∈ s.fab.ops, x.tag = o.tag → x = o) →
    (∀ bs refused, o.op = .write bs → refused ≤ o.refused.length → ∃ t, exec (.jobCompletionReceive o.tag ⟨s.genOf o.tag, refused⟩) s = .next t ∧
      (∀ x ∈ t.fab.ops, x.tag = o.tag → x.answered = some none) ∧ t.mem.mem = s.mem.mem) ∧
    -- a completion that has overtaken refusals waits for them
    (∀ bs refused, o.op = .write bs → o.refused.length < refused → ∃ t, exec (.jobCompletionReceive o.tag ⟨s.genOf o.tag, refused⟩) s = .next t ∧
      t = { s with fab := { s.fab with ops := t.fab.ops } } ∧ ∀ x ∈ t.fab.ops, x.tag = o.tag → x = { o with complete := some refused }) ∧
    (∀ gen refused, gen ≠ s.genOf o.tag → exec (.jobCompletionReceive o.tag ⟨gen, refused⟩) s = .next s) ∧
    (∀ n r w (resp : RemResp), o.op = .read n → o.dst = .uni r 1 → r < 128 → s.warpAt o.warp = some w → w.wg = o.wg → resp.tag = o.tag →
      resp.gen = s.genOf o.tag → resp.fail = none → resp.frz = none → ∃ t w', exec (.jobResponseReceive resp) s = .next t ∧ t.warpAt o.warp = some w' ∧
        w'.s.getD r 0 = (extendTo o.sx (BitVec.ofNat 64 (leNat resp.data))).setWidth 32 ∧ (∀ k : Fin 128, (k : Nat) ≠ r → w'.s[k] = w.s[k]) ∧ w'.v = w.v ∧
        (∀ x ∈ t.fab.ops, x.tag = o.tag → x.answered = some none))) ∧
  (∀ (s : State) (x : SentPacket), s.fab.sent.find? (fun y => y.pkt.tag == x.pkt.tag && y.pkt.idx == x.pkt.idx && !y.accepted) = some x →
    s.fab.ports ≠ [] → x.at_ + s.mgmt.retxt ≤ s.time →
    (x.sends < 8 → ∃ t, exec (.jobRetransmitTimer x.pkt.tag x.pkt.idx false) s = .next t ∧
      let e := (x.pkt.entropy + 1) % (x.nent + 1)
      t.logs.out = s.logs.out ++ [.packet (s.ethPort x.dest e) { x.pkt with entropy := e } x.dest] ∧ t.mem = s.mem) ∧
    (8 ≤ x.sends → exec (.jobRetransmitTimer x.pkt.tag x.pkt.idx false) s = .next (s.answer x.pkt.tag [] (some 7) none))) ∧
  (∀ (s : State) (rank tag gen : Nat), ∃ t, exec (.landingCounterDeadline rank tag gen) s = .next t ∧
    t = { s with fab := { s.fab with landings := t.fab.landings } } ∧
    ∀ c, c ∈ t.fab.landings ↔ c ∈ s.fab.landings ∧ ¬ (c.init = rank ∧ c.tag = tag ∧ c.gen = gen ∧ c.deadline < s.time)) ∧
  -- time
  (∀ (s : State), ∃ t, exec .windowBoundary s = .next t ∧ t.time = (s.windowNo + 1) * 2 ^ s.mgmt.logW ∧ t.mem.mem = s.mem.mem ∧
    ∀ id w f, s.warpAt id = some w → w.fence = some f → ∃ w', t.warpAt id = some w' ∧ w'.fence = some { f with boundaries := f.boundaries + 1 } ∧
      w'.v = w.v ∧ w'.s = w.s ∧ w'.p = w.p) ∧
  (∀ (s : State) (offset : Int),
    (-250 ≤ offset → offset ≤ 250 → ∃ t, exec (.ptpSync offset) s = .next t ∧ t.time = s.time + offset.toNat ∧ t.mgmt.timeHeld = true ∧ t.mem.mem = s.mem.mem) ∧
    (offset < -250 ∨ 250 < offset → ∃ t, exec (.ptpSync offset) s = .next t ∧ t.time = s.time + offset.toNat ∧ t.mgmt.timeHeld = false)) ∧
  (∀ (s : State), s.time < s.fab.syncAt + 1000000000 → exec .preciseTimeLoss s = .next s) ∧
  (∀ (s : State), s.mgmt.timeHeld = true → s.fab.syncAt + 1000000000 ≤ s.time → ∃ t, exec .preciseTimeLoss s = .next t ∧ t.mgmt.timeHeld = false ∧ .msix 0 ∈ t.logs.out ∧ t.mem.mem = s.mem.mem)

/-- R332, R371, R372, R381, R389, R400, R406, R420 to R432, R436 as events of the module and of the driver. The model's choices: the ring size of
LOGRING stands in bits 28:24, and which writes set ERR (log 55), the clock rises again by the same steps (log 56), the bytes of SPDM answers that R372
does not give (log 60), what a device comes up with where an image or a lock fails (log 54). -/
def Obligations.ManagementEvents : Prop :=
  (∀ (s : State), s.mgmt.recovery = false → s.mgmt.cntCtl.getLsbD 0 = true → s.logs.snapshotAt + 10000 ≤ s.time → s.Canonical → ∃ t, exec .channelCounterSnapshot s = .next t ∧
    t.logs.snapshot = s.logs.snapshot + 1 ∧ t.logs.snapshotAt = s.time ∧
    (∀ ch < 288, leNat (t.mem.mem.getN (cwBase + 64 * bits s.mgmt.cntCtl.toNat 21 6 + 64 * ch) 8) = s.logs.snapshot % 2 ^ 64) ∧
    ∀ x < cwBase, t.mem.mem.get x = s.mem.mem.get x) ∧
  -- fences
  (let fenced := fun (t : State) (c : Nat) => t.mgmt.fencedCore.getLsbD c = true ∧ (∀ p : Fin 8, t.mgmt.parts[p].cores.getLsbD c = false) ∧
     ∀ w ∈ t.allWarps, w.id.core = c → w.status ≠ .running
   (∀ (s : State) (c f : Nat), c < 192 → ∃ t, exec (.unitFence (.core c f)) s = .next t ∧ fenced t c ∧ t.mem.mem = s.mem.mem ∧ .msix 0 ∈ t.logs.out) ∧
   (∀ (s : State) (hearth : Nat), hearth < 4 → ∃ t, exec (.thermalTrip hearth) s = .next t ∧ ∀ i < 48, fenced t (48 * hearth + i)) ∧
   (∀ (s : State) (cores : List Nat), (∀ c ∈ cores, c < 192) → ∃ t, exec (.supplyFault cores) s = .next t ∧ ∀ c ∈ cores, fenced t c)) ∧
  (∀ (s : State) (c : Nat), c < 192 →
    (∃ t, exec (.unitFence (.anvil c)) s = .next t ∧ t.mgmt.fencedAnvil.getLsbD c = true ∧ ∀ a ∈ t.eng.anvil, a.core ≠ c) ∧
    (∃ t, exec (.unitFence (.bellows c)) s = .next t ∧ t.mgmt.fencedBellows.getLsbD c = true ∧ t.mem.mem = s.mem.mem)) ∧
  (∀ (s : State) (i : Nat),
    (i < 288 → ∃ t, exec (.unitFence (.channel i)) s = .next t ∧ t.mgmt.fencedChan.getLsbD i = true ∧ t.mem = s.mem ∧ .msix 0 ∈ t.logs.out) ∧
    (i < 256 → ∃ t, exec (.unitFence (.l2 i)) s = .next t ∧ t.mgmt.fencedL2.getLsbD i = true ∧ t.mem.mem = s.mem.mem) ∧
    (i < 128 → ∃ t, exec (.unitFence (.rdc i)) s = .next t ∧ t.mgmt.fencedRdc.getLsbD i = true ∧ t.mem.mem = s.mem.mem) ∧
    (i < 16 → ∃ t, exec (.unitFence (.plane i)) s = .next t ∧ t.mgmt.fencedPlane.getLsbD i = true ∧ .msix 0 ∈ t.logs.out ∧ ∀ p, i ∉ t.livePlanes p) ∧
    (i < 8 → ∃ t, exec (.unitFence (.port i)) s = .next t ∧ t.mgmt.fencedPort.getLsbD i = true ∧ .msix 0 ∈ t.logs.out ∧ i ∉ t.fab.ports)) ∧
  (∀ (s : State) (temps : List Nat) (power : Nat), let hot := s.mgmt.pcap < power ∨ ∃ t ∈ temps, 95 < t
    (hot → exec (.thermalThrottle ⟨temps, power⟩) s = .next { s with mgmt := { s.mgmt with temps := temps, power := power, mhz := max 1000 (s.mgmt.mhz - 100) } }) ∧
    (¬ hot → exec (.thermalThrottle ⟨temps, power⟩) s = .next { s with mgmt := { s.mgmt with temps := temps, power := power, mhz := min 2500 (s.mgmt.mhz + 100) } })) ∧
  (∀ (s : State) (part : Nat), part < 8 → ∃ t, exec (.watchdogExpiry part) s = .next t ∧ t.mem.mem = s.mem.mem ∧
    ∀ l ∈ t.sched.launches, l.part = part → l.cancelled = true) ∧
  -- resets
  (∀ (s : State) (b : BootOutcome), b.failed = [] →
    ((∀ i < 4, bootPasses b i = true) → b.planes = 0xFFFF → b.ptp = true → exec (.coldReset b) s = .next { State.reset with
      agenda := s.agenda, freeCtr := s.freeCtr + 1, mgmt := { State.reset.mgmt with images := b.images } }) ∧
    ((∀ i < 3, bootPasses b i = true) → ∃ t, exec (.coldReset b) s = .next t ∧ t.mgmt.recovery = false ∧ t.mgmt.ready = true ∧ t.mgmt.timeHeld = b.ptp ∧
      t.mem = State.reset.mem ∧ ∀ p < 16, let lit := bootPasses b 3 && b.planes.getLsbD p
        t.mgmt.planeEn.getLsbD p = lit ∧ t.fab.dark.getLsbD p = !lit ∧ t.mgmt.fencedPlane.getLsbD p = !lit) ∧
    ((∃ i < 3, bootPasses b i = false) → ∃ t, exec (.coldReset b) s = .next t ∧ t.mgmt.recovery = true ∧ t.mgmt.ready = false ∧
      t.mgmt.planeEn = 0 ∧ t.host.linkUp = false ∧ t.mem = State.reset.mem ∧ t.sched = State.reset.sched)) ∧
  (let warmed := fun (s t : State) => t.sched.queues = [] ∧ t.sched.pool = [] ∧ t.sched.launches = [] ∧ t.eng.cmds = [] ∧ t.eng.anvil = [] ∧ t.mem.tlb = [] ∧
     t.mem.copies = [] ∧ (∀ p : Fin 8, t.mgmt.parts[p] = Part.blank) ∧ (∀ q : Fin 256, t.mgmt.queues[q] = QReg.blank) ∧ t.mgmt.bbPage = s.mgmt.bbPage ∧
     t.mgmt.fencedCore = s.mgmt.fencedCore ∧ t.mgmt.pcap = 3600 ∧ t.mgmt.nRank = 0 ∧ t.mgmt.timeHeld = s.mgmt.bootHeld ∧ s.logs.bbHead ≤ t.logs.bbHead ∧
     (∀ w ∈ t.allWarps, w.status = .free) ∧ ∀ e : Fin 64, t.mem.frz[e].state = .free
   (∀ (s : State), s.mgmt.warm = none → (s.allWarps.map (fun w => w.id)).Nodup → (∀ e : Fin 64, s.mem.frz[e].state = .free) → ∃ t, exec .warmReset s = .next t ∧ warmed s t) ∧
   (∀ (s : State) (t0 : Nat), s.mgmt.warm = some t0 → (s.allWarps.map (fun w => w.id)).Nodup → t0 + 10000000 ≤ s.time → ∃ t, exec .warmResetRetirementTimeout s = .next t ∧ warmed s t)) ∧
  (∀ (s : State) (part : Nat), part < 8 → s.host.waiting = [] → s.fab.held = [] → s.sched.ctl = [] → ∃ t, exec (.partitionReset part) s = .next t ∧ (∀ l ∈ t.sched.launches, l.part = part → l.cancelled = true) ∧
    (∀ q ∈ t.sched.queues, s.queuePart q.1 = part → q.2 = []) ∧ (∀ e ∈ t.mem.tlb, e.asid ≠ (s.part part).asid) ∧
    (t.part part).intStat.getLsbD 3 = true ∧ (t.part part).cores = (s.part part).cores) ∧
  (∀ (s : State) (i : Nat), ∃ t, exec (.spdmRequest (.getMeasurements i)) s = .next t ∧ t.mem = s.mem ∧ t.mgmt = s.mgmt ∧
    t.logs.out = s.logs.out ++ [.spdm (let block := fun (b : Nat) => (List.range 64).map (fun j => Config.measureByte b (measured s.mgmt.images b) j)
      if i = 0 then [0x12, 0x60, 6, 0] else if i = 255 then [0x12, 0x60] ++ (List.range 6).flatMap (fun b => block (b + 1))
      else if i ≤ 6 then [0x12, 0x60] ++ block i else [0x12, 0x7F, 0x01, 0])]) ∧
  (∀ (s : State), ∃ t, exec (.spdmRequest .getVersion) s = .next t ∧ t.mem = s.mem ∧ t.mgmt = s.mgmt ∧
    t.logs.out = s.logs.out ++ [.spdm [0x10, 0x04, 0, 0, 0, 1, 0x00, 0x12]]) ∧
  -- registers
  (∀ (s : State) (part : Nat) (v : DWord), part < 8 → let b := s.part part
    ((bits v.toNat 11 10 = 3 ∨ bits v.toNat 23 16 = 0) → exec (.partitionEnable part v) s = .next s.setErr) ∧
    (bits v.toNat 11 10 ≠ 3 → bits v.toNat 23 16 ≠ 0 → v.getLsbD 1 = false → b.enable = false → v.getLsbD 0 = true →
      let clash := b.cores &&& s.mgmt.fencedCore ≠ 0 ∨ ∃ q < 8, q ≠ part ∧ (s.part q).enable = true ∧ (s.part q).cores &&& b.cores ≠ 0
      ∃ t, exec (.partitionEnable part v) s = .next t ∧ (clash → (t.part part).enable = false ∧ t.mgmt.err = true) ∧
        (¬ clash → t.part part = { b with enable := true, disable := BitVec.ofNat 7 (bits v.toNat 9 3), frzMax := bits v.toNat 11 10, qos := bits v.toNat 23 16 } ∧
          t.mgmt.err = s.mgmt.err)) ∧
    (exec (.intmaskWrite part v) s = .next (s.writeIntMask part v) ∧ ((s.writeIntMask part v).part part).intMask = v.setWidth 4) ∧
    (∃ t, exec (.intstatClear part v) s = .next t ∧ t.part part = { b with intStat := b.intStat &&& ~~~(BitVec.ofNat 4 (bits v.toNat 35 32)) }) ∧
    (let m := bits v.toNat 28 24
     (m < 12 ∨ 20 < m ∨ 2 ^ 22 < 64 * bits v.toNat 21 6 + 2 ^ m → exec (.logringEnable part v) s = .next s.setErr) ∧
     (12 ≤ m → m ≤ 20 → 64 * bits v.toNat 21 6 + 2 ^ m ≤ 2 ^ 22 → v.getLsbD 63 = true → b.logRing.getLsbD 63 = false → ∃ t, exec (.logringEnable part v) s = .next t ∧
       (t.part part).logHead = 0 ∧ (t.part part).logTail = 0 ∧ (t.part part).logRing = v &&& 0x800000001F3FFFC0#64))) ∧
  (∀ (s : State), exec .devstatErrClear s = .next { s with mgmt := { s.mgmt with err := false } }) ∧
  (∀ (s : State) (on : Bool), exec (.quiesceWrite on) s = .next { s with mgmt := { s.mgmt with quiesce := on } }) ∧
  (∀ (s : State) (v : DWord),
    (v.toNat % 2 ^ 17 = 0 → v.getLsbD 31 = true → ∃ t, exec (.rtinvWrite v) s = .next t ∧ t.mem.ranks = [] ∧ t.mem.mem = s.mem.mem ∧ t.mgmt.rtInv = v &&& 0x8001FFFF#64) ∧
    (v.toNat % 2 ^ 17 ≠ 0 → v.getLsbD 31 = true → exec (.rtinvWrite v) s = .next s.setErr) ∧
    (v.getLsbD 31 = false → ∃ t, exec (.rtinvWrite v) s = .next t ∧ t.mem.ranks = s.mem.ranks.filter (fun p => p.1 != v.toNat % 2 ^ 17) ∧
      t.mgmt.rtInv = v &&& 0x8001FFFF#64) ∧
    (∀ clean, s.mgmt.recovery = true → exec (.planeenWrite v clean) s = .next s) ∧
    (∀ clean, s.mgmt.recovery = false → ∃ t, exec (.planeenWrite v clean) s = .next t ∧ t.mgmt.planeEn = s.mgmt.planeEn ||| (v.setWidth 16 &&& clean &&& ~~~s.mgmt.fencedPlane) ∧
      t.fab.dark = s.fab.dark &&& ~~~(v.setWidth 16 &&& clean &&& ~~~s.mgmt.fencedPlane))) ∧
  (∀ (s : State) (q : Nat) (a : DWord), q < 256 → let g := s.mgmt.queues.getD q QReg.blank
    (g.isOpen = false → exec (.qdoorPush q a) s = .next s.setErr) ∧
    -- a launch of which nothing is placed still is the record at the front
    let n := (s.sched.launches.filter (fun l => l.queue == q && !l.cancelled && l.started.isNone && !l.pooled)).length + (s.held q).length
    (∀ bs u, g.isOpen = true → a.toNat % 256 = 0 → a.toNat < 2 ^ 56 → s.ctlRead g.part a 256 = some (bs, u) →
      (n < 2 ^ g.depth → ∃ t, exec (.qdoorPush q a) s = .next t ∧ t.held q = s.held q ++ [{ bytes := bs, addr := a }] ∧
        (t.mgmt.queues.getD q QReg.blank).full = false) ∧
      (2 ^ g.depth ≤ n → ∃ t, exec (.qdoorPush q a) s = .next t ∧ t.held q = s.held q ∧ (t.mgmt.queues.getD q QReg.blank).full = true)) ∧
    (∃ t, exec (.queueClose q) s = .next t ∧ t.held q = [] ∧ (t.mgmt.queues.getD q QReg.blank).isOpen = false)) ∧
  (∀ (s : State) (v : DWord),
    (1000 ≤ v.toNat % 2 ^ 16 ∧ v.toNat % 2 ^ 16 ≤ 3600 → ∃ t, exec (.registerWrite 0x50 v) s = .next t ∧ t.mgmt = { s.mgmt with pcap := v.toNat % 2 ^ 16 }) ∧
    (v.toNat % 2 ^ 16 < 1000 ∨ 3600 < v.toNat % 2 ^ 16 → ∃ t, exec (.registerWrite 0x50 v) s = .next t ∧ t.mgmt = { s.mgmt with err := true }) ∧
    (∃ t, exec (.registerWrite 0x58 v) s = .next t ∧ t.mgmt = s.mgmt) ∧
    (∀ q < 256, (4 ≤ v.toNat % 16 ∧ v.toNat % 16 ≤ 12 → v.getLsbD 11 = true → ∃ t, exec (.registerWrite (0x2000 + 16 * q) v) s = .next t ∧
        t.mgmt.queues.getD q QReg.blank = { s.mgmt.queues.getD q QReg.blank with depth := v.toNat % 16, prio := bits v.toNat 6 4, part := bits v.toNat 10 8, isOpen := true }) ∧
      (v.toNat % 16 < 4 ∨ 12 < v.toNat % 16 → exec (.registerWrite (0x2000 + 16 * q) v) s = .next s.setErr)))
end

