-- ==== Sys2Proof/Laws/State.lean ====
section
/-! SUPPORT. One lemma for each field of the state and of the focused warp under each basic update, so that no proof unfolds a record
update. -/
namespace Sys2Proof.Machine

variable (s : State) (w : Warp)


@[simp] theorem State.modCur_cur (f : Warp → Warp) : (s.modCur f).cur = f s.cur := rfl
@[simp] theorem State.modCur_wg (f : Warp → Warp) : (s.modCur f).wg = s.wg := rfl
@[simp] theorem State.modCur_warps (f : Warp → Warp) : (s.modCur f).warps = s.warps := rfl
@[simp] theorem State.modCur_wgs (f : Warp → Warp) : (s.modCur f).wgs = s.wgs := rfl
@[simp] theorem State.modCur_sched (f : Warp → Warp) : (s.modCur f).sched = s.sched := rfl
@[simp] theorem State.modCur_mem (f : Warp → Warp) : (s.modCur f).mem = s.mem := rfl
@[simp] theorem State.modCur_eng (f : Warp → Warp) : (s.modCur f).eng = s.eng := rfl
@[simp] theorem State.modCur_fab (f : Warp → Warp) : (s.modCur f).fab = s.fab := rfl
@[simp] theorem State.modCur_host (f : Warp → Warp) : (s.modCur f).host = s.host := rfl
@[simp] theorem State.modCur_mgmt (f : Warp → Warp) : (s.modCur f).mgmt = s.mgmt := rfl
@[simp] theorem State.modCur_logs (f : Warp → Warp) : (s.modCur f).logs = s.logs := rfl
@[simp] theorem State.modCur_clk (f : Warp → Warp) : (s.modCur f).clk = s.clk := rfl
@[simp] theorem State.modCur_time (f : Warp → Warp) : (s.modCur f).time = s.time := rfl
@[simp] theorem State.modCur_agenda (f : Warp → Warp) : (s.modCur f).agenda = s.agenda := rfl
@[simp] theorem State.modCur_freeCtr (f : Warp → Warp) : (s.modCur f).freeCtr = s.freeCtr := rfl
@[simp] theorem State.modCur_turn (f : Warp → Warp) : (s.modCur f).turn = s.turn := rfl
@[simp] theorem State.modCur_due (f : Warp → Warp) : (s.modCur f).due = s.due := rfl

@[simp] theorem State.draw_cur : (s.draw).cur = s.cur := rfl
@[simp] theorem State.draw_wg : (s.draw).wg = s.wg := rfl
@[simp] theorem State.draw_warps : (s.draw).warps = s.warps := rfl
@[simp] theorem State.draw_wgs : (s.draw).wgs = s.wgs := rfl
@[simp] theorem State.draw_sched : (s.draw).sched = s.sched := rfl
@[simp] theorem State.draw_mem : (s.draw).mem = s.mem := rfl
@[simp] theorem State.draw_eng : (s.draw).eng = s.eng := rfl
@[simp] theorem State.draw_fab : (s.draw).fab = s.fab := rfl
@[simp] theorem State.draw_host : (s.draw).host = s.host := rfl
@[simp] theorem State.draw_mgmt : (s.draw).mgmt = s.mgmt := rfl
@[simp] theorem State.draw_logs : (s.draw).logs = s.logs := rfl
@[simp] theorem State.draw_clk : (s.draw).clk = s.clk := rfl
@[simp] theorem State.draw_time : (s.draw).time = s.time := rfl
@[simp] theorem State.draw_agenda : (s.draw).agenda = s.agenda := rfl
@[simp] theorem State.draw_freeCtr : (s.draw).freeCtr = s.freeCtr + 1 := rfl
@[simp] theorem State.draw_turn : (s.draw).turn = s.turn := rfl
@[simp] theorem State.draw_due : (s.draw).due = s.due := rfl

@[simp] theorem State.advance_cur : (s.advance).cur = s.cur.modPath (fun p => { p with pc := p.pc + 1 }) := rfl
@[simp] theorem State.advance_wg : (s.advance).wg = s.wg := rfl
@[simp] theorem State.advance_warps : (s.advance).warps = s.warps := rfl
@[simp] theorem State.advance_wgs : (s.advance).wgs = s.wgs := rfl
@[simp] theorem State.advance_sched : (s.advance).sched = s.sched := rfl
@[simp] theorem State.advance_mem : (s.advance).mem = s.mem := rfl
@[simp] theorem State.advance_eng : (s.advance).eng = s.eng := rfl
@[simp] theorem State.advance_fab : (s.advance).fab = s.fab := rfl
@[simp] theorem State.advance_host : (s.advance).host = s.host := rfl
@[simp] theorem State.advance_mgmt : (s.advance).mgmt = s.mgmt := rfl
@[simp] theorem State.advance_logs : (s.advance).logs = s.logs := rfl
@[simp] theorem State.advance_clk : (s.advance).clk = s.clk := rfl
@[simp] theorem State.advance_time : (s.advance).time = s.time := rfl
@[simp] theorem State.advance_agenda : (s.advance).agenda = s.agenda := rfl
@[simp] theorem State.advance_freeCtr : (s.advance).freeCtr = s.freeCtr := rfl
@[simp] theorem State.advance_turn : (s.advance).turn = s.turn := rfl
@[simp] theorem State.advance_due : (s.advance).due = s.due := rfl

@[simp] theorem State.arrive_cur (dst : DWord) : (s.arrive dst).cur = s.cur.modPath (fun p => { p with pc := dst, arr := some s.pc, line := none }) := rfl
@[simp] theorem State.arrive_wg (dst : DWord) : (s.arrive dst).wg = s.wg := rfl
@[simp] theorem State.arrive_warps (dst : DWord) : (s.arrive dst).warps = s.warps := rfl
@[simp] theorem State.arrive_wgs (dst : DWord) : (s.arrive dst).wgs = s.wgs := rfl
@[simp] theorem State.arrive_sched (dst : DWord) : (s.arrive dst).sched = s.sched := rfl
@[simp] theorem State.arrive_mem (dst : DWord) : (s.arrive dst).mem = s.mem := rfl
@[simp] theorem State.arrive_eng (dst : DWord) : (s.arrive dst).eng = s.eng := rfl
@[simp] theorem State.arrive_fab (dst : DWord) : (s.arrive dst).fab = s.fab := rfl
@[simp] theorem State.arrive_host (dst : DWord) : (s.arrive dst).host = s.host := rfl
@[simp] theorem State.arrive_mgmt (dst : DWord) : (s.arrive dst).mgmt = s.mgmt := rfl
@[simp] theorem State.arrive_logs (dst : DWord) : (s.arrive dst).logs = s.logs := rfl
@[simp] theorem State.arrive_clk (dst : DWord) : (s.arrive dst).clk = s.clk := rfl
@[simp] theorem State.arrive_time (dst : DWord) : (s.arrive dst).time = s.time := rfl
@[simp] theorem State.arrive_agenda (dst : DWord) : (s.arrive dst).agenda = s.agenda := rfl
@[simp] theorem State.arrive_freeCtr (dst : DWord) : (s.arrive dst).freeCtr = s.freeCtr := rfl
@[simp] theorem State.arrive_turn (dst : DWord) : (s.arrive dst).turn = s.turn := rfl
@[simp] theorem State.arrive_due (dst : DWord) : (s.arrive dst).due = s.due := rfl

@[simp] theorem State.issued_cur (h : Hdr) (pt : Bool) (pid : Nat) : (s.issued h pt pid).cur = (s.cur.countSb h.sb).countUp pid (countOf pt h) := rfl
@[simp] theorem State.issued_wg (h : Hdr) (pt : Bool) (pid : Nat) : (s.issued h pt pid).wg = s.wg := rfl
@[simp] theorem State.issued_warps (h : Hdr) (pt : Bool) (pid : Nat) : (s.issued h pt pid).warps = s.warps := rfl
@[simp] theorem State.issued_wgs (h : Hdr) (pt : Bool) (pid : Nat) : (s.issued h pt pid).wgs = s.wgs := rfl
@[simp] theorem State.issued_sched (h : Hdr) (pt : Bool) (pid : Nat) : (s.issued h pt pid).sched = s.sched := rfl
@[simp] theorem State.issued_mem (h : Hdr) (pt : Bool) (pid : Nat) : (s.issued h pt pid).mem = s.mem := rfl
@[simp] theorem State.issued_eng (h : Hdr) (pt : Bool) (pid : Nat) : (s.issued h pt pid).eng = s.eng := rfl
@[simp] theorem State.issued_fab (h : Hdr) (pt : Bool) (pid : Nat) : (s.issued h pt pid).fab = s.fab := rfl
@[simp] theorem State.issued_host (h : Hdr) (pt : Bool) (pid : Nat) : (s.issued h pt pid).host = s.host := rfl
@[simp] theorem State.issued_mgmt (h : Hdr) (pt : Bool) (pid : Nat) : (s.issued h pt pid).mgmt = s.mgmt := rfl
@[simp] theorem State.issued_logs (h : Hdr) (pt : Bool) (pid : Nat) : (s.issued h pt pid).logs = s.logs := rfl
@[simp] theorem State.issued_clk (h : Hdr) (pt : Bool) (pid : Nat) : (s.issued h pt pid).clk = s.clk := rfl
@[simp] theorem State.issued_time (h : Hdr) (pt : Bool) (pid : Nat) : (s.issued h pt pid).time = s.time := rfl
@[simp] theorem State.issued_agenda (h : Hdr) (pt : Bool) (pid : Nat) : (s.issued h pt pid).agenda = s.agenda := rfl
@[simp] theorem State.issued_freeCtr (h : Hdr) (pt : Bool) (pid : Nat) : (s.issued h pt pid).freeCtr = s.freeCtr := rfl
@[simp] theorem State.issued_turn (h : Hdr) (pt : Bool) (pid : Nat) : (s.issued h pt pid).turn = s.turn := rfl
@[simp] theorem State.issued_due (h : Hdr) (pt : Bool) (pid : Nat) : (s.issued h pt pid).due = s.due := rfl

@[simp] theorem State.checked_cur (i : Instr) : (s.checked i).cur = if opClass i = 3 then s.cur.settle else s.cur := rfl
@[simp] theorem State.checked_wg (i : Instr) : (s.checked i).wg = s.wg := rfl
@[simp] theorem State.checked_warps (i : Instr) : (s.checked i).warps = s.warps := rfl
@[simp] theorem State.checked_wgs (i : Instr) : (s.checked i).wgs = s.wgs := rfl
@[simp] theorem State.checked_sched (i : Instr) : (s.checked i).sched = s.sched := rfl
@[simp] theorem State.checked_mem (i : Instr) : (s.checked i).mem = s.mem := rfl
@[simp] theorem State.checked_eng (i : Instr) : (s.checked i).eng = s.eng := rfl
@[simp] theorem State.checked_fab (i : Instr) : (s.checked i).fab = s.fab := rfl
@[simp] theorem State.checked_host (i : Instr) : (s.checked i).host = s.host := rfl
@[simp] theorem State.checked_mgmt (i : Instr) : (s.checked i).mgmt = s.mgmt := rfl
@[simp] theorem State.checked_logs (i : Instr) : (s.checked i).logs = s.logs := rfl
@[simp] theorem State.checked_clk (i : Instr) : (s.checked i).clk = s.clk := rfl
@[simp] theorem State.checked_time (i : Instr) : (s.checked i).time = s.time := rfl
@[simp] theorem State.checked_agenda (i : Instr) : (s.checked i).agenda = s.agenda := rfl
@[simp] theorem State.checked_freeCtr (i : Instr) : (s.checked i).freeCtr = s.freeCtr := rfl
@[simp] theorem State.checked_turn (i : Instr) : (s.checked i).turn = s.turn := rfl
@[simp] theorem State.checked_due (i : Instr) : (s.checked i).due = s.due := rfl

@[simp] theorem State.writeV_wg (n : Nat) (m : Mask) (x : VReg) (lat : Lat) : (s.writeV n m x lat).wg = s.wg := rfl
@[simp] theorem State.writeV_warps (n : Nat) (m : Mask) (x : VReg) (lat : Lat) : (s.writeV n m x lat).warps = s.warps := rfl
@[simp] theorem State.writeV_wgs (n : Nat) (m : Mask) (x : VReg) (lat : Lat) : (s.writeV n m x lat).wgs = s.wgs := rfl
@[simp] theorem State.writeV_sched (n : Nat) (m : Mask) (x : VReg) (lat : Lat) : (s.writeV n m x lat).sched = s.sched := rfl
@[simp] theorem State.writeV_mem (n : Nat) (m : Mask) (x : VReg) (lat : Lat) : (s.writeV n m x lat).mem = s.mem := rfl
@[simp] theorem State.writeV_eng (n : Nat) (m : Mask) (x : VReg) (lat : Lat) : (s.writeV n m x lat).eng = s.eng := rfl
@[simp] theorem State.writeV_fab (n : Nat) (m : Mask) (x : VReg) (lat : Lat) : (s.writeV n m x lat).fab = s.fab := rfl
@[simp] theorem State.writeV_host (n : Nat) (m : Mask) (x : VReg) (lat : Lat) : (s.writeV n m x lat).host = s.host := rfl
@[simp] theorem State.writeV_mgmt (n : Nat) (m : Mask) (x : VReg) (lat : Lat) : (s.writeV n m x lat).mgmt = s.mgmt := rfl
@[simp] theorem State.writeV_logs (n : Nat) (m : Mask) (x : VReg) (lat : Lat) : (s.writeV n m x lat).logs = s.logs := rfl
@[simp] theorem State.writeV_clk (n : Nat) (m : Mask) (x : VReg) (lat : Lat) : (s.writeV n m x lat).clk = s.clk := rfl
@[simp] theorem State.writeV_time (n : Nat) (m : Mask) (x : VReg) (lat : Lat) : (s.writeV n m x lat).time = s.time := rfl
@[simp] theorem State.writeV_agenda (n : Nat) (m : Mask) (x : VReg) (lat : Lat) : (s.writeV n m x lat).agenda = s.agenda := rfl
@[simp] theorem State.writeV_freeCtr (n : Nat) (m : Mask) (x : VReg) (lat : Lat) : (s.writeV n m x lat).freeCtr = s.freeCtr := rfl
@[simp] theorem State.writeV_turn (n : Nat) (m : Mask) (x : VReg) (lat : Lat) : (s.writeV n m x lat).turn = s.turn := rfl
@[simp] theorem State.writeV_due (n : Nat) (m : Mask) (x : VReg) (lat : Lat) : (s.writeV n m x lat).due = s.due := rfl

@[simp] theorem State.writeS_wg (n : Nat) (x : Word) (lat : Lat) : (s.writeS n x lat).wg = s.wg := rfl
@[simp] theorem State.writeS_warps (n : Nat) (x : Word) (lat : Lat) : (s.writeS n x lat).warps = s.warps := rfl
@[simp] theorem State.writeS_wgs (n : Nat) (x : Word) (lat : Lat) : (s.writeS n x lat).wgs = s.wgs := rfl
@[simp] theorem State.writeS_sched (n : Nat) (x : Word) (lat : Lat) : (s.writeS n x lat).sched = s.sched := rfl
@[simp] theorem State.writeS_mem (n : Nat) (x : Word) (lat : Lat) : (s.writeS n x lat).mem = s.mem := rfl
@[simp] theorem State.writeS_eng (n : Nat) (x : Word) (lat : Lat) : (s.writeS n x lat).eng = s.eng := rfl
@[simp] theorem State.writeS_fab (n : Nat) (x : Word) (lat : Lat) : (s.writeS n x lat).fab = s.fab := rfl
@[simp] theorem State.writeS_host (n : Nat) (x : Word) (lat : Lat) : (s.writeS n x lat).host = s.host := rfl
@[simp] theorem State.writeS_mgmt (n : Nat) (x : Word) (lat : Lat) : (s.writeS n x lat).mgmt = s.mgmt := rfl
@[simp] theorem State.writeS_logs (n : Nat) (x : Word) (lat : Lat) : (s.writeS n x lat).logs = s.logs := rfl
@[simp] theorem State.writeS_clk (n : Nat) (x : Word) (lat : Lat) : (s.writeS n x lat).clk = s.clk := rfl
@[simp] theorem State.writeS_time (n : Nat) (x : Word) (lat : Lat) : (s.writeS n x lat).time = s.time := rfl
@[simp] theorem State.writeS_agenda (n : Nat) (x : Word) (lat : Lat) : (s.writeS n x lat).agenda = s.agenda := rfl
@[simp] theorem State.writeS_freeCtr (n : Nat) (x : Word) (lat : Lat) : (s.writeS n x lat).freeCtr = s.freeCtr := rfl
@[simp] theorem State.writeS_turn (n : Nat) (x : Word) (lat : Lat) : (s.writeS n x lat).turn = s.turn := rfl
@[simp] theorem State.writeS_due (n : Nat) (x : Word) (lat : Lat) : (s.writeS n x lat).due = s.due := rfl

@[simp] theorem State.writeS2_wg (n : Nat) (x : DWord) (lat : Lat) : (s.writeS2 n x lat).wg = s.wg := rfl
@[simp] theorem State.writeS2_warps (n : Nat) (x : DWord) (lat : Lat) : (s.writeS2 n x lat).warps = s.warps := rfl
@[simp] theorem State.writeS2_wgs (n : Nat) (x : DWord) (lat : Lat) : (s.writeS2 n x lat).wgs = s.wgs := rfl
@[simp] theorem State.writeS2_sched (n : Nat) (x : DWord) (lat : Lat) : (s.writeS2 n x lat).sched = s.sched := rfl
@[simp] theorem State.writeS2_mem (n : Nat) (x : DWord) (lat : Lat) : (s.writeS2 n x lat).mem = s.mem := rfl
@[simp] theorem State.writeS2_eng (n : Nat) (x : DWord) (lat : Lat) : (s.writeS2 n x lat).eng = s.eng := rfl
@[simp] theorem State.writeS2_fab (n : Nat) (x : DWord) (lat : Lat) : (s.writeS2 n x lat).fab = s.fab := rfl
@[simp] theorem State.writeS2_host (n : Nat) (x : DWord) (lat : Lat) : (s.writeS2 n x lat).host = s.host := rfl
@[simp] theorem State.writeS2_mgmt (n : Nat) (x : DWord) (lat : Lat) : (s.writeS2 n x lat).mgmt = s.mgmt := rfl
@[simp] theorem State.writeS2_logs (n : Nat) (x : DWord) (lat : Lat) : (s.writeS2 n x lat).logs = s.logs := rfl
@[simp] theorem State.writeS2_clk (n : Nat) (x : DWord) (lat : Lat) : (s.writeS2 n x lat).clk = s.clk := rfl
@[simp] theorem State.writeS2_time (n : Nat) (x : DWord) (lat : Lat) : (s.writeS2 n x lat).time = s.time := rfl
@[simp] theorem State.writeS2_agenda (n : Nat) (x : DWord) (lat : Lat) : (s.writeS2 n x lat).agenda = s.agenda := rfl
@[simp] theorem State.writeS2_freeCtr (n : Nat) (x : DWord) (lat : Lat) : (s.writeS2 n x lat).freeCtr = s.freeCtr := rfl
@[simp] theorem State.writeS2_turn (n : Nat) (x : DWord) (lat : Lat) : (s.writeS2 n x lat).turn = s.turn := rfl
@[simp] theorem State.writeS2_due (n : Nat) (x : DWord) (lat : Lat) : (s.writeS2 n x lat).due = s.due := rfl

@[simp] theorem State.writeP_wg (n : Nat) (m x : Mask) (lat : Lat) : (s.writeP n m x lat).wg = s.wg := by unfold State.writeP; split <;> rfl
@[simp] theorem State.writeP_warps (n : Nat) (m x : Mask) (lat : Lat) : (s.writeP n m x lat).warps = s.warps := by unfold State.writeP; split <;> rfl
@[simp] theorem State.writeP_wgs (n : Nat) (m x : Mask) (lat : Lat) : (s.writeP n m x lat).wgs = s.wgs := by unfold State.writeP; split <;> rfl
@[simp] theorem State.writeP_sched (n : Nat) (m x : Mask) (lat : Lat) : (s.writeP n m x lat).sched = s.sched := by unfold State.writeP; split <;> rfl
@[simp] theorem State.writeP_mem (n : Nat) (m x : Mask) (lat : Lat) : (s.writeP n m x lat).mem = s.mem := by unfold State.writeP; split <;> rfl
@[simp] theorem State.writeP_eng (n : Nat) (m x : Mask) (lat : Lat) : (s.writeP n m x lat).eng = s.eng := by unfold State.writeP; split <;> rfl
@[simp] theorem State.writeP_fab (n : Nat) (m x : Mask) (lat : Lat) : (s.writeP n m x lat).fab = s.fab := by unfold State.writeP; split <;> rfl
@[simp] theorem State.writeP_host (n : Nat) (m x : Mask) (lat : Lat) : (s.writeP n m x lat).host = s.host := by unfold State.writeP; split <;> rfl
@[simp] theorem State.writeP_mgmt (n : Nat) (m x : Mask) (lat : Lat) : (s.writeP n m x lat).mgmt = s.mgmt := by unfold State.writeP; split <;> rfl
@[simp] theorem State.writeP_logs (n : Nat) (m x : Mask) (lat : Lat) : (s.writeP n m x lat).logs = s.logs := by unfold State.writeP; split <;> rfl
@[simp] theorem State.writeP_clk (n : Nat) (m x : Mask) (lat : Lat) : (s.writeP n m x lat).clk = s.clk := by unfold State.writeP; split <;> rfl
@[simp] theorem State.writeP_time (n : Nat) (m x : Mask) (lat : Lat) : (s.writeP n m x lat).time = s.time := by unfold State.writeP; split <;> rfl
@[simp] theorem State.writeP_agenda (n : Nat) (m x : Mask) (lat : Lat) : (s.writeP n m x lat).agenda = s.agenda := by unfold State.writeP; split <;> rfl
@[simp] theorem State.writeP_freeCtr (n : Nat) (m x : Mask) (lat : Lat) : (s.writeP n m x lat).freeCtr = s.freeCtr := by unfold State.writeP; split <;> rfl
@[simp] theorem State.writeP_turn (n : Nat) (m x : Mask) (lat : Lat) : (s.writeP n m x lat).turn = s.turn := by unfold State.writeP; split <;> rfl
@[simp] theorem State.writeP_due (n : Nat) (m x : Mask) (lat : Lat) : (s.writeP n m x lat).due = s.due := by unfold State.writeP; split <;> rfl

@[simp] theorem State.writeLoc_cur (l : Nat) (bs : List Byte) : (s.writeLoc l bs).cur = s.cur := rfl
@[simp] theorem State.writeLoc_wg (l : Nat) (bs : List Byte) : (s.writeLoc l bs).wg = s.wg := rfl
@[simp] theorem State.writeLoc_warps (l : Nat) (bs : List Byte) : (s.writeLoc l bs).warps = s.warps := rfl
@[simp] theorem State.writeLoc_wgs (l : Nat) (bs : List Byte) : (s.writeLoc l bs).wgs = s.wgs := rfl
@[simp] theorem State.writeLoc_eng (l : Nat) (bs : List Byte) : (s.writeLoc l bs).eng = s.eng := rfl
@[simp] theorem State.writeLoc_fab (l : Nat) (bs : List Byte) : (s.writeLoc l bs).fab = s.fab := rfl
@[simp] theorem State.writeLoc_host (l : Nat) (bs : List Byte) : (s.writeLoc l bs).host = s.host := rfl
@[simp] theorem State.writeLoc_mgmt (l : Nat) (bs : List Byte) : (s.writeLoc l bs).mgmt = s.mgmt := rfl
@[simp] theorem State.writeLoc_logs (l : Nat) (bs : List Byte) : (s.writeLoc l bs).logs = s.logs := rfl
@[simp] theorem State.writeLoc_clk (l : Nat) (bs : List Byte) : (s.writeLoc l bs).clk = s.clk := rfl
@[simp] theorem State.writeLoc_time (l : Nat) (bs : List Byte) : (s.writeLoc l bs).time = s.time := rfl
@[simp] theorem State.writeLoc_agenda (l : Nat) (bs : List Byte) : (s.writeLoc l bs).agenda = s.agenda := rfl
@[simp] theorem State.writeLoc_freeCtr (l : Nat) (bs : List Byte) : (s.writeLoc l bs).freeCtr = s.freeCtr := rfl
@[simp] theorem State.writeLoc_turn (l : Nat) (bs : List Byte) : (s.writeLoc l bs).turn = s.turn := rfl
@[simp] theorem State.writeLoc_due (l : Nat) (bs : List Byte) : (s.writeLoc l bs).due = s.due := rfl

@[simp] theorem Warp.settle_id : (w.settle).id = w.id := rfl
@[simp] theorem Warp.settle_wg : (w.settle).wg = w.wg := rfl
@[simp] theorem Warp.settle_index : (w.settle).index = w.index := rfl
@[simp] theorem Warp.settle_status : (w.settle).status = w.status := rfl
@[simp] theorem Warp.settle_v : (w.settle).v = w.v := rfl
@[simp] theorem Warp.settle_s : (w.settle).s = w.s := rfl
@[simp] theorem Warp.settle_p : (w.settle).p = w.p := rfl
@[simp] theorem Warp.settle_k : (w.settle).k = w.k := rfl
@[simp] theorem Warp.settle_exited : (w.settle).exited = w.exited := rfl
@[simp] theorem Warp.settle_base : (w.settle).base = w.base := rfl
@[simp] theorem Warp.settle_stack : (w.settle).stack = w.stack := rfl
@[simp] theorem Warp.settle_spilled : (w.settle).spilled = w.spilled := rfl
@[simp] theorem Warp.settle_issuing : (w.settle).issuing = w.issuing := rfl
@[simp] theorem Warp.settle_nextPid : (w.settle).nextPid = w.nextPid := rfl
@[simp] theorem Warp.settle_trapMode : (w.settle).trapMode = w.trapMode := rfl
@[simp] theorem Warp.settle_cause : (w.settle).cause = w.cause := rfl
@[simp] theorem Warp.settle_epc : (w.settle).epc = w.epc := rfl
@[simp] theorem Warp.settle_fault : (w.settle).fault = w.fault := rfl
@[simp] theorem Warp.settle_pendFaults : (w.settle).pendFaults = w.pendFaults := rfl
@[simp] theorem Warp.settle_sb : (w.settle).sb = w.sb := rfl
@[simp] theorem Warp.settle_ports : (w.settle).ports = w.ports := rfl
@[simp] theorem Warp.settle_region : (w.settle).region = w.region := rfl
@[simp] theorem Warp.settle_barRec : (w.settle).barRec = w.barRec := rfl
@[simp] theorem Warp.settle_bargRec : (w.settle).bargRec = w.bargRec := rfl
@[simp] theorem Warp.settle_hold : (w.settle).hold = w.hold := rfl
@[simp] theorem Warp.settle_fence : (w.settle).fence = w.fence := rfl
@[simp] theorem Warp.settle_waitCount : (w.settle).waitCount = w.waitCount := rfl
@[simp] theorem Warp.settle_altCount : (w.settle).altCount = w.altCount := rfl
@[simp] theorem Warp.settle_second : (w.settle).second = w.second := rfl
@[simp] theorem Warp.settle_gives : (w.settle).gives = w.gives := rfl
@[simp] theorem Warp.settle_last : (w.settle).last = w.last := rfl
@[simp] theorem Warp.settle_arena : (w.settle).arena = w.arena := rfl

@[simp] theorem Warp.waited_id (h : Hdr) (c : Bool) : (w.waited h c).id = w.id := rfl
@[simp] theorem Warp.waited_wg (h : Hdr) (c : Bool) : (w.waited h c).wg = w.wg := rfl
@[simp] theorem Warp.waited_index (h : Hdr) (c : Bool) : (w.waited h c).index = w.index := rfl
@[simp] theorem Warp.waited_status (h : Hdr) (c : Bool) : (w.waited h c).status = w.status := rfl
@[simp] theorem Warp.waited_v (h : Hdr) (c : Bool) : (w.waited h c).v = w.v := rfl
@[simp] theorem Warp.waited_s (h : Hdr) (c : Bool) : (w.waited h c).s = w.s := rfl
@[simp] theorem Warp.waited_p (h : Hdr) (c : Bool) : (w.waited h c).p = w.p := rfl
@[simp] theorem Warp.waited_k (h : Hdr) (c : Bool) : (w.waited h c).k = w.k := rfl
@[simp] theorem Warp.waited_exited (h : Hdr) (c : Bool) : (w.waited h c).exited = w.exited := rfl
@[simp] theorem Warp.waited_base (h : Hdr) (c : Bool) : (w.waited h c).base = w.base := rfl
@[simp] theorem Warp.waited_stack (h : Hdr) (c : Bool) : (w.waited h c).stack = w.stack := rfl
@[simp] theorem Warp.waited_spilled (h : Hdr) (c : Bool) : (w.waited h c).spilled = w.spilled := rfl
@[simp] theorem Warp.waited_issuing (h : Hdr) (c : Bool) : (w.waited h c).issuing = w.issuing := rfl
@[simp] theorem Warp.waited_nextPid (h : Hdr) (c : Bool) : (w.waited h c).nextPid = w.nextPid := rfl
@[simp] theorem Warp.waited_trapMode (h : Hdr) (c : Bool) : (w.waited h c).trapMode = w.trapMode := rfl
@[simp] theorem Warp.waited_cause (h : Hdr) (c : Bool) : (w.waited h c).cause = w.cause := rfl
@[simp] theorem Warp.waited_epc (h : Hdr) (c : Bool) : (w.waited h c).epc = w.epc := rfl
@[simp] theorem Warp.waited_fault (h : Hdr) (c : Bool) : (w.waited h c).fault = w.fault := rfl
@[simp] theorem Warp.waited_pendFaults (h : Hdr) (c : Bool) : (w.waited h c).pendFaults = w.pendFaults := rfl
@[simp] theorem Warp.waited_sb (h : Hdr) (c : Bool) : (w.waited h c).sb = w.sb := rfl
@[simp] theorem Warp.waited_ports (h : Hdr) (c : Bool) : (w.waited h c).ports = w.ports := rfl
@[simp] theorem Warp.waited_region (h : Hdr) (c : Bool) : (w.waited h c).region = w.region := rfl
@[simp] theorem Warp.waited_barRec (h : Hdr) (c : Bool) : (w.waited h c).barRec = w.barRec := rfl
@[simp] theorem Warp.waited_bargRec (h : Hdr) (c : Bool) : (w.waited h c).bargRec = w.bargRec := rfl
@[simp] theorem Warp.waited_hold (h : Hdr) (c : Bool) : (w.waited h c).hold = w.hold := rfl
@[simp] theorem Warp.waited_fence (h : Hdr) (c : Bool) : (w.waited h c).fence = w.fence := rfl
@[simp] theorem Warp.waited_waitCount (h : Hdr) (c : Bool) : (w.waited h c).waitCount = w.waitCount := rfl
@[simp] theorem Warp.waited_altCount (h : Hdr) (c : Bool) : (w.waited h c).altCount = w.altCount := rfl
@[simp] theorem Warp.waited_second (h : Hdr) (c : Bool) : (w.waited h c).second = w.second := rfl
@[simp] theorem Warp.waited_gives (h : Hdr) (c : Bool) : (w.waited h c).gives = w.gives := rfl
@[simp] theorem Warp.waited_last (h : Hdr) (c : Bool) : (w.waited h c).last = w.last := rfl
@[simp] theorem Warp.waited_arena (h : Hdr) (c : Bool) : (w.waited h c).arena = w.arena := rfl

@[simp] theorem Warp.countUp_id (pid c : Nat) : (w.countUp pid c).id = w.id := rfl
@[simp] theorem Warp.countUp_wg (pid c : Nat) : (w.countUp pid c).wg = w.wg := rfl
@[simp] theorem Warp.countUp_index (pid c : Nat) : (w.countUp pid c).index = w.index := rfl
@[simp] theorem Warp.countUp_status (pid c : Nat) : (w.countUp pid c).status = w.status := rfl
@[simp] theorem Warp.countUp_v (pid c : Nat) : (w.countUp pid c).v = w.v := rfl
@[simp] theorem Warp.countUp_s (pid c : Nat) : (w.countUp pid c).s = w.s := rfl
@[simp] theorem Warp.countUp_p (pid c : Nat) : (w.countUp pid c).p = w.p := rfl
@[simp] theorem Warp.countUp_k (pid c : Nat) : (w.countUp pid c).k = w.k := rfl
@[simp] theorem Warp.countUp_exited (pid c : Nat) : (w.countUp pid c).exited = w.exited := rfl
@[simp] theorem Warp.countUp_base (pid c : Nat) : (w.countUp pid c).base = w.base := rfl
@[simp] theorem Warp.countUp_stack (pid c : Nat) : (w.countUp pid c).stack = w.stack := rfl
@[simp] theorem Warp.countUp_spilled (pid c : Nat) : (w.countUp pid c).spilled = w.spilled := rfl
@[simp] theorem Warp.countUp_issuing (pid c : Nat) : (w.countUp pid c).issuing = w.issuing := rfl
@[simp] theorem Warp.countUp_nextPid (pid c : Nat) : (w.countUp pid c).nextPid = w.nextPid := rfl
@[simp] theorem Warp.countUp_trapMode (pid c : Nat) : (w.countUp pid c).trapMode = w.trapMode := rfl
@[simp] theorem Warp.countUp_cause (pid c : Nat) : (w.countUp pid c).cause = w.cause := rfl
@[simp] theorem Warp.countUp_epc (pid c : Nat) : (w.countUp pid c).epc = w.epc := rfl
@[simp] theorem Warp.countUp_fault (pid c : Nat) : (w.countUp pid c).fault = w.fault := rfl
@[simp] theorem Warp.countUp_pendFaults (pid c : Nat) : (w.countUp pid c).pendFaults = w.pendFaults := rfl
@[simp] theorem Warp.countUp_sb (pid c : Nat) : (w.countUp pid c).sb = w.sb := rfl
@[simp] theorem Warp.countUp_ports (pid c : Nat) : (w.countUp pid c).ports = w.ports := rfl
@[simp] theorem Warp.countUp_region (pid c : Nat) : (w.countUp pid c).region = w.region := rfl
@[simp] theorem Warp.countUp_barRec (pid c : Nat) : (w.countUp pid c).barRec = w.barRec := rfl
@[simp] theorem Warp.countUp_bargRec (pid c : Nat) : (w.countUp pid c).bargRec = w.bargRec := rfl
@[simp] theorem Warp.countUp_hold (pid c : Nat) : (w.countUp pid c).hold = w.hold := rfl
@[simp] theorem Warp.countUp_fence (pid c : Nat) : (w.countUp pid c).fence = w.fence := rfl
@[simp] theorem Warp.countUp_waitCount (pid c : Nat) : (w.countUp pid c).waitCount = w.waitCount := rfl
@[simp] theorem Warp.countUp_altCount (pid c : Nat) : (w.countUp pid c).altCount = w.altCount := rfl
@[simp] theorem Warp.countUp_second (pid c : Nat) : (w.countUp pid c).second = w.second := rfl
@[simp] theorem Warp.countUp_gives (pid c : Nat) : (w.countUp pid c).gives = w.gives := rfl
@[simp] theorem Warp.countUp_last (pid c : Nat) : (w.countUp pid c).last = w.last := rfl
@[simp] theorem Warp.countUp_arena (pid c : Nat) : (w.countUp pid c).arena = w.arena := rfl

@[simp] theorem Warp.countSb_id (e : Nat) : (w.countSb e).id = w.id := by unfold Warp.countSb; split <;> rfl
@[simp] theorem Warp.countSb_wg (e : Nat) : (w.countSb e).wg = w.wg := by unfold Warp.countSb; split <;> rfl
@[simp] theorem Warp.countSb_index (e : Nat) : (w.countSb e).index = w.index := by unfold Warp.countSb; split <;> rfl
@[simp] theorem Warp.countSb_status (e : Nat) : (w.countSb e).status = w.status := by unfold Warp.countSb; split <;> rfl
@[simp] theorem Warp.countSb_v (e : Nat) : (w.countSb e).v = w.v := by unfold Warp.countSb; split <;> rfl
@[simp] theorem Warp.countSb_s (e : Nat) : (w.countSb e).s = w.s := by unfold Warp.countSb; split <;> rfl
@[simp] theorem Warp.countSb_p (e : Nat) : (w.countSb e).p = w.p := by unfold Warp.countSb; split <;> rfl
@[simp] theorem Warp.countSb_k (e : Nat) : (w.countSb e).k = w.k := by unfold Warp.countSb; split <;> rfl
@[simp] theorem Warp.countSb_exited (e : Nat) : (w.countSb e).exited = w.exited := by unfold Warp.countSb; split <;> rfl
@[simp] theorem Warp.countSb_base (e : Nat) : (w.countSb e).base = w.base := by unfold Warp.countSb; split <;> rfl
@[simp] theorem Warp.countSb_stack (e : Nat) : (w.countSb e).stack = w.stack := by unfold Warp.countSb; split <;> rfl
@[simp] theorem Warp.countSb_spilled (e : Nat) : (w.countSb e).spilled = w.spilled := by unfold Warp.countSb; split <;> rfl
@[simp] theorem Warp.countSb_issuing (e : Nat) : (w.countSb e).issuing = w.issuing := by unfold Warp.countSb; split <;> rfl
@[simp] theorem Warp.countSb_nextPid (e : Nat) : (w.countSb e).nextPid = w.nextPid := by unfold Warp.countSb; split <;> rfl
@[simp] theorem Warp.countSb_trapMode (e : Nat) : (w.countSb e).trapMode = w.trapMode := by unfold Warp.countSb; split <;> rfl
@[simp] theorem Warp.countSb_cause (e : Nat) : (w.countSb e).cause = w.cause := by unfold Warp.countSb; split <;> rfl
@[simp] theorem Warp.countSb_epc (e : Nat) : (w.countSb e).epc = w.epc := by unfold Warp.countSb; split <;> rfl
@[simp] theorem Warp.countSb_fault (e : Nat) : (w.countSb e).fault = w.fault := by unfold Warp.countSb; split <;> rfl
@[simp] theorem Warp.countSb_pendFaults (e : Nat) : (w.countSb e).pendFaults = w.pendFaults := by unfold Warp.countSb; split <;> rfl
@[simp] theorem Warp.countSb_pend (e : Nat) : (w.countSb e).pend = w.pend := by unfold Warp.countSb; split <;> rfl
@[simp] theorem Warp.countSb_ports (e : Nat) : (w.countSb e).ports = w.ports := by unfold Warp.countSb; split <;> rfl
@[simp] theorem Warp.countSb_region (e : Nat) : (w.countSb e).region = w.region := by unfold Warp.countSb; split <;> rfl
@[simp] theorem Warp.countSb_barRec (e : Nat) : (w.countSb e).barRec = w.barRec := by unfold Warp.countSb; split <;> rfl
@[simp] theorem Warp.countSb_bargRec (e : Nat) : (w.countSb e).bargRec = w.bargRec := by unfold Warp.countSb; split <;> rfl
@[simp] theorem Warp.countSb_hold (e : Nat) : (w.countSb e).hold = w.hold := by unfold Warp.countSb; split <;> rfl
@[simp] theorem Warp.countSb_fence (e : Nat) : (w.countSb e).fence = w.fence := by unfold Warp.countSb; split <;> rfl
@[simp] theorem Warp.countSb_waitCount (e : Nat) : (w.countSb e).waitCount = w.waitCount := by unfold Warp.countSb; split <;> rfl
@[simp] theorem Warp.countSb_altCount (e : Nat) : (w.countSb e).altCount = w.altCount := by unfold Warp.countSb; split <;> rfl
@[simp] theorem Warp.countSb_second (e : Nat) : (w.countSb e).second = w.second := by unfold Warp.countSb; split <;> rfl
@[simp] theorem Warp.countSb_gives (e : Nat) : (w.countSb e).gives = w.gives := by unfold Warp.countSb; split <;> rfl
@[simp] theorem Warp.countSb_last (e : Nat) : (w.countSb e).last = w.last := by unfold Warp.countSb; split <;> rfl
@[simp] theorem Warp.countSb_arena (e : Nat) : (w.countSb e).arena = w.arena := by unfold Warp.countSb; split <;> rfl

@[simp] theorem Warp.modPath_id (f : Path → Path) : (w.modPath f).id = w.id := by unfold Warp.modPath; split <;> rfl
@[simp] theorem Warp.modPath_wg (f : Path → Path) : (w.modPath f).wg = w.wg := by unfold Warp.modPath; split <;> rfl
@[simp] theorem Warp.modPath_index (f : Path → Path) : (w.modPath f).index = w.index := by unfold Warp.modPath; split <;> rfl
@[simp] theorem Warp.modPath_status (f : Path → Path) : (w.modPath f).status = w.status := by unfold Warp.modPath; split <;> rfl
@[simp] theorem Warp.modPath_v (f : Path → Path) : (w.modPath f).v = w.v := by unfold Warp.modPath; split <;> rfl
@[simp] theorem Warp.modPath_s (f : Path → Path) : (w.modPath f).s = w.s := by unfold Warp.modPath; split <;> rfl
@[simp] theorem Warp.modPath_p (f : Path → Path) : (w.modPath f).p = w.p := by unfold Warp.modPath; split <;> rfl
@[simp] theorem Warp.modPath_k (f : Path → Path) : (w.modPath f).k = w.k := by unfold Warp.modPath; split <;> rfl
@[simp] theorem Warp.modPath_exited (f : Path → Path) : (w.modPath f).exited = w.exited := by unfold Warp.modPath; split <;> rfl
@[simp] theorem Warp.modPath_spilled (f : Path → Path) : (w.modPath f).spilled = w.spilled := by unfold Warp.modPath; split <;> rfl
@[simp] theorem Warp.modPath_issuing (f : Path → Path) : (w.modPath f).issuing = w.issuing := by unfold Warp.modPath; split <;> rfl
@[simp] theorem Warp.modPath_nextPid (f : Path → Path) : (w.modPath f).nextPid = w.nextPid := by unfold Warp.modPath; split <;> rfl
@[simp] theorem Warp.modPath_trapMode (f : Path → Path) : (w.modPath f).trapMode = w.trapMode := by unfold Warp.modPath; split <;> rfl
@[simp] theorem Warp.modPath_cause (f : Path → Path) : (w.modPath f).cause = w.cause := by unfold Warp.modPath; split <;> rfl
@[simp] theorem Warp.modPath_epc (f : Path → Path) : (w.modPath f).epc = w.epc := by unfold Warp.modPath; split <;> rfl
@[simp] theorem Warp.modPath_fault (f : Path → Path) : (w.modPath f).fault = w.fault := by unfold Warp.modPath; split <;> rfl
@[simp] theorem Warp.modPath_pendFaults (f : Path → Path) : (w.modPath f).pendFaults = w.pendFaults := by unfold Warp.modPath; split <;> rfl
@[simp] theorem Warp.modPath_sb (f : Path → Path) : (w.modPath f).sb = w.sb := by unfold Warp.modPath; split <;> rfl
@[simp] theorem Warp.modPath_pend (f : Path → Path) : (w.modPath f).pend = w.pend := by unfold Warp.modPath; split <;> rfl
@[simp] theorem Warp.modPath_ports (f : Path → Path) : (w.modPath f).ports = w.ports := by unfold Warp.modPath; split <;> rfl
@[simp] theorem Warp.modPath_region (f : Path → Path) : (w.modPath f).region = w.region := by unfold Warp.modPath; split <;> rfl
@[simp] theorem Warp.modPath_barRec (f : Path → Path) : (w.modPath f).barRec = w.barRec := by unfold Warp.modPath; split <;> rfl
@[simp] theorem Warp.modPath_bargRec (f : Path → Path) : (w.modPath f).bargRec = w.bargRec := by unfold Warp.modPath; split <;> rfl
@[simp] theorem Warp.modPath_hold (f : Path → Path) : (w.modPath f).hold = w.hold := by unfold Warp.modPath; split <;> rfl
@[simp] theorem Warp.modPath_fence (f : Path → Path) : (w.modPath f).fence = w.fence := by unfold Warp.modPath; split <;> rfl
@[simp] theorem Warp.modPath_waitCount (f : Path → Path) : (w.modPath f).waitCount = w.waitCount := by unfold Warp.modPath; split <;> rfl
@[simp] theorem Warp.modPath_altCount (f : Path → Path) : (w.modPath f).altCount = w.altCount := by unfold Warp.modPath; split <;> rfl
@[simp] theorem Warp.modPath_second (f : Path → Path) : (w.modPath f).second = w.second := by unfold Warp.modPath; split <;> rfl
@[simp] theorem Warp.modPath_gives (f : Path → Path) : (w.modPath f).gives = w.gives := by unfold Warp.modPath; split <;> rfl
@[simp] theorem Warp.modPath_last (f : Path → Path) : (w.modPath f).last = w.last := by unfold Warp.modPath; split <;> rfl
@[simp] theorem Warp.modPath_arena (f : Path → Path) : (w.modPath f).arena = w.arena := by unfold Warp.modPath; split <;> rfl

@[simp] theorem State.writeV_cur_id (n : Nat) (m : Mask) (x : VReg) (lat : Lat) : (s.writeV n m x lat).cur.id = s.cur.id := rfl
@[simp] theorem State.writeV_cur_wg (n : Nat) (m : Mask) (x : VReg) (lat : Lat) : (s.writeV n m x lat).cur.wg = s.cur.wg := rfl
@[simp] theorem State.writeV_cur_index (n : Nat) (m : Mask) (x : VReg) (lat : Lat) : (s.writeV n m x lat).cur.index = s.cur.index := rfl
@[simp] theorem State.writeV_cur_status (n : Nat) (m : Mask) (x : VReg) (lat : Lat) : (s.writeV n m x lat).cur.status = s.cur.status := rfl
@[simp] theorem State.writeV_cur_s (n : Nat) (m : Mask) (x : VReg) (lat : Lat) : (s.writeV n m x lat).cur.s = s.cur.s := rfl
@[simp] theorem State.writeV_cur_p (n : Nat) (m : Mask) (x : VReg) (lat : Lat) : (s.writeV n m x lat).cur.p = s.cur.p := rfl
@[simp] theorem State.writeV_cur_k (n : Nat) (m : Mask) (x : VReg) (lat : Lat) : (s.writeV n m x lat).cur.k = s.cur.k := rfl
@[simp] theorem State.writeV_cur_exited (n : Nat) (m : Mask) (x : VReg) (lat : Lat) : (s.writeV n m x lat).cur.exited = s.cur.exited := rfl
@[simp] theorem State.writeV_cur_base (n : Nat) (m : Mask) (x : VReg) (lat : Lat) : (s.writeV n m x lat).cur.base = s.cur.base := rfl
@[simp] theorem State.writeV_cur_stack (n : Nat) (m : Mask) (x : VReg) (lat : Lat) : (s.writeV n m x lat).cur.stack = s.cur.stack := rfl
@[simp] theorem State.writeV_cur_spilled (n : Nat) (m : Mask) (x : VReg) (lat : Lat) : (s.writeV n m x lat).cur.spilled = s.cur.spilled := rfl
@[simp] theorem State.writeV_cur_issuing (n : Nat) (m : Mask) (x : VReg) (lat : Lat) : (s.writeV n m x lat).cur.issuing = s.cur.issuing := rfl
@[simp] theorem State.writeV_cur_nextPid (n : Nat) (m : Mask) (x : VReg) (lat : Lat) : (s.writeV n m x lat).cur.nextPid = s.cur.nextPid := rfl
@[simp] theorem State.writeV_cur_trapMode (n : Nat) (m : Mask) (x : VReg) (lat : Lat) : (s.writeV n m x lat).cur.trapMode = s.cur.trapMode := rfl
@[simp] theorem State.writeV_cur_cause (n : Nat) (m : Mask) (x : VReg) (lat : Lat) : (s.writeV n m x lat).cur.cause = s.cur.cause := rfl
@[simp] theorem State.writeV_cur_epc (n : Nat) (m : Mask) (x : VReg) (lat : Lat) : (s.writeV n m x lat).cur.epc = s.cur.epc := rfl
@[simp] theorem State.writeV_cur_fault (n : Nat) (m : Mask) (x : VReg) (lat : Lat) : (s.writeV n m x lat).cur.fault = s.cur.fault := rfl
@[simp] theorem State.writeV_cur_pendFaults (n : Nat) (m : Mask) (x : VReg) (lat : Lat) : (s.writeV n m x lat).cur.pendFaults = s.cur.pendFaults := rfl
@[simp] theorem State.writeV_cur_sb (n : Nat) (m : Mask) (x : VReg) (lat : Lat) : (s.writeV n m x lat).cur.sb = s.cur.sb := rfl
@[simp] theorem State.writeV_cur_ports (n : Nat) (m : Mask) (x : VReg) (lat : Lat) : (s.writeV n m x lat).cur.ports = s.cur.ports := rfl
@[simp] theorem State.writeV_cur_region (n : Nat) (m : Mask) (x : VReg) (lat : Lat) : (s.writeV n m x lat).cur.region = s.cur.region := rfl
@[simp] theorem State.writeV_cur_barRec (n : Nat) (m : Mask) (x : VReg) (lat : Lat) : (s.writeV n m x lat).cur.barRec = s.cur.barRec := rfl
@[simp] theorem State.writeV_cur_bargRec (n : Nat) (m : Mask) (x : VReg) (lat : Lat) : (s.writeV n m x lat).cur.bargRec = s.cur.bargRec := rfl
@[simp] theorem State.writeV_cur_hold (n : Nat) (m : Mask) (x : VReg) (lat : Lat) : (s.writeV n m x lat).cur.hold = s.cur.hold := rfl
@[simp] theorem State.writeV_cur_fence (n : Nat) (m : Mask) (x : VReg) (lat : Lat) : (s.writeV n m x lat).cur.fence = s.cur.fence := rfl
@[simp] theorem State.writeV_cur_waitCount (n : Nat) (m : Mask) (x : VReg) (lat : Lat) : (s.writeV n m x lat).cur.waitCount = s.cur.waitCount := rfl
@[simp] theorem State.writeV_cur_altCount (n : Nat) (m : Mask) (x : VReg) (lat : Lat) : (s.writeV n m x lat).cur.altCount = s.cur.altCount := rfl
@[simp] theorem State.writeV_cur_second (n : Nat) (m : Mask) (x : VReg) (lat : Lat) : (s.writeV n m x lat).cur.second = s.cur.second := rfl
@[simp] theorem State.writeV_cur_gives (n : Nat) (m : Mask) (x : VReg) (lat : Lat) : (s.writeV n m x lat).cur.gives = s.cur.gives := rfl
@[simp] theorem State.writeV_cur_last (n : Nat) (m : Mask) (x : VReg) (lat : Lat) : (s.writeV n m x lat).cur.last = s.cur.last := rfl
@[simp] theorem State.writeV_cur_arena (n : Nat) (m : Mask) (x : VReg) (lat : Lat) : (s.writeV n m x lat).cur.arena = s.cur.arena := rfl

@[simp] theorem State.writeS_cur_id (n : Nat) (x : Word) (lat : Lat) : (s.writeS n x lat).cur.id = s.cur.id := rfl
@[simp] theorem State.writeS_cur_wg (n : Nat) (x : Word) (lat : Lat) : (s.writeS n x lat).cur.wg = s.cur.wg := rfl
@[simp] theorem State.writeS_cur_index (n : Nat) (x : Word) (lat : Lat) : (s.writeS n x lat).cur.index = s.cur.index := rfl
@[simp] theorem State.writeS_cur_status (n : Nat) (x : Word) (lat : Lat) : (s.writeS n x lat).cur.status = s.cur.status := rfl
@[simp] theorem State.writeS_cur_v (n : Nat) (x : Word) (lat : Lat) : (s.writeS n x lat).cur.v = s.cur.v := rfl
@[simp] theorem State.writeS_cur_p (n : Nat) (x : Word) (lat : Lat) : (s.writeS n x lat).cur.p = s.cur.p := rfl
@[simp] theorem State.writeS_cur_k (n : Nat) (x : Word) (lat : Lat) : (s.writeS n x lat).cur.k = s.cur.k := rfl
@[simp] theorem State.writeS_cur_exited (n : Nat) (x : Word) (lat : Lat) : (s.writeS n x lat).cur.exited = s.cur.exited := rfl
@[simp] theorem State.writeS_cur_base (n : Nat) (x : Word) (lat : Lat) : (s.writeS n x lat).cur.base = s.cur.base := rfl
@[simp] theorem State.writeS_cur_stack (n : Nat) (x : Word) (lat : Lat) : (s.writeS n x lat).cur.stack = s.cur.stack := rfl
@[simp] theorem State.writeS_cur_spilled (n : Nat) (x : Word) (lat : Lat) : (s.writeS n x lat).cur.spilled = s.cur.spilled := rfl
@[simp] theorem State.writeS_cur_issuing (n : Nat) (x : Word) (lat : Lat) : (s.writeS n x lat).cur.issuing = s.cur.issuing := rfl
@[simp] theorem State.writeS_cur_nextPid (n : Nat) (x : Word) (lat : Lat) : (s.writeS n x lat).cur.nextPid = s.cur.nextPid := rfl
@[simp] theorem State.writeS_cur_trapMode (n : Nat) (x : Word) (lat : Lat) : (s.writeS n x lat).cur.trapMode = s.cur.trapMode := rfl
@[simp] theorem State.writeS_cur_cause (n : Nat) (x : Word) (lat : Lat) : (s.writeS n x lat).cur.cause = s.cur.cause := rfl
@[simp] theorem State.writeS_cur_epc (n : Nat) (x : Word) (lat : Lat) : (s.writeS n x lat).cur.epc = s.cur.epc := rfl
@[simp] theorem State.writeS_cur_fault (n : Nat) (x : Word) (lat : Lat) : (s.writeS n x lat).cur.fault = s.cur.fault := rfl
@[simp] theorem State.writeS_cur_pendFaults (n : Nat) (x : Word) (lat : Lat) : (s.writeS n x lat).cur.pendFaults = s.cur.pendFaults := rfl
@[simp] theorem State.writeS_cur_sb (n : Nat) (x : Word) (lat : Lat) : (s.writeS n x lat).cur.sb = s.cur.sb := rfl
@[simp] theorem State.writeS_cur_ports (n : Nat) (x : Word) (lat : Lat) : (s.writeS n x lat).cur.ports = s.cur.ports := rfl
@[simp] theorem State.writeS_cur_region (n : Nat) (x : Word) (lat : Lat) : (s.writeS n x lat).cur.region = s.cur.region := rfl
@[simp] theorem State.writeS_cur_barRec (n : Nat) (x : Word) (lat : Lat) : (s.writeS n x lat).cur.barRec = s.cur.barRec := rfl
@[simp] theorem State.writeS_cur_bargRec (n : Nat) (x : Word) (lat : Lat) : (s.writeS n x lat).cur.bargRec = s.cur.bargRec := rfl
@[simp] theorem State.writeS_cur_hold (n : Nat) (x : Word) (lat : Lat) : (s.writeS n x lat).cur.hold = s.cur.hold := rfl
@[simp] theorem State.writeS_cur_fence (n : Nat) (x : Word) (lat : Lat) : (s.writeS n x lat).cur.fence = s.cur.fence := rfl
@[simp] theorem State.writeS_cur_waitCount (n : Nat) (x : Word) (lat : Lat) : (s.writeS n x lat).cur.waitCount = s.cur.waitCount := rfl
@[simp] theorem State.writeS_cur_altCount (n : Nat) (x : Word) (lat : Lat) : (s.writeS n x lat).cur.altCount = s.cur.altCount := rfl
@[simp] theorem State.writeS_cur_second (n : Nat) (x : Word) (lat : Lat) : (s.writeS n x lat).cur.second = s.cur.second := rfl
@[simp] theorem State.writeS_cur_gives (n : Nat) (x : Word) (lat : Lat) : (s.writeS n x lat).cur.gives = s.cur.gives := rfl
@[simp] theorem State.writeS_cur_last (n : Nat) (x : Word) (lat : Lat) : (s.writeS n x lat).cur.last = s.cur.last := rfl
@[simp] theorem State.writeS_cur_arena (n : Nat) (x : Word) (lat : Lat) : (s.writeS n x lat).cur.arena = s.cur.arena := rfl

@[simp] theorem State.writeP_cur_id (n : Nat) (m x : Mask) (lat : Lat) : (s.writeP n m x lat).cur.id = s.cur.id := by unfold State.writeP; split <;> rfl
@[simp] theorem State.writeP_cur_wg (n : Nat) (m x : Mask) (lat : Lat) : (s.writeP n m x lat).cur.wg = s.cur.wg := by unfold State.writeP; split <;> rfl
@[simp] theorem State.writeP_cur_index (n : Nat) (m x : Mask) (lat : Lat) : (s.writeP n m x lat).cur.index = s.cur.index := by unfold State.writeP; split <;> rfl
@[simp] theorem State.writeP_cur_status (n : Nat) (m x : Mask) (lat : Lat) : (s.writeP n m x lat).cur.status = s.cur.status := by unfold State.writeP; split <;> rfl
@[simp] theorem State.writeP_cur_v (n : Nat) (m x : Mask) (lat : Lat) : (s.writeP n m x lat).cur.v = s.cur.v := by unfold State.writeP; split <;> rfl
@[simp] theorem State.writeP_cur_s (n : Nat) (m x : Mask) (lat : Lat) : (s.writeP n m x lat).cur.s = s.cur.s := by unfold State.writeP; split <;> rfl
@[simp] theorem State.writeP_cur_k (n : Nat) (m x : Mask) (lat : Lat) : (s.writeP n m x lat).cur.k = s.cur.k := by unfold State.writeP; split <;> rfl
@[simp] theorem State.writeP_cur_exited (n : Nat) (m x : Mask) (lat : Lat) : (s.writeP n m x lat).cur.exited = s.cur.exited := by unfold State.writeP; split <;> rfl
@[simp] theorem State.writeP_cur_base (n : Nat) (m x : Mask) (lat : Lat) : (s.writeP n m x lat).cur.base = s.cur.base := by unfold State.writeP; split <;> rfl
@[simp] theorem State.writeP_cur_stack (n : Nat) (m x : Mask) (lat : Lat) : (s.writeP n m x lat).cur.stack = s.cur.stack := by unfold State.writeP; split <;> rfl
@[simp] theorem State.writeP_cur_spilled (n : Nat) (m x : Mask) (lat : Lat) : (s.writeP n m x lat).cur.spilled = s.cur.spilled := by unfold State.writeP; split <;> rfl
@[simp] theorem State.writeP_cur_issuing (n : Nat) (m x : Mask) (lat : Lat) : (s.writeP n m x lat).cur.issuing = s.cur.issuing := by unfold State.writeP; split <;> rfl
@[simp] theorem State.writeP_cur_nextPid (n : Nat) (m x : Mask) (lat : Lat) : (s.writeP n m x lat).cur.nextPid = s.cur.nextPid := by unfold State.writeP; split <;> rfl
@[simp] theorem State.writeP_cur_trapMode (n : Nat) (m x : Mask) (lat : Lat) : (s.writeP n m x lat).cur.trapMode = s.cur.trapMode := by unfold State.writeP; split <;> rfl
@[simp] theorem State.writeP_cur_cause (n : Nat) (m x : Mask) (lat : Lat) : (s.writeP n m x lat).cur.cause = s.cur.cause := by unfold State.writeP; split <;> rfl
@[simp] theorem State.writeP_cur_epc (n : Nat) (m x : Mask) (lat : Lat) : (s.writeP n m x lat).cur.epc = s.cur.epc := by unfold State.writeP; split <;> rfl
@[simp] theorem State.writeP_cur_fault (n : Nat) (m x : Mask) (lat : Lat) : (s.writeP n m x lat).cur.fault = s.cur.fault := by unfold State.writeP; split <;> rfl
@[simp] theorem State.writeP_cur_pendFaults (n : Nat) (m x : Mask) (lat : Lat) : (s.writeP n m x lat).cur.pendFaults = s.cur.pendFaults := by unfold State.writeP; split <;> rfl
@[simp] theorem State.writeP_cur_sb (n : Nat) (m x : Mask) (lat : Lat) : (s.writeP n m x lat).cur.sb = s.cur.sb := by unfold State.writeP; split <;> rfl
@[simp] theorem State.writeP_cur_ports (n : Nat) (m x : Mask) (lat : Lat) : (s.writeP n m x lat).cur.ports = s.cur.ports := by unfold State.writeP; split <;> rfl
@[simp] theorem State.writeP_cur_region (n : Nat) (m x : Mask) (lat : Lat) : (s.writeP n m x lat).cur.region = s.cur.region := by unfold State.writeP; split <;> rfl
@[simp] theorem State.writeP_cur_barRec (n : Nat) (m x : Mask) (lat : Lat) : (s.writeP n m x lat).cur.barRec = s.cur.barRec := by unfold State.writeP; split <;> rfl
@[simp] theorem State.writeP_cur_bargRec (n : Nat) (m x : Mask) (lat : Lat) : (s.writeP n m x lat).cur.bargRec = s.cur.bargRec := by unfold State.writeP; split <;> rfl
@[simp] theorem State.writeP_cur_hold (n : Nat) (m x : Mask) (lat : Lat) : (s.writeP n m x lat).cur.hold = s.cur.hold := by unfold State.writeP; split <;> rfl
@[simp] theorem State.writeP_cur_fence (n : Nat) (m x : Mask) (lat : Lat) : (s.writeP n m x lat).cur.fence = s.cur.fence := by unfold State.writeP; split <;> rfl
@[simp] theorem State.writeP_cur_waitCount (n : Nat) (m x : Mask) (lat : Lat) : (s.writeP n m x lat).cur.waitCount = s.cur.waitCount := by unfold State.writeP; split <;> rfl
@[simp] theorem State.writeP_cur_altCount (n : Nat) (m x : Mask) (lat : Lat) : (s.writeP n m x lat).cur.altCount = s.cur.altCount := by unfold State.writeP; split <;> rfl
@[simp] theorem State.writeP_cur_second (n : Nat) (m x : Mask) (lat : Lat) : (s.writeP n m x lat).cur.second = s.cur.second := by unfold State.writeP; split <;> rfl
@[simp] theorem State.writeP_cur_gives (n : Nat) (m x : Mask) (lat : Lat) : (s.writeP n m x lat).cur.gives = s.cur.gives := by unfold State.writeP; split <;> rfl
@[simp] theorem State.writeP_cur_last (n : Nat) (m x : Mask) (lat : Lat) : (s.writeP n m x lat).cur.last = s.cur.last := by unfold State.writeP; split <;> rfl
@[simp] theorem State.writeP_cur_arena (n : Nat) (m x : Mask) (lat : Lat) : (s.writeP n m x lat).cur.arena = s.cur.arena := by unfold State.writeP; split <;> rfl

end Sys2Proof.Machine
end

