-- ==== Sys2Proof/Laws/Exec.lean ====
section
/-! SUPPORT. What the shared operations of the meanings can do, said once: the frame `run`, reading register operands, writing results. -/
namespace Sys2Proof.Machine

/-! ## The frame of an instruction -/

theorem run_eq (i : Instr) (h : Hdr) (eff : State → Mask → Eff) (s : State) :
    run i h eff s = (match issueCause (s.checked i) i h with
    | some c => .next ((s.checked i).precise c 0)
    | none => match eff (s.opened i h) (lanesOn i h s) with
      | .ok t => .next (s.closed h t)
      | .trap c a => .next ((s.opened i h).stopAt c a)
      | .trapIn t c a => .next ((s.opened i h).popFault t c a)
      | .hold t => .next t
      | .moved t => .next (t.issued h s.ptBit s.cur.path.pid)) := rfl

theorem run_blocked (i : Instr) (h : Hdr) (eff : State → Mask → Eff) (s : State) (c : Nat) (hc : issueCause (s.checked i) i h = some c) :
    run i h eff s = .next ((s.checked i).precise c 0) := by
  rw [run_eq, hc]

/-- An instruction that passes its checks, and whose effect is done, goes on at the next slot. -/
theorem run_ok (i : Instr) (h : Hdr) (eff : State → Mask → Eff) (s t : State) (hc : issueCause (s.checked i) i h = none)
    (he : eff (s.opened i h) (lanesOn i h s) = .ok t) : run i h eff s = .next (s.closed h t) := by
  rw [run_eq, hc]; simp only [he]

/-- One whose effect places the path itself. -/
theorem run_moved (i : Instr) (h : Hdr) (eff : State → Mask → Eff) (s t : State) (hc : issueCause (s.checked i) i h = none)
    (he : eff (s.opened i h) (lanesOn i h s) = .moved t) : run i h eff s = .next (t.issued h s.ptBit s.cur.path.pid) := by
  rw [run_eq, hc]; simp only [he]

/-- One whose effect is a precise trap. -/
theorem run_trap (i : Instr) (h : Hdr) (eff : State → Mask → Eff) (s : State) (c : Nat) (a : DWord)
    (hc : issueCause (s.checked i) i h = none) (he : eff (s.opened i h) (lanesOn i h s) = .trap c a) :
    run i h eff s = .next ((s.opened i h).stopAt c a) := by
  rw [run_eq, hc]; simp only [he]

/-- One that is held at issue. -/
theorem run_hold (i : Instr) (h : Hdr) (eff : State → Mask → Eff) (s t : State) (hc : issueCause (s.checked i) i h = none)
    (he : eff (s.opened i h) (lanesOn i h s) = .hold t) : run i h eff s = .next t := by
  rw [run_eq, hc]; simp only [he]

theorem Warp.modPath_base (w : Warp) (f : Path → Path) : (w.modPath f).base = match w.stack with
    | [] => f w.base
    | _ => w.base := by unfold Warp.modPath; split <;> simp_all

theorem Warp.modPath_stack (w : Warp) (f : Path → Path) : (w.modPath f).stack = match w.stack with
    | [] => []
    | a :: r => (a :: r).modify (if w.issuing < (a :: r).length then w.issuing else 0) f := by
  unfold Warp.modPath; split <;> simp_all

theorem Warp.countSb_sb (w : Warp) (e : Nat) :
    (w.countSb e).sb = if e = 0 then w.sb else w.sb.setIfInBounds (e - 1) (w.sb.getD (e - 1) 0 + 1) := by
  unfold Warp.countSb; split <;> rfl

/-- Before the effect, only the record of uncertain results and the counter of free values have changed. -/
theorem opened_onlyPend (s : State) (i : Instr) (h : Hdr) : onlyPend { s with freeCtr := s.freeCtr + 1 } (s.opened i h) := by
  unfold onlyPend State.opened State.checked State.draw State.modCur Warp.waited
  split <;> rfl

@[simp] theorem opened_v (s : State) (i : Instr) (h : Hdr) : (s.opened i h).cur.v = s.cur.v := by rw [opened_onlyPend s i h]
@[simp] theorem opened_s (s : State) (i : Instr) (h : Hdr) : (s.opened i h).cur.s = s.cur.s := by rw [opened_onlyPend s i h]
@[simp] theorem opened_p (s : State) (i : Instr) (h : Hdr) : (s.opened i h).cur.p = s.cur.p := by rw [opened_onlyPend s i h]

/-- What closing leaves of the warp. -/
theorem closed_cur (s t : State) (h : Hdr) : (s.closed h t).cur =
    (((t.cur.countSb h.sb).countUp s.cur.path.pid (countOf s.ptBit h))).modPath (fun p => { p with pc := p.pc + 1 }) := rfl

@[simp] theorem closed_v (s t : State) (h : Hdr) : (s.closed h t).cur.v = t.cur.v := by simp [closed_cur]
@[simp] theorem closed_s (s t : State) (h : Hdr) : (s.closed h t).cur.s = t.cur.s := by simp [closed_cur]
@[simp] theorem closed_p (s t : State) (h : Hdr) : (s.closed h t).cur.p = t.cur.p := by simp [closed_cur]

/-- Closing over a state that differs from the opened one in registers and that record adds the issue's own marks. -/
theorem closed_regs (s t : State) (i : Instr) (h : Hdr)
    (ht : t = { s.opened i h with cur := { (s.opened i h).cur with v := t.cur.v, s := t.cur.s, p := t.cur.p, pend := t.cur.pend } }) :
    s.closed h t = { s.stepped h with cur := { (s.stepped h).cur with
      v := t.cur.v, s := t.cur.s, p := t.cur.p, pend := (s.closed h t).cur.pend } } := by
  have ho := opened_onlyPend s i h
  generalize s.opened i h = o at ht ho
  have hc := closed_cur s t h
  apply State.ext
  case cur =>
    have hw : t.cur = { s.cur with v := t.cur.v, s := t.cur.s, p := t.cur.p, pend := t.cur.pend } := by rw [ht, ho]
    rw [hc]
    generalize t.cur = w at hw
    apply Warp.ext <;> simp [State.stepped, State.modCur, State.advance, Warp.modPath_base, Warp.modPath_stack, Warp.countSb_sb]
    all_goals (rw [hw])
  all_goals (simp only [State.closed, State.stepped, State.issued_wg, State.issued_warps, State.issued_wgs, State.issued_sched,
    State.issued_mem, State.issued_eng, State.issued_fab, State.issued_host, State.issued_mgmt, State.issued_logs, State.issued_clk,
    State.issued_time, State.issued_agenda, State.issued_freeCtr, State.advance_wg, State.advance_warps, State.advance_wgs,
    State.advance_sched, State.advance_mem, State.advance_eng, State.advance_fab, State.advance_host, State.advance_mgmt,
    State.advance_logs, State.advance_clk, State.advance_time, State.advance_agenda, State.advance_freeCtr]; rw [ht, ho]; try rfl)

/-! ## Reading register operands -/

/-- Sources that are no ports are read, in their order, with no effect. -/
theorem pullFrom_regs (s : State) (act : Mask) (seen : List Nat) (srcs : List (Opd × Nat)) (h : ∀ x ∈ srcs, isReg x.1 = true) :
    pullFrom s act seen srcs = .ok { vals := srcs.map (fun x => s.readVec x.1 x.2), dead := 0, ends := [], s := s } := by
  induction srcs with
  | nil => rfl
  | cons x r ih =>
    have h1 := h x (by simp)
    have h2 := ih (fun y hy => h y (by simp [hy]))
    obtain ⟨o, n⟩ := x
    cases o <;> first | (simp [isReg] at h1; done) | (simp only [pullFrom, h2, List.map_cons])

theorem pull_regs (s : State) (act : Mask) (srcs : List (Opd × Nat)) (h : ∀ x ∈ srcs, isReg x.1 = true) :
    pull s act srcs = .ok { vals := srcs.map (fun x => s.readVec x.1 x.2), dead := 0, ends := [], s := s } :=
  pullFrom_regs s act [] srcs h

/-- A vector computation on registers: one result from the lane values of its sources. -/
theorem vecOp_regs (srcs : List (Opd × Nat)) (r n lat : Nat) (f : Nat → List DWord → DWord) (s : State) (act : Mask)
    (h : ∀ x ∈ srcs, isReg x.1 = true) :
    vecOp srcs (.v r) n lat f s act =
      s.putVec (.v r) n act (Vector.ofFn (fun l : Fin 128 => f l (srcs.map (fun x => (s.readVec x.1 x.2)[l])))) (s.fixed lat) := by
  have hm : act &&& ~~~(0 : Mask) = act := by
    rw [show ~~~(0 : Mask) = BitVec.allOnes 128 from rfl, BitVec.and_allOnes]
  simp only [vecOp, withSrcs, pull_regs s act srcs h, hm, State.putVec, List.map_map, State.writeEnds, List.foldl_nil]
  rfl

/-- A vector test on registers. -/
theorem vecTest_regs (srcs : List (Opd × Nat)) (pd lat : Nat) (f : Nat → List DWord → Bool) (s : State) (act : Mask)
    (h : ∀ x ∈ srcs, isReg x.1 = true) :
    vecTest srcs pd lat f s act =
      .ok (s.writeP pd act (maskOf (fun l => f l (srcs.map (fun x => (s.readVec x.1 x.2).getD l 0)))) (s.fixed lat)) := by
  have hm : act &&& ~~~(0 : Mask) = act := by
    rw [show ~~~(0 : Mask) = BitVec.allOnes 128 from rfl, BitVec.and_allOnes]
  simp only [vecTest, withSrcs, pull_regs s act srcs h, hm, List.map_map, State.writeEnds, List.foldl_nil]
  rfl

/-! ## Reading and writing registers -/

theorem certain_filter (s : State) (r : PReg) (h : certain s r) : s.cur.pend.filter (fun p => p.reg == r && p.uncertain) = [] := by
  rw [List.filter_eq_nil_iff]
  intro p hp
  by_cases hr : p.reg = r
  · simp [h p hp hr]
  · simp [hr]

/-- Where nothing earlier is uncertain in a register, a read returns what it holds. -/
theorem readV_certain (s : State) (n : Nat) (h : certain s (.v n)) : s.readV n = s.cur.v.getD n (Vector.replicate 128 0) := by
  unfold State.readV Warp.seen
  rw [certain_filter s _ h]; rfl

/-- A write of a vector register whose earlier results are certain puts the new values in the lanes of the mask. -/
theorem writeV_get (s : State) (n : Nat) (m : Mask) (x : VReg) (lat : Lat) (h : certain s (.v n)) (r : Fin 240) (l : Fin 128) :
    (s.writeV n m x lat).cur.v[r][l] = if m.getLsbD l ∧ (r : Nat) = n then x[l] else s.cur.v[r][l] := by
  have hf := certain_filter s _ h
  simp only [State.writeV, State.modCur, settleWrite, hf, List.any_nil, Bool.false_and]
  by_cases hr : (r : Nat) = n
  · subst hr
    have := r.isLt
    by_cases hm : m.getLsbD l <;> simp [hm, Fin.getElem_fin, Vector.getD]
  · have : ¬ n = (r : Nat) := fun e => hr e.symm
    simp [hr, this, Fin.getElem_fin]

end Sys2Proof.Machine
end

