-- ==== Sys2Proof/Laws/PerInstr.lean ====
section
/-! SUPPORT. Statements made per instruction: every well-formed instruction has a header, so that the checks and the issue rules of R79 to R98
apply to it; an event of the opcode table is no word of a program and is never well-formed. -/
namespace Sys2Proof.Laws.HasHeader
open Sys2Proof Sys2Proof.Machine

/-- A well-formed instruction has a header (R79). -/
def Statement (i : Instr) : Prop := wellFormed i = true → (hdrOf i).isSome = true

theorem nop (h : Hdr) : Statement (Instr.nop h) := fun _ => rfl
theorem mov (h : Hdr) (ty : Ty) (d : Opd) (a : Opd) : Statement (Instr.mov h ty d a) := fun _ => rfl
theorem movImm (h : Hdr) (ty : Ty) (d : Opd) (imm : BitVec 32) : Statement (Instr.movImm h ty d imm) := fun _ => rfl
theorem iadd (h : Hdr) (ty : Ty) (sat : Bool) (na : Bool) (nb : Bool) (d : Opd) (a : Opd) (b : Opd) : Statement (Instr.iadd h ty sat na nb d a b) := fun _ => rfl
theorem iaddImm (h : Hdr) (ty : Ty) (sat : Bool) (d : Opd) (a : Opd) (imm : BitVec 32) : Statement (Instr.iaddImm h ty sat d a imm) := fun _ => rfl
theorem isub (h : Hdr) (ty : Ty) (sat : Bool) (d : Opd) (a : Opd) (b : Opd) : Statement (Instr.isub h ty sat d a b) := fun _ => rfl
theorem isubImm (h : Hdr) (ty : Ty) (sat : Bool) (d : Opd) (a : Opd) (imm : BitVec 32) : Statement (Instr.isubImm h ty sat d a imm) := fun _ => rfl
theorem iaddc (h : Hdr) (ty : Ty) (ci : Nat) (pd : Nat) (d : Opd) (a : Opd) (b : Opd) : Statement (Instr.iaddc h ty ci pd d a b) := fun _ => rfl
theorem iaddcImm (h : Hdr) (ty : Ty) (ci : Nat) (pd : Nat) (d : Opd) (a : Opd) (imm : BitVec 32) : Statement (Instr.iaddcImm h ty ci pd d a imm) := fun _ => rfl
theorem imul (h : Hdr) (ty : Ty) (sat : Bool) (d : Opd) (a : Opd) (b : Opd) : Statement (Instr.imul h ty sat d a b) := fun _ => rfl
theorem imulImm (h : Hdr) (ty : Ty) (sat : Bool) (d : Opd) (a : Opd) (imm : BitVec 32) : Statement (Instr.imulImm h ty sat d a imm) := fun _ => rfl
theorem imulh (h : Hdr) (ty : Ty) (d : Opd) (a : Opd) (b : Opd) : Statement (Instr.imulh h ty d a b) := fun _ => rfl
theorem imulhImm (h : Hdr) (ty : Ty) (d : Opd) (a : Opd) (imm : BitVec 32) : Statement (Instr.imulhImm h ty d a imm) := fun _ => rfl
theorem imad (h : Hdr) (ty : Ty) (sat : Bool) (nc : Bool) (d : Opd) (a : Opd) (b : Opd) (c : Opd) : Statement (Instr.imad h ty sat nc d a b c) := fun _ => rfl
theorem imadImm (h : Hdr) (ty : Ty) (sat : Bool) (d : Opd) (a : Opd) (imm : BitVec 32) : Statement (Instr.imadImm h ty sat d a imm) := fun _ => rfl
theorem imadw (h : Hdr) (ty : Ty) (sat : Bool) (d : Opd) (a : Opd) (b : Opd) (c : Opd) : Statement (Instr.imadw h ty sat d a b c) := fun _ => rfl
theorem imadwImm (h : Hdr) (ty : Ty) (sat : Bool) (d : Opd) (a : Opd) (imm : BitVec 32) : Statement (Instr.imadwImm h ty sat d a imm) := fun _ => rfl
theorem imin (h : Hdr) (ty : Ty) (d : Opd) (a : Opd) (b : Opd) : Statement (Instr.imin h ty d a b) := fun _ => rfl
theorem iminImm (h : Hdr) (ty : Ty) (d : Opd) (a : Opd) (imm : BitVec 32) : Statement (Instr.iminImm h ty d a imm) := fun _ => rfl
theorem imax (h : Hdr) (ty : Ty) (d : Opd) (a : Opd) (b : Opd) : Statement (Instr.imax h ty d a b) := fun _ => rfl
theorem imaxImm (h : Hdr) (ty : Ty) (d : Opd) (a : Opd) (imm : BitVec 32) : Statement (Instr.imaxImm h ty d a imm) := fun _ => rfl
theorem iabs (h : Hdr) (ty : Ty) (sat : Bool) (d : Opd) (a : Opd) : Statement (Instr.iabs h ty sat d a) := fun _ => rfl
theorem iabsImm (h : Hdr) (ty : Ty) (sat : Bool) (d : Opd) (imm : BitVec 32) : Statement (Instr.iabsImm h ty sat d imm) := fun _ => rfl
theorem shl (h : Hdr) (ty : Ty) (sat : Bool) (d : Opd) (a : Opd) (b : Opd) : Statement (Instr.shl h ty sat d a b) := fun _ => rfl
theorem shlImm (h : Hdr) (ty : Ty) (sat : Bool) (d : Opd) (a : Opd) (imm : BitVec 32) : Statement (Instr.shlImm h ty sat d a imm) := fun _ => rfl
theorem shr (h : Hdr) (ty : Ty) (d : Opd) (a : Opd) (b : Opd) : Statement (Instr.shr h ty d a b) := fun _ => rfl
theorem shrImm (h : Hdr) (ty : Ty) (d : Opd) (a : Opd) (imm : BitVec 32) : Statement (Instr.shrImm h ty d a imm) := fun _ => rfl
theorem sar (h : Hdr) (ty : Ty) (d : Opd) (a : Opd) (b : Opd) : Statement (Instr.sar h ty d a b) := fun _ => rfl
theorem sarImm (h : Hdr) (ty : Ty) (d : Opd) (a : Opd) (imm : BitVec 32) : Statement (Instr.sarImm h ty d a imm) := fun _ => rfl
theorem and (h : Hdr) (ty : Ty) (na : Bool) (nb : Bool) (d : Opd) (a : Opd) (b : Opd) : Statement (Instr.and h ty na nb d a b) := fun _ => rfl
theorem andImm (h : Hdr) (ty : Ty) (d : Opd) (a : Opd) (imm : BitVec 32) : Statement (Instr.andImm h ty d a imm) := fun _ => rfl
theorem or (h : Hdr) (ty : Ty) (na : Bool) (nb : Bool) (d : Opd) (a : Opd) (b : Opd) : Statement (Instr.or h ty na nb d a b) := fun _ => rfl
theorem orImm (h : Hdr) (ty : Ty) (d : Opd) (a : Opd) (imm : BitVec 32) : Statement (Instr.orImm h ty d a imm) := fun _ => rfl
theorem xor (h : Hdr) (ty : Ty) (na : Bool) (nb : Bool) (d : Opd) (a : Opd) (b : Opd) : Statement (Instr.xor h ty na nb d a b) := fun _ => rfl
theorem xorImm (h : Hdr) (ty : Ty) (d : Opd) (a : Opd) (imm : BitVec 32) : Statement (Instr.xorImm h ty d a imm) := fun _ => rfl
theorem lut3 (h : Hdr) (ty : Ty) (lut : BitVec 8) (d : Opd) (a : Opd) (b : Opd) (c : Opd) : Statement (Instr.lut3 h ty lut d a b c) := fun _ => rfl
theorem lut3Imm (h : Hdr) (ty : Ty) (lutLo : BitVec 5) (lutHi : BitVec 3) (d : Opd) (a : Opd) (imm : BitVec 32) : Statement (Instr.lut3Imm h ty lutLo lutHi d a imm) := fun _ => rfl
theorem popc (h : Hdr) (ty : Ty) (d : Opd) (a : Opd) : Statement (Instr.popc h ty d a) := fun _ => rfl
theorem clz (h : Hdr) (ty : Ty) (d : Opd) (a : Opd) : Statement (Instr.clz h ty d a) := fun _ => rfl
theorem bfe (h : Hdr) (ty : Ty) (d : Opd) (a : Opd) (b : Opd) : Statement (Instr.bfe h ty d a b) := fun _ => rfl
theorem bfeImm (h : Hdr) (ty : Ty) (d : Opd) (a : Opd) (imm : BitVec 32) : Statement (Instr.bfeImm h ty d a imm) := fun _ => rfl
theorem bfi (h : Hdr) (ty : Ty) (d : Opd) (a : Opd) (b : Opd) (c : Opd) : Statement (Instr.bfi h ty d a b c) := fun _ => rfl
theorem bfiImm (h : Hdr) (ty : Ty) (d : Opd) (a : Opd) (imm : BitVec 32) : Statement (Instr.bfiImm h ty d a imm) := fun _ => rfl
theorem bpick (h : Hdr) (d : Opd) (a : Opd) (b : Opd) (c : Opd) : Statement (Instr.bpick h d a b c) := fun _ => rfl
theorem bpickImm (h : Hdr) (d : Opd) (a : Opd) (imm : BitVec 32) : Statement (Instr.bpickImm h d a imm) := fun _ => rfl
theorem sel (h : Hdr) (ty : Ty) (pr : Nat) (neg : Bool) (d : Opd) (a : Opd) (b : Opd) : Statement (Instr.sel h ty pr neg d a b) := fun _ => rfl
theorem selImm (h : Hdr) (ty : Ty) (pr : Nat) (neg : Bool) (d : Opd) (a : Opd) (imm : BitVec 32) : Statement (Instr.selImm h ty pr neg d a imm) := fun _ => rfl
theorem icmp (h : Hdr) (ty : Ty) (cmp : Cmp) (pd : Nat) (a : Opd) (b : Opd) : Statement (Instr.icmp h ty cmp pd a b) := fun _ => rfl
theorem icmpImm (h : Hdr) (ty : Ty) (cmp : Cmp) (pd : Nat) (a : Opd) (imm : BitVec 32) : Statement (Instr.icmpImm h ty cmp pd a imm) := fun _ => rfl
theorem lea (h : Hdr) (ty : Ty) (sh : Nat) (d : Opd) (a : Opd) (b : Opd) : Statement (Instr.lea h ty sh d a b) := fun _ => rfl
theorem leaImm (h : Hdr) (ty : Ty) (sh : Nat) (d : Opd) (a : Opd) (imm : BitVec 32) : Statement (Instr.leaImm h ty sh d a imm) := fun _ => rfl
theorem idot4 (h : Hdr) (ty : Ty) (sat : Bool) (sgA : Bool) (sgB : Bool) (d : Opd) (a : Opd) (b : Opd) (c : Opd) : Statement (Instr.idot4 h ty sat sgA sgB d a b c) := fun _ => rfl
theorem umov (h : Hdr) (ty : Ty) (d : Opd) (a : Opd) : Statement (Instr.umov h ty d a) := fun _ => rfl
theorem umovImm (h : Hdr) (ty : Ty) (d : Opd) (imm : BitVec 32) : Statement (Instr.umovImm h ty d imm) := fun _ => rfl
theorem uadd (h : Hdr) (ty : Ty) (sat : Bool) (na : Bool) (nb : Bool) (d : Opd) (a : Opd) (b : Opd) : Statement (Instr.uadd h ty sat na nb d a b) := fun _ => rfl
theorem uaddImm (h : Hdr) (ty : Ty) (sat : Bool) (d : Opd) (a : Opd) (imm : BitVec 32) : Statement (Instr.uaddImm h ty sat d a imm) := fun _ => rfl
theorem usub (h : Hdr) (ty : Ty) (sat : Bool) (d : Opd) (a : Opd) (b : Opd) : Statement (Instr.usub h ty sat d a b) := fun _ => rfl
theorem usubImm (h : Hdr) (ty : Ty) (sat : Bool) (d : Opd) (a : Opd) (imm : BitVec 32) : Statement (Instr.usubImm h ty sat d a imm) := fun _ => rfl
theorem umul (h : Hdr) (ty : Ty) (sat : Bool) (d : Opd) (a : Opd) (b : Opd) : Statement (Instr.umul h ty sat d a b) := fun _ => rfl
theorem umulImm (h : Hdr) (ty : Ty) (sat : Bool) (d : Opd) (a : Opd) (imm : BitVec 32) : Statement (Instr.umulImm h ty sat d a imm) := fun _ => rfl
theorem umad (h : Hdr) (ty : Ty) (sat : Bool) (nc : Bool) (d : Opd) (a : Opd) (b : Opd) (c : Opd) : Statement (Instr.umad h ty sat nc d a b c) := fun _ => rfl
theorem umadImm (h : Hdr) (ty : Ty) (sat : Bool) (d : Opd) (a : Opd) (imm : BitVec 32) : Statement (Instr.umadImm h ty sat d a imm) := fun _ => rfl
theorem umin (h : Hdr) (ty : Ty) (d : Opd) (a : Opd) (b : Opd) : Statement (Instr.umin h ty d a b) := fun _ => rfl
theorem uminImm (h : Hdr) (ty : Ty) (d : Opd) (a : Opd) (imm : BitVec 32) : Statement (Instr.uminImm h ty d a imm) := fun _ => rfl
theorem umax (h : Hdr) (ty : Ty) (d : Opd) (a : Opd) (b : Opd) : Statement (Instr.umax h ty d a b) := fun _ => rfl
theorem umaxImm (h : Hdr) (ty : Ty) (d : Opd) (a : Opd) (imm : BitVec 32) : Statement (Instr.umaxImm h ty d a imm) := fun _ => rfl
theorem ushl (h : Hdr) (ty : Ty) (sat : Bool) (d : Opd) (a : Opd) (b : Opd) : Statement (Instr.ushl h ty sat d a b) := fun _ => rfl
theorem ushlImm (h : Hdr) (ty : Ty) (sat : Bool) (d : Opd) (a : Opd) (imm : BitVec 32) : Statement (Instr.ushlImm h ty sat d a imm) := fun _ => rfl
theorem ushr (h : Hdr) (ty : Ty) (d : Opd) (a : Opd) (b : Opd) : Statement (Instr.ushr h ty d a b) := fun _ => rfl
theorem ushrImm (h : Hdr) (ty : Ty) (d : Opd) (a : Opd) (imm : BitVec 32) : Statement (Instr.ushrImm h ty d a imm) := fun _ => rfl
theorem usar (h : Hdr) (ty : Ty) (d : Opd) (a : Opd) (b : Opd) : Statement (Instr.usar h ty d a b) := fun _ => rfl
theorem usarImm (h : Hdr) (ty : Ty) (d : Opd) (a : Opd) (imm : BitVec 32) : Statement (Instr.usarImm h ty d a imm) := fun _ => rfl
theorem uand (h : Hdr) (ty : Ty) (na : Bool) (nb : Bool) (d : Opd) (a : Opd) (b : Opd) : Statement (Instr.uand h ty na nb d a b) := fun _ => rfl
theorem uandImm (h : Hdr) (ty : Ty) (d : Opd) (a : Opd) (imm : BitVec 32) : Statement (Instr.uandImm h ty d a imm) := fun _ => rfl
theorem uor (h : Hdr) (ty : Ty) (na : Bool) (nb : Bool) (d : Opd) (a : Opd) (b : Opd) : Statement (Instr.uor h ty na nb d a b) := fun _ => rfl
theorem uorImm (h : Hdr) (ty : Ty) (d : Opd) (a : Opd) (imm : BitVec 32) : Statement (Instr.uorImm h ty d a imm) := fun _ => rfl
theorem uxor (h : Hdr) (ty : Ty) (na : Bool) (nb : Bool) (d : Opd) (a : Opd) (b : Opd) : Statement (Instr.uxor h ty na nb d a b) := fun _ => rfl
theorem uxorImm (h : Hdr) (ty : Ty) (d : Opd) (a : Opd) (imm : BitVec 32) : Statement (Instr.uxorImm h ty d a imm) := fun _ => rfl
theorem ucmp (h : Hdr) (ty : Ty) (cmp : Cmp) (pd : Nat) (a : Opd) (b : Opd) : Statement (Instr.ucmp h ty cmp pd a b) := fun _ => rfl
theorem ucmpImm (h : Hdr) (ty : Ty) (cmp : Cmp) (pd : Nat) (a : Opd) (imm : BitVec 32) : Statement (Instr.ucmpImm h ty cmp pd a imm) := fun _ => rfl
theorem ulea (h : Hdr) (ty : Ty) (sh : Nat) (d : Opd) (a : Opd) (b : Opd) : Statement (Instr.ulea h ty sh d a b) := fun _ => rfl
theorem uleaImm (h : Hdr) (ty : Ty) (sh : Nat) (d : Opd) (a : Opd) (imm : BitVec 32) : Statement (Instr.uleaImm h ty sh d a imm) := fun _ => rfl
theorem plut3 (h : Hdr) (lut : BitVec 8) (na : Bool) (nb : Bool) (nc : Bool) (pd : Nat) (pa : Nat) (pb : Nat) (pc : Nat) : Statement (Instr.plut3 h lut na nb nc pd pa pb pc) := fun _ => rfl
theorem pmovTov (h : Hdr) (na : Bool) (d : Opd) (pa : Nat) : Statement (Instr.pmovTov h na d pa) := fun _ => rfl
theorem pmovFromv (h : Hdr) (pd : Nat) (a : Opd) : Statement (Instr.pmovFromv h pd a) := fun _ => rfl
theorem pmovSave (h : Hdr) (d : Opd) : Statement (Instr.pmovSave h d) := fun _ => rfl
theorem pmovLoad (h : Hdr) (a : Opd) : Statement (Instr.pmovLoad h a) := fun _ => rfl
theorem vote (h : Hdr) (mode : VoteMode) (na : Bool) (pd : Nat) (pa : Nat) : Statement (Instr.vote h mode na pd pa) := fun _ => rfl
theorem ballot (h : Hdr) (na : Bool) (d : Opd) (pa : Nat) : Statement (Instr.ballot h na d pa) := fun _ => rfl
theorem lget (h : Hdr) (mode : LgetMode) (g : Nat) (ty : Ty) (pd : Nat) (d : Opd) (a : Opd) (b : Opd) : Statement (Instr.lget h mode g ty pd d a b) := fun _ => rfl
theorem pswap (h : Hdr) (ln : Nat) (neglo : Bool) (ty : Ty) (d : Opd) (a : Opd) : Statement (Instr.pswap h ln neglo ty d a) := fun _ => rfl
theorem matchv (h : Hdr) (ty : Ty) (pd : Nat) (d : Opd) (a : Opd) : Statement (Instr.matchv h ty pd d a) := fun _ => rfl
theorem lred (h : Hdr) (op : RedOp) (rm : Rm) (ty : Ty) (d : Opd) (a : Opd) : Statement (Instr.lred h op rm ty d a) := fun _ => rfl
theorem scan (h : Hdr) (op : RedOp) (excl : Bool) (rm : Rm) (ty : Ty) (d : Opd) (a : Opd) : Statement (Instr.scan h op excl rm ty d a) := fun _ => rfl
theorem readl (h : Hdr) (ty : Ty) (d : Opd) (a : Opd) (b : Opd) : Statement (Instr.readl h ty d a b) := fun _ => rfl
theorem readlFirst (h : Hdr) (ty : Ty) (d : Opd) (a : Opd) : Statement (Instr.readlFirst h ty d a) := fun _ => rfl
theorem fadd (h : Hdr) (ty : Ty) (rm : Rm) (sat : Bool) (na : Bool) (nb : Bool) (d : Opd) (a : Opd) (b : Opd) : Statement (Instr.fadd h ty rm sat na nb d a b) := fun _ => rfl
theorem faddImm (h : Hdr) (ty : Ty) (rm : Rm) (sat : Bool) (d : Opd) (a : Opd) (imm : BitVec 32) : Statement (Instr.faddImm h ty rm sat d a imm) := fun _ => rfl
theorem fmul (h : Hdr) (ty : Ty) (rm : Rm) (sat : Bool) (na : Bool) (nb : Bool) (d : Opd) (a : Opd) (b : Opd) : Statement (Instr.fmul h ty rm sat na nb d a b) := fun _ => rfl
theorem fmulImm (h : Hdr) (ty : Ty) (rm : Rm) (sat : Bool) (d : Opd) (a : Opd) (imm : BitVec 32) : Statement (Instr.fmulImm h ty rm sat d a imm) := fun _ => rfl
theorem ffma (h : Hdr) (ty : Ty) (rm : Rm) (sat : Bool) (na : Bool) (nb : Bool) (nc : Bool) (d : Opd) (a : Opd) (b : Opd) (c : Opd) : Statement (Instr.ffma h ty rm sat na nb nc d a b c) := fun _ => rfl
theorem ffmaImm (h : Hdr) (ty : Ty) (rm : Rm) (sat : Bool) (d : Opd) (a : Opd) (imm : BitVec 32) : Statement (Instr.ffmaImm h ty rm sat d a imm) := fun _ => rfl
theorem fmin (h : Hdr) (ty : Ty) (na : Bool) (nb : Bool) (d : Opd) (a : Opd) (b : Opd) : Statement (Instr.fmin h ty na nb d a b) := fun _ => rfl
theorem fminImm (h : Hdr) (ty : Ty) (d : Opd) (a : Opd) (imm : BitVec 32) : Statement (Instr.fminImm h ty d a imm) := fun _ => rfl
theorem fmax (h : Hdr) (ty : Ty) (na : Bool) (nb : Bool) (d : Opd) (a : Opd) (b : Opd) : Statement (Instr.fmax h ty na nb d a b) := fun _ => rfl
theorem fmaxImm (h : Hdr) (ty : Ty) (d : Opd) (a : Opd) (imm : BitVec 32) : Statement (Instr.fmaxImm h ty d a imm) := fun _ => rfl
theorem fcmp (h : Hdr) (ty : Ty) (cmp : FCmp) (na : Bool) (nb : Bool) (pd : Nat) (a : Opd) (b : Opd) : Statement (Instr.fcmp h ty cmp na nb pd a b) := fun _ => rfl
theorem fcmpImm (h : Hdr) (ty : Ty) (cmp : FCmp) (pd : Nat) (a : Opd) (imm : BitVec 32) : Statement (Instr.fcmpImm h ty cmp pd a imm) := fun _ => rfl
theorem fclass (h : Hdr) (ty : Ty) (d : Opd) (a : Opd) : Statement (Instr.fclass h ty d a) := fun _ => rfl
theorem fclassTest (h : Hdr) (ty : Ty) (pd : Nat) (a : Opd) (b : Opd) : Statement (Instr.fclassTest h ty pd a b) := fun _ => rfl
theorem frnd (h : Hdr) (ty : Ty) (rm : Rm) (d : Opd) (a : Opd) : Statement (Instr.frnd h ty rm d a) := fun _ => rfl
theorem ffrac (h : Hdr) (ty : Ty) (d : Opd) (a : Opd) : Statement (Instr.ffrac h ty d a) := fun _ => rfl
theorem fscale (h : Hdr) (ty : Ty) (rm : Rm) (sat : Bool) (d : Opd) (a : Opd) (b : Opd) : Statement (Instr.fscale h ty rm sat d a b) := fun _ => rfl
theorem cvt (h : Hdr) (ty : Ty) (sel : Nat) (sk : Nat) (rm : Rm) (sat : Bool) (d : Opd) (a : Opd) : Statement (Instr.cvt h ty sel sk rm sat d a) := fun _ => rfl
theorem cvtq (h : Hdr) (tk : QTarget) (sk : Ty) (rm : Rm) (sat : Bool) (d : Opd) (a : Opd) (b : Opd) (c : Opd) : Statement (Instr.cvtq h tk sk rm sat d a b c) := fun _ => rfl
theorem dq (h : Hdr) (ty : Ty) (kind : QTarget) (rm : Rm) (sat : Bool) (d : Opd) (a : Opd) (b : Opd) (c : Opd) : Statement (Instr.dq h ty kind rm sat d a b c) := fun _ => rfl
theorem rcp (h : Hdr) (ty : Ty) (na : Bool) (d : Opd) (a : Opd) : Statement (Instr.rcp h ty na d a) := fun _ => rfl
theorem rsq (h : Hdr) (ty : Ty) (na : Bool) (d : Opd) (a : Opd) : Statement (Instr.rsq h ty na d a) := fun _ => rfl
theorem sqrt (h : Hdr) (ty : Ty) (rm : Rm) (na : Bool) (d : Opd) (a : Opd) : Statement (Instr.sqrt h ty rm na d a) := fun _ => rfl
theorem exp2 (h : Hdr) (ty : Ty) (na : Bool) (d : Opd) (a : Opd) : Statement (Instr.exp2 h ty na d a) := fun _ => rfl
theorem log2 (h : Hdr) (ty : Ty) (na : Bool) (d : Opd) (a : Opd) : Statement (Instr.log2 h ty na d a) := fun _ => rfl
theorem sinr (h : Hdr) (ty : Ty) (na : Bool) (d : Opd) (a : Opd) : Statement (Instr.sinr h ty na d a) := fun _ => rfl
theorem cosr (h : Hdr) (ty : Ty) (na : Bool) (d : Opd) (a : Opd) : Statement (Instr.cosr h ty na d a) := fun _ => rfl
theorem bra (h : Hdr) (u : Bool) (pr : Nat) (pnb : Bool) (disp : BitVec 24) (rcv : BitVec 16) : Statement (Instr.bra h u pr pnb disp rcv) := fun _ => rfl
theorem brx (h : Hdr) (u : Bool) (vv : Bool) (pr : Nat) (pnb : Bool) (a : Opd) (rcv : BitVec 16) : Statement (Instr.brx h u vv pr pnb a rcv) := fun _ => rfl
theorem call (h : Hdr) (disp : BitVec 24) : Statement (Instr.call h disp) := fun _ => rfl
theorem callInd (h : Hdr) (a : Opd) : Statement (Instr.callInd h a) := fun _ => rfl
theorem ret (h : Hdr) (pr : Nat) (pnb : Bool) : Statement (Instr.ret h pr pnb) := fun _ => rfl
theorem exit (h : Hdr) : Statement (Instr.exit h) := fun _ => rfl
theorem breakp (h : Hdr) (pr : Nat) (pnb : Bool) (disp : BitVec 24) : Statement (Instr.breakp h pr pnb disp) := fun _ => rfl
theorem movemRd (h : Hdr) (d : Opd) : Statement (Instr.movemRd h d) := fun _ => rfl
theorem movemWr (h : Hdr) (a : Opd) : Statement (Instr.movemWr h a) := fun _ => rfl
theorem bar (h : Hdr) (mode : BarMode) (sc : Scope) (id : Nat) (n : Nat) : Statement (Instr.bar h mode sc id n) := fun _ => rfl
theorem barg (h : Hdr) (mode : BarMode) (sc : Scope) (id : Nat) : Statement (Instr.barg h mode sc id) := fun _ => rfl
theorem launch (h : Hdr) (pr : Nat) (a : Opd) (b : Opd) : Statement (Instr.launch h pr a b) := fun _ => rfl
theorem cancel (h : Hdr) (lv : Level) : Statement (Instr.cancel h lv) := fun _ => rfl
theorem cancelId (h : Hdr) (lv : Level) (a : Opd) : Statement (Instr.cancelId h lv a) := fun _ => rfl
theorem yieldw (h : Hdr) : Statement (Instr.yieldw h) := fun _ => rfl
theorem sleep (h : Hdr) (n : BitVec 24) : Statement (Instr.sleep h n) := fun _ => rfl
theorem sleepWatch (h : Hdr) (a : Opd) (n : BitVec 24) : Statement (Instr.sleepWatch h a n) := fun _ => rfl
theorem syscall (h : Hdr) (d : Opd) (a : Opd) (n : BitVec 16) : Statement (Instr.syscall h d a n) := fun _ => rfl
theorem trap (h : Hdr) (n : Nat) : Statement (Instr.trap h n) := fun _ => rfl
theorem rett (h : Hdr) : Statement (Instr.rett h) := fun _ => rfl
theorem idend (h : Hdr) : Statement (Instr.idend h) := fun _ => rfl
theorem time (h : Hdr) (src : TimeSrc) (d : Opd) : Statement (Instr.time h src d) := fun _ => rfl
theorem movsr (h : Hdr) (idx : Nat) (d : Opd) : Statement (Instr.movsr h idx d) := fun _ => rfl
theorem setsr (h : Hdr) (idx : Nat) (a : Opd) : Statement (Instr.setsr h idx a) := fun _ => rfl
theorem ld (h : Hdr) (sp : Space) (sz : Size) (sc : Scope) (hint : Nat) (fe : Bool) (off : BitVec 20) (d : Opd) (a : Opd) : Statement (Instr.ld h sp sz sc hint fe off d a) := fun _ => rfl
theorem st (h : Hdr) (sp : Space) (sz : Size) (hint : Nat) (fe : Bool) (off : BitVec 20) (a : Opd) (b : Opd) : Statement (Instr.st h sp sz hint fe off a b) := fun _ => rfl
theorem ldu (h : Hdr) (sp : Space) (sz : Size) (sc : Scope) (hint : Nat) (off : BitVec 20) (d : Opd) (a : Opd) : Statement (Instr.ldu h sp sz sc hint off d a) := fun _ => rfl
theorem atom (h : Hdr) (op : Aop) (sp : Space) (sz : Size) (sc : Scope) (off : BitVec 20) (d : Opd) (a : Opd) (b : Opd) : Statement (Instr.atom h op sp sz sc off d a b) := fun _ => rfl
theorem cas (h : Hdr) (sp : Space) (sz : Size) (sc : Scope) (off : BitVec 20) (d : Opd) (a : Opd) (b : Opd) : Statement (Instr.cas h sp sz sc off d a b) := fun _ => rfl
theorem red (h : Hdr) (op : Aop) (sp : Space) (sz : Size) (sc : Scope) (off : BitVec 20) (a : Opd) (b : Opd) : Statement (Instr.red h op sp sz sc off a b) := fun _ => rfl
theorem fence (h : Hdr) (mode : FenceMode) (sc : Scope) : Statement (Instr.fence h mode sc) := fun _ => rfl
theorem pref (h : Hdr) (sp : Space) (hint : Nat) (l1 : Bool) (off : BitVec 20) (a : Opd) : Statement (Instr.pref h sp hint l1 off a) := fun _ => rfl
theorem cflush (h : Hdr) (sp : Space) (off : BitVec 20) (a : Opd) : Statement (Instr.cflush h sp off a) := fun _ => rfl
theorem cinv (h : Hdr) (sp : Space) (sc : Scope) (off : BitVec 20) (a : Opd) : Statement (Instr.cinv h sp sc off a) := fun _ => rfl
theorem space (h : Hdr) (d : Opd) (a : Opd) : Statement (Instr.space h d a) := fun _ => rfl
theorem cvta (h : Hdr) (from_ : Bool) (sp : Space) (d : Opd) (a : Opd) : Statement (Instr.cvta h from_ sp d a) := fun _ => rfl
theorem gwin (h : Hdr) (d : Opd) (a : Opd) (b : Opd) : Statement (Instr.gwin h d a b) := fun _ => rfl
theorem gwinSelf (h : Hdr) (d : Opd) (b : Opd) : Statement (Instr.gwinSelf h d b) := fun _ => rfl
theorem spfe (h : Hdr) (mode : SpfeMode) (n : Nat) (d : Opd) (a : Opd) : Statement (Instr.spfe h mode n d a) := fun _ => rfl
theorem hflush (h : Hdr) (sp : Space) (off : BitVec 20) (a : Opd) : Statement (Instr.hflush h sp off a) := fun _ => rfl
theorem ownreq (h : Hdr) (proc : Bool) (k : Nat) (a : Opd) : Statement (Instr.ownreq h proc k a) := fun _ => rfl
theorem frz (h : Hdr) (sc : Scope) (k : Nat) (d : Opd) (a : Opd) (b : Opd) : Statement (Instr.frz h sc k d a b) := fun _ => rfl
theorem thaw (h : Hdr) (k : Nat) (a : Opd) : Statement (Instr.thaw h k a) := fun _ => rfl
theorem frzq (h : Hdr) (d : Opd) (a : Opd) : Statement (Instr.frzq h d a) := fun _ => rfl
theorem rbegin (h : Hdr) (d : Opd) (a : Opd) : Statement (Instr.rbegin h d a) := fun _ => rfl
theorem rcommit (h : Hdr) : Statement (Instr.rcommit h) := fun _ => rfl
theorem strbIn (h : Hdr) (port : Nat) (packed : Bool) (hint : Nat) (e : Nat) (a : Opd) (b : Opd) : Statement (Instr.strbIn h port packed hint e a b) := fun _ => rfl
theorem strbOut (h : Hdr) (port : Nat) (packed : Bool) (k : Nat) (hint : Nat) (a : Opd) (b : Opd) : Statement (Instr.strbOut h port packed k hint a b) := fun _ => rfl
theorem strbQin (h : Hdr) (port : Nat) (w64 : Bool) (e : Nat) (pw : Nat) (pp : Nat) : Statement (Instr.strbQin h port w64 e pw pp) := fun _ => rfl
theorem strbQout (h : Hdr) (port : Nat) (w64 : Bool) (pw : Nat) (pp : Nat) : Statement (Instr.strbQout h port w64 pw pp) := fun _ => rfl
theorem strstat (h : Hdr) (port : Nat) (d : Opd) : Statement (Instr.strstat h port d) := fun _ => rfl
theorem strflush (h : Hdr) (port : Nat) : Statement (Instr.strflush h port) := fun _ => rfl
theorem strclose (h : Hdr) (port : Nat) : Statement (Instr.strclose h port) := fun _ => rfl
theorem copy (h : Hdr) (scatter : Bool) (sg : Sg) (hint : Nat) (k : Nat) (d : Opd) (a : Opd) (b : Opd) : Statement (Instr.copy h scatter sg hint k d a b) := fun _ => rfl
theorem copyg (h : Hdr) (sg : Sg) (hint : Nat) (k : Nat) (d : Opd) (a : Opd) (b : Opd) : Statement (Instr.copyg h sg hint k d a b) := fun _ => rfl
theorem copygSlot (h : Hdr) (slot : Nat) (side : Bool) (sg : Sg) (hint : Nat) (k : Nat) (off : Nat) (a : Opd) (b : Opd) : Statement (Instr.copygSlot h slot side sg hint k off a b) := fun _ => rfl
theorem copym (h : Hdr) (slot : Nat) (side : Bool) (fol : Bool) (sg : Sg) (hint : Nat) (k : Nat) (off : Nat) (a : Opd) (b : Opd) : Statement (Instr.copym h slot side fol sg hint k off a b) := fun _ => rfl
theorem waitk (h : Hdr) (mask : BitVec 16) : Statement (Instr.waitk h mask) := fun _ => rfl
theorem kadd (h : Hdr) (k : Nat) (a : Opd) : Statement (Instr.kadd h k a) := fun _ => rfl
theorem kaddImm (h : Hdr) (k : Nat) (imm : BitVec 20) : Statement (Instr.kaddImm h k imm) := fun _ => rfl
theorem rowcpy (h : Hdr) (k : Nat) (d : Opd) (a : Opd) (c : Opd) : Statement (Instr.rowcpy h k d a c) := fun _ => rfl
theorem rowzero (h : Hdr) (k : Nat) (d : Opd) (c : Opd) : Statement (Instr.rowzero h k d c) := fun _ => rfl
theorem rank (h : Hdr) (kind : RankKind) (n : Nat) (k : Nat) (d : Opd) (a : Opd) (b : Opd) : Statement (Instr.rank h kind n k d a b) := fun _ => rfl
theorem route (h : Hdr) (pd : Nat) (d : Opd) (a : Opd) (b : Opd) (c : Opd) : Statement (Instr.route h pd d a b c) := fun _ => rfl
theorem tgen (h : Hdr) (t : Nat) (k : Nat) (d : Opd) (a : Opd) (b : Opd) (c : Opd) : Statement (Instr.tgen h t k d a b c) := fun _ => rfl
theorem claimo (h : Hdr) (o : Nat) (n1 : Nat) : Statement (Instr.claimo h o n1) := fun _ => rfl
theorem relo (h : Hdr) (o : Nat) (n1 : Nat) : Statement (Instr.relo h o n1) := fun _ => rfl
theorem claima (h : Hdr) (t : Nat) (n1 : Nat) : Statement (Instr.claima h t n1) := fun _ => rfl
theorem rela (h : Hdr) (t : Nat) (n1 : Nat) : Statement (Instr.rela h t n1) := fun _ => rfl
theorem mma (h : Hdr) (z : Bool) (hk : Bool) (sg : Sg) (fs : Nat) (t : Nat) (oa : Nat) (ob : Nat) (k : Nat) : Statement (Instr.mma h z hk sg fs t oa ob k) := fun _ => rfl
theorem mmas (h : Hdr) (z : Bool) (hk : Bool) (sg : Sg) (fs : Nat) (t : Nat) (oa : Nat) (ob : Nat) (om : Nat) (k : Nat) : Statement (Instr.mmas h z hk sg fs t oa ob om k) := fun _ => rfl
theorem accz (h : Hdr) (t : Nat) : Statement (Instr.accz h t) := fun _ => rfl
theorem accld (h : Hdr) (t : Nat) (k : Nat) (d : Opd) (a : Opd) : Statement (Instr.accld h t k d a) := fun _ => rfl
theorem accst (h : Hdr) (t : Nat) (k : Nat) (d : Opd) (a : Opd) : Statement (Instr.accst h t k d a) := fun _ => rfl
theorem accred (h : Hdr) (ord : Bool) (i32 : Bool) (t : Nat) (k : Nat) (d : Opd) (a : Opd) : Statement (Instr.accred h ord i32 t k d a) := fun _ => rfl
theorem accrd (h : Hdr) (t : Nat) (n1 : Nat) (d : Opd) (a : Opd) : Statement (Instr.accrd h t n1 d a) := fun _ => rfl
theorem slotwr (h : Hdr) (side : Bool) (o : Nat) (d : Opd) (a : Opd) : Statement (Instr.slotwr h side o d a) := fun _ => rfl
theorem slotrd (h : Hdr) (side : Bool) (o : Nat) (d : Opd) (a : Opd) : Statement (Instr.slotrd h side o d a) := fun _ => rfl
theorem quadrantIssue (core : Nat) (quad : Nat) : Statement (Instr.quadrantIssue core quad) := fun h => Bool.noConfusion h
theorem fixedLatencyWriteback (core : Nat) (slot : Nat) (n : Nat) : Statement (Instr.fixedLatencyWriteback core slot n) := fun h => Bool.noConfusion h
theorem variableResultDone (core : Nat) (slot : Nat) (e : Nat) : Statement (Instr.variableResultDone core slot e) := fun h => Bool.noConfusion h
theorem sleepWake (core : Nat) (slot : Nat) : Statement (Instr.sleepWake core slot) := fun h => Bool.noConfusion h
theorem yieldExpire (core : Nat) (slot : Nat) : Statement (Instr.yieldExpire core slot) := fun h => Bool.noConfusion h
theorem warpSlotFree (core : Nat) (slot : Nat) : Statement (Instr.warpSlotFree core slot) := fun h => Bool.noConfusion h
theorem trapEntry (core : Nat) (slot : Nat) (path : Nat) (cause : Nat) (fault : DWord) : Statement (Instr.trapEntry core slot path cause fault) := fun h => Bool.noConfusion h
theorem impreciseFaultTaken (core : Nat) (slot : Nat) : Statement (Instr.impreciseFaultTaken core slot) := fun h => Bool.noConfusion h
theorem pendingFaultTimeout (core : Nat) (slot : Nat) (n : Nat) : Statement (Instr.pendingFaultTimeout core slot n) := fun h => Bool.noConfusion h
theorem remoteRollback (core : Nat) (slot : Nat) : Statement (Instr.remoteRollback core slot) := fun h => Bool.noConfusion h
theorem pageWalk (part : Nat) (va : DWord) : Statement (Instr.pageWalk part va) := fun h => Bool.noConfusion h
theorem engineWriteLands (id : Nat) (blk : Nat) : Statement (Instr.engineWriteLands id blk) := fun h => Bool.noConfusion h
theorem copyBlockFetch (id : Nat) (blk : Nat) : Statement (Instr.copyBlockFetch id blk) := fun h => Bool.noConfusion h
theorem copyLateFault (id : Nat) (blk : Nat) : Statement (Instr.copyLateFault id blk) := fun h => Bool.noConfusion h
theorem followOnHandoff (id : Nat) : Statement (Instr.followOnHandoff id) := fun h => Bool.noConfusion h
theorem rowBlockWritten (id : Nat) (blk : Nat) : Statement (Instr.rowBlockWritten id blk) := fun h => Bool.noConfusion h
theorem rowSourceWriteback (id : Nat) : Statement (Instr.rowSourceWriteback id) := fun h => Bool.noConfusion h
theorem rankRowWritten (id : Nat) (row : Nat) : Statement (Instr.rankRowWritten id row) := fun h => Bool.noConfusion h
theorem tgenDone (id : Nat) : Statement (Instr.tgenDone id) := fun h => Bool.noConfusion h
theorem anvilOpStart (core : Nat) (kind : AnvilKind) : Statement (Instr.anvilOpStart core kind) := fun h => Bool.noConfusion h
theorem anvilOpComplete (id : Nat) : Statement (Instr.anvilOpComplete id) := fun h => Bool.noConfusion h
theorem accredContributionArrive (id : Nat) (piece : Nat) : Statement (Instr.accredContributionArrive id piece) := fun h => Bool.noConfusion h
theorem accredRoomFreed (id : Nat) (piece : Nat) : Statement (Instr.accredRoomFreed id piece) := fun h => Bool.noConfusion h
theorem tongsPrefetch (core : Nat) (slot : Nat) (port : Nat) (pos : Nat) : Statement (Instr.tongsPrefetch core slot port pos) := fun h => Bool.noConfusion h
theorem streamBeatWrite (id : Nat) : Statement (Instr.streamBeatWrite id) := fun h => Bool.noConfusion h
theorem queueBeatSend (core : Nat) (slot : Nat) (port : Nat) : Statement (Instr.queueBeatSend core slot port) := fun h => Bool.noConfusion h
theorem freezeInstall (e : Nat) : Statement (Instr.freezeInstall e) := fun h => Bool.noConfusion h
theorem generationRetirement (home : Nat) (e : Nat) (gen : Nat) (sc : Scope) : Statement (Instr.generationRetirement home e gen sc) := fun h => Bool.noConfusion h
theorem retirementAck (e : Nat) (rank : Nat) : Statement (Instr.retirementAck e rank) := fun h => Bool.noConfusion h
theorem thawOverdue (e : Nat) : Statement (Instr.thawOverdue e) := fun h => Bool.noConfusion h
theorem launchQueueFront (q : Nat) : Statement (Instr.launchQueueFront q) := fun h => Bool.noConfusion h
theorem launchDispatch : Statement (Instr.launchDispatch) := fun h => Bool.noConfusion h
theorem dispatchReservation (q : Nat) : Statement (Instr.dispatchReservation q) := fun h => Bool.noConfusion h
theorem workgroupEnd (wg : Nat) : Statement (Instr.workgroupEnd wg) := fun h => Bool.noConfusion h
theorem launchComplete (l : Nat) : Statement (Instr.launchComplete l) := fun h => Bool.noConfusion h
theorem timeLimitExpiry (l : Nat) : Statement (Instr.timeLimitExpiry l) := fun h => Bool.noConfusion h
theorem preemptRequest (part : Nat) (value : DWord) : Statement (Instr.preemptRequest part value) := fun h => Bool.noConfusion h
theorem contextSave (wg : Nat) : Statement (Instr.contextSave wg) := fun h => Bool.noConfusion h
theorem contextRestore (wg : Nat) : Statement (Instr.contextRestore wg) := fun h => Bool.noConfusion h
theorem syscallServiceRun (wg : Nat) : Statement (Instr.syscallServiceRun wg) := fun h => Bool.noConfusion h
theorem serviceDone (seq : Nat) (status : Word) : Statement (Instr.serviceDone seq status) := fun h => Bool.noConfusion h
theorem serviceTimeout (seq : Nat) : Statement (Instr.serviceTimeout seq) := fun h => Bool.noConfusion h
theorem tlbInvalidate (asid : Nat) (va : DWord) (len : DWord) : Statement (Instr.tlbInvalidate asid va len) := fun h => Bool.noConfusion h
theorem cancelLaunchCmd (lid : DWord) : Statement (Instr.cancelLaunchCmd lid) := fun h => Bool.noConfusion h
theorem setJobWindow (lw : Nat) : Statement (Instr.setJobWindow lw) := fun h => Bool.noConfusion h
theorem hostCopy (toHost : Bool) (addr : Nat) (data : List Byte) : Statement (Instr.hostCopy toHost addr data) := fun h => Bool.noConfusion h
theorem unknownCommand (code : Nat) : Statement (Instr.unknownCommand code) := fun h => Bool.noConfusion h
theorem cxlMemAccess (addr : Nat) (data : Option (List Byte)) (len : Nat) : Statement (Instr.cxlMemAccess addr data len) := fun h => Bool.noConfusion h
theorem hostCwinAccess (off : Nat) (data : Option (List Byte)) (len : Nat) (keep : Bool) : Statement (Instr.hostCwinAccess off data len keep) := fun h => Bool.noConfusion h
theorem ownershipTransfer (region : Nat) (merge : List (Nat × Option (List Byte))) : Statement (Instr.ownershipTransfer region merge) := fun h => Bool.noConfusion h
theorem tenureExpiry (region : Nat) : Statement (Instr.tenureExpiry region) := fun h => Bool.noConfusion h
theorem backinvTimeout (region : Nat) : Statement (Instr.backinvTimeout region) := fun h => Bool.noConfusion h
theorem hostLinkDown (down : Bool) : Statement (Instr.hostLinkDown down) := fun h => Bool.noConfusion h
theorem podFlitReceive (peer : Nat) (flit : Flit) : Statement (Instr.podFlitReceive peer flit) := fun h => Bool.noConfusion h
theorem podAckTimer (peer : Nat) : Statement (Instr.podAckTimer peer) := fun h => Bool.noConfusion h
theorem podNackTimer (peer : Nat) : Statement (Instr.podNackTimer peer) := fun h => Bool.noConfusion h
theorem podResendTimer (peer : Nat) (seq : Nat) : Statement (Instr.podResendTimer peer seq) := fun h => Bool.noConfusion h
theorem planeDark (planes : List Nat) (pair : Option Nat) (laser : Bool) : Statement (Instr.planeDark planes pair laser) := fun h => Bool.noConfusion h
theorem linkSummarySend : Statement (Instr.linkSummarySend) := fun h => Bool.noConfusion h
theorem jobPacketReceive (pkt : JobPacket) : Statement (Instr.jobPacketReceive pkt) := fun h => Bool.noConfusion h
theorem jobCompletionReceive (tag : Nat) (done : Completion) : Statement (Instr.jobCompletionReceive tag done) := fun h => Bool.noConfusion h
theorem jobRetransmitTimer (tag : Nat) (i : Nat) (dropped : Bool) : Statement (Instr.jobRetransmitTimer tag i dropped) := fun h => Bool.noConfusion h
theorem landingCounterDeadline (rank : Nat) (tag : Nat) (gen : Nat) : Statement (Instr.landingCounterDeadline rank tag gen) := fun h => Bool.noConfusion h
theorem ethernetPortDown (port : Nat) : Statement (Instr.ethernetPortDown port) := fun h => Bool.noConfusion h
theorem windowBoundary : Statement (Instr.windowBoundary) := fun h => Bool.noConfusion h
theorem ptpSync (offset : Int) : Statement (Instr.ptpSync offset) := fun h => Bool.noConfusion h
theorem preciseTimeLoss : Statement (Instr.preciseTimeLoss) := fun h => Bool.noConfusion h
theorem channelCounterSnapshot : Statement (Instr.channelCounterSnapshot) := fun h => Bool.noConfusion h
theorem unitFence (unit : FenceUnit) : Statement (Instr.unitFence unit) := fun h => Bool.noConfusion h
theorem thermalThrottle (sensed : Sensors) : Statement (Instr.thermalThrottle sensed) := fun h => Bool.noConfusion h
theorem thermalTrip (hearth : Nat) : Statement (Instr.thermalTrip hearth) := fun h => Bool.noConfusion h
theorem supplyFault (cores : List Nat) : Statement (Instr.supplyFault cores) := fun h => Bool.noConfusion h
theorem watchdogExpiry (part : Nat) : Statement (Instr.watchdogExpiry part) := fun h => Bool.noConfusion h
theorem coldReset (boot : BootOutcome) : Statement (Instr.coldReset boot) := fun h => Bool.noConfusion h
theorem spdmRequest (req : SpdmReq) : Statement (Instr.spdmRequest req) := fun h => Bool.noConfusion h
theorem warmReset : Statement (Instr.warmReset) := fun h => Bool.noConfusion h
theorem partitionReset (part : Nat) : Statement (Instr.partitionReset part) := fun h => Bool.noConfusion h
theorem partitionEnable (part : Nat) (value : DWord) : Statement (Instr.partitionEnable part value) := fun h => Bool.noConfusion h
theorem devstatErrClear : Statement (Instr.devstatErrClear) := fun h => Bool.noConfusion h
theorem rtinvWrite (value : DWord) : Statement (Instr.rtinvWrite value) := fun h => Bool.noConfusion h
theorem planeenWrite (value : DWord) (clean : BitVec 16) : Statement (Instr.planeenWrite value clean) := fun h => Bool.noConfusion h
theorem quiesceWrite (on : Bool) : Statement (Instr.quiesceWrite on) := fun h => Bool.noConfusion h
theorem qdoorPush (q : Nat) (addr : DWord) : Statement (Instr.qdoorPush q addr) := fun h => Bool.noConfusion h
theorem queueClose (q : Nat) : Statement (Instr.queueClose q) := fun h => Bool.noConfusion h
theorem intmaskWrite (part : Nat) (value : DWord) : Statement (Instr.intmaskWrite part value) := fun h => Bool.noConfusion h
theorem intstatClear (part : Nat) (value : DWord) : Statement (Instr.intstatClear part value) := fun h => Bool.noConfusion h
theorem logringEnable (part : Nat) (value : DWord) : Statement (Instr.logringEnable part value) := fun h => Bool.noConfusion h
theorem registerWrite (off : Nat) (value : DWord) : Statement (Instr.registerWrite off value) := fun h => Bool.noConfusion h
theorem jobResponseReceive (resp : RemResp) : Statement (Instr.jobResponseReceive resp) := fun h => Bool.noConfusion h
theorem podFlitSend (peer : Nat) : Statement (Instr.podFlitSend peer) := fun h => Bool.noConfusion h
theorem warmResetRetirementTimeout : Statement (Instr.warmResetRetirementTimeout) := fun h => Bool.noConfusion h

end Sys2Proof.Laws.HasHeader
end

