-- ==== Sys2Proof/Laws/Store.lean ====
section
/-! SUPPORT. Sparse stores: read after write, and the canonical form that every operation keeps. -/
namespace Sys2Proof.Machine

theorem Store.get_below {w : Nat} (m : Store w) (b a : Nat) (h : m.wfAbove b = true) (hb : a < b) : m.get a = 0 := by
  cases m with
  | nil => rfl
  | cons e r =>
    simp only [Store.wfAbove, Bool.and_eq_true, decide_eq_true_eq] at h
    have : ¬ e.1 = a := by omega
    simp only [Store.get, this, if_false]
    rw [if_pos (by omega)]

theorem Store.get_set_same {w : Nat} (m : Store w) (a b : Nat) (x : BitVec w) (h : m.wfAbove b = true) : (m.set a x).get a = x := by
  induction m generalizing b with
  | nil => by_cases hx : x = 0#w <;> simp [Store.set, Store.get, hx]
  | cons e r ih =>
    obtain ⟨k, y⟩ := e
    simp only [Store.wfAbove, Bool.and_eq_true, decide_eq_true_eq] at h
    simp only [Store.set]
    split
    · split
      · rename_i h1 h2; simp [Store.get, h2, h1, show ¬ k = a by omega]
      · simp [Store.get]
    · split
      · split
        · rename_i h1 h2 h3; rw [h3]; exact Store.get_below r (k + 1) a h.2 (by omega)
        · rename_i h2 _; simp [Store.get, h2]
      · rename_i h1 h2
        simp only [Store.get, show ¬ k = a from fun e => h2 e.symm, h1, if_false]
        exact ih _ h.2

theorem Store.get_set_other {w : Nat} (m : Store w) (a c : Nat) (x : BitVec w) (b : Nat) (h : m.wfAbove b = true) (hc : c ≠ a) :
    (m.set a x).get c = m.get c := by
  induction m generalizing b with
  | nil => by_cases hx : x = 0#w <;> simp [Store.set, Store.get, hx, hc.symm]
  | cons e r ih =>
    obtain ⟨k, y⟩ := e
    simp only [Store.wfAbove, Bool.and_eq_true, decide_eq_true_eq] at h
    simp only [Store.set]
    split
    · split
      · rfl
      · rename_i h1 _
        by_cases h3 : c < a
        · simp [Store.get, hc.symm, h3, show ¬ k = c by omega, show c < k by omega]
        · simp [Store.get, hc.symm, h3]
    · split
      · rename_i h1 h2
        split
        · by_cases h4 : c < k
          · simp [Store.get, show ¬ k = c by omega, h4, Store.get_below r (k + 1) c h.2 (by omega)]
          · simp [Store.get, show ¬ k = c from fun e => hc (by omega), h4]
        · simp [Store.get, show ¬ k = c from fun e => hc (by omega)]
      · simp only [Store.get]
        split
        · rfl
        · split
          · rfl
          · exact ih _ h.2

theorem Store.wfAbove_set {w : Nat} (m : Store w) (b a : Nat) (x : BitVec w) (h : m.wfAbove b = true) (hb : b ≤ a) :
    (m.set a x).wfAbove b = true := by
  induction m generalizing b with
  | nil => by_cases hx : x = 0#w <;> simp [Store.set, Store.wfAbove, hx, hb]
  | cons e r ih =>
    obtain ⟨k, y⟩ := e
    simp only [Store.wfAbove, Bool.and_eq_true, decide_eq_true_eq] at h
    simp only [Store.set]
    split
    · split
      · simp only [Store.wfAbove, Bool.and_eq_true, decide_eq_true_eq]; exact h
      · rename_i h1 h2; simp only [Store.wfAbove, Bool.and_eq_true, decide_eq_true_eq]; exact ⟨⟨hb, h2⟩, ⟨by omega, h.1.2⟩, h.2⟩
    · split
      · rename_i h1 h2
        split
        · cases r with
          | nil => rfl
          | cons e' r' =>
            simp only [Store.wfAbove, Bool.and_eq_true, decide_eq_true_eq] at h ⊢
            exact ⟨⟨by omega, h.2.1.2⟩, h.2.2⟩
        · rename_i h3; simp only [Store.wfAbove, Bool.and_eq_true, decide_eq_true_eq]; exact ⟨⟨h.1.1, h3⟩, h.2⟩
      · simp only [Store.wfAbove, Bool.and_eq_true, decide_eq_true_eq]
        exact ⟨h.1, ih _ h.2 (by omega)⟩

/-- A write keeps the canonical form. -/
theorem Store.wf_set {w : Nat} (m : Store w) (a : Nat) (x : BitVec w) (h : m.wf = true) : (m.set a x).wf = true :=
  Store.wfAbove_set m 0 a x h (Nat.zero_le a)

/-- Writes of several values keep it. -/
theorem Store.wf_setN {w : Nat} (m : Store w) (a : Nat) (xs : List (BitVec w)) (h : m.wf = true) : (m.setN a xs).wf = true := by
  induction xs generalizing m a with
  | nil => exact h
  | cons x xs ih => exact ih _ _ (Store.wf_set m a x h)

/-- A fold of writes keeps it. -/
theorem Store.wf_foldl {w : Nat} {α : Type} (f : Store w → α → Store w) (hf : ∀ m x, m.wf = true → (f m x).wf = true) (xs : List α)
    (m : Store w) (h : m.wf = true) : (xs.foldl f m).wf = true := by
  induction xs generalizing m with
  | nil => exact h
  | cons x xs ih => exact ih _ (hf m x h)

theorem Store.get_setN_outside {w : Nat} (m : Store w) (a c : Nat) (xs : List (BitVec w)) (h : m.wf = true)
    (hc : c < a ∨ a + xs.length ≤ c) : (m.setN a xs).get c = m.get c := by
  induction xs generalizing m a with
  | nil => rfl
  | cons x xs ih =>
    simp only [List.length_cons] at hc
    rw [Store.setN, ih _ _ (Store.wf_set m a x h) (by omega)]
    exact Store.get_set_other m a c x 0 h (by omega)

theorem Store.get_setN_inside {w : Nat} (m : Store w) (a i : Nat) (xs : List (BitVec w)) (h : m.wf = true) (hi : i < xs.length) :
    (m.setN a xs).get (a + i) = xs[i] := by
  induction xs generalizing m a i with
  | nil => exact absurd hi (by simp)
  | cons x xs ih =>
    cases i with
    | zero =>
      rw [Store.setN, Nat.add_zero, Store.get_setN_outside _ _ _ _ (Store.wf_set m a x h) (by omega)]
      exact Store.get_set_same m a 0 x h
    | succ i =>
      have := ih (m.set a x) (a + 1) i (Store.wf_set m a x h) (by simpa using hi)
      rw [Store.setN, show a + (i + 1) = a + 1 + i by omega, this]; rfl

/-! ## Memory -/

/-- The one primitive through which memory changes keeps the canonical form. -/
theorem State.writeLoc_wf (s : State) (l : Nat) (bs : List Byte) (h : Memory.wf s.mem) : Memory.wf (s.writeLoc l bs).mem :=
  Store.wf_setN s.mem.mem l bs h

theorem MemSys.setHome_mem (m : MemSys) (h : HomeLine) : (m.setHome h).mem = m.mem := rfl

theorem State.dropLine_wf (s : State) (n : Nat) (h : Memory.wf s.mem) : Memory.wf (s.dropLine n).mem := by
  unfold State.dropLine
  simp only
  split
  · exact State.writeLoc_wf _ _ _ h
  · exact h

/-- What leaves every byte of memory alone keeps the form. -/
theorem Memory.wf_of_mem {m m' : MemSys} (e : m'.mem = m.mem) (h : Memory.wf m) : Memory.wf m' := by
  unfold Memory.wf at *; rw [e]; exact h

theorem MemSys.addCopy_mem (m : MemSys) (c : CacheLine) : (m.addCopy c).mem = m.mem := by
  unfold MemSys.addCopy; dsimp only; (repeat' split) <;> rfl

theorem State.countWritten_mem (s : State) (n : Nat) : (s.countWritten n).mem = s.mem := by
  unfold State.countWritten; split <;> rfl

theorem State.writeBack_mem (s : State) (n : Nat) : (s.writeBack n).mem.mem = s.mem.mem := by
  unfold State.writeBack; dsimp only; split
  · rfl
  · rw [State.countWritten_mem]; rfl

theorem State.writeBack_wf (s : State) (n : Nat) (h : Memory.wf s.mem) : Memory.wf (s.writeBack n).mem :=
  Memory.wf_of_mem (s.writeBack_mem n) h

theorem State.evictNow_wf (s : State) (n : Nat) (h : Memory.wf s.mem) : Memory.wf (s.evictNow n).mem := by
  unfold State.evictNow
  dsimp only
  split
  · exact State.dropLine_wf s n h
  · exact State.writeBack_wf s n h

theorem State.evictLine_wf (s : State) (n k : Nat) (h : Memory.wf s.mem) : Memory.wf (s.evictLine n k).mem := by
  unfold State.evictLine
  split
  · exact State.evictNow_wf s n h
  · exact h

theorem State.roomHome_wf (s : State) (n : Nat) (h : Memory.wf s.mem) : Memory.wf (s.roomHome n).mem := by
  unfold State.roomHome
  dsimp only
  split
  · exact h
  · split
    · exact State.evictNow_wf _ _ h
    · exact h

theorem State.evictRdc_mem (s : State) (hh n : Nat) : (s.evictRdc hh n).mem.mem = s.mem.mem := by
  unfold State.evictRdc; split <;> rfl

theorem State.fillRdc_mem (s : State) (hh n r hint : Nat) (bs : List Byte) : (s.fillRdc hh n r hint bs).mem.mem = s.mem.mem := by
  unfold State.fillRdc
  split
  · rfl
  · dsimp only; split
    · rfl
    · exact MemSys.addCopy_mem _ _

theorem State.spendLast_wf (s : State) (n : Nat) (h : Memory.wf s.mem) : Memory.wf (s.spendLast n).mem := by
  unfold State.spendLast
  split
  · exact h
  · exact State.dropLine_wf s n h

theorem State.homeRead_wf (s : State) (n r hint hh : Nat) (h : Memory.wf s.mem) : Memory.wf (s.homeRead n r hint hh).2.mem := by
  unfold State.homeRead
  split
  · exact h
  · have h1 := Memory.wf_of_mem (State.evictRdc_mem (s.evictLine n (2 * n)) hh n) (State.evictLine_wf s n (2 * n) h)
    dsimp only
    split
    · dsimp only; split <;> exact h1
    · generalize ht : (if hint = 7 then (s.evictLine n (2 * n)).evictRdc hh n else ((s.evictLine n (2 * n)).evictRdc hh n).roomHome n) = t
      have h2 : Memory.wf t.mem := by
        rw [← ht]; split
        · exact h1
        · exact State.roomHome_wf _ _ h1
      split
      · exact Memory.wf_of_mem (State.fillRdc_mem _ _ _ _ _ _) h2
      · exact State.spendLast_wf _ _ h2
      · exact State.spendLast_wf _ _ h2
      · exact Memory.wf_of_mem (State.fillRdc_mem _ _ _ _ _ _) h2

theorem State.loadLine_wf (s : State) (c n r hint sc : Nat) (h : Memory.wf s.mem) : Memory.wf (s.loadLine c n r hint sc).2.mem := by
  have hr := fun (t : State) (ht : Memory.wf t.mem) => State.homeRead_wf t n r hint (hearthOf c) ht
  have hf := fun (t : State) (x : CacheLine) (ht : Memory.wf t.mem) => Memory.wf_of_mem (MemSys.addCopy_mem (t.homeRead n r hint (hearthOf c)).2.mem x) (hr t ht)
  unfold State.loadLine
  dsimp only
  split
  · split
    · split
      · dsimp only; split <;> exact h
      · split
        · exact hf { s with mem := s.mem.evictL1 c (.loc n) } _ h
        · exact hr { s with mem := s.mem.evictL1 c (.loc n) } h
    · exact hr s h
  · split
    · exact hf s _ h
    · exact hr s h

theorem State.takeHostLine_wf (s : State) (l : Nat) (bs : List Byte) (h : Memory.wf s.mem) : Memory.wf (s.takeHostLine l bs).mem := by
  unfold State.takeHostLine
  split
  · exact State.writeLoc_wf _ _ _ h
  · exact h

theorem State.mergeHostLines_wf (s : State) (h : Memory.wf s.mem) : Memory.wf s.mergeHostLines.mem := by
  unfold State.mergeHostLines
  show Memory.wf (State.mem (List.foldl _ s s.mem.hostLines))
  generalize s.mem.hostLines = ls
  induction ls generalizing s with
  | nil => exact h
  | cons p r ih =>
    apply ih
    dsimp only
    split
    · exact State.takeHostLine_wf _ _ _ h
    · exact h

theorem State.snoopHost_wf (s : State) (l : Nat) (h : Memory.wf s.mem) : Memory.wf (s.snoopHost l).mem := by
  unfold State.snoopHost
  split
  · exact h
  · split
    · exact h
    · dsimp only; split
      · exact State.takeHostLine_wf _ _ _ h
      · exact h

theorem State.homeWrite_wf (s : State) (c : Option Nat) (l r hint : Nat) (bs : List Byte) (h : Memory.wf s.mem) :
    Memory.wf (s.homeWrite c l r hint bs).mem := by
  have h2 := State.evictLine_wf _ (l / 64) (2 * l + 1) (State.snoopHost_wf s l h)
  unfold State.homeWrite
  apply State.writeLoc_wf
  generalize ht : (if hint = 7 ∨ cwBase ≤ l then (s.snoopHost l).evictLine (l / 64) (2 * l + 1) else ((s.snoopHost l).evictLine (l / 64) (2 * l + 1)).roomHome (l / 64)) = t
  have h3 : Memory.wf t.mem := by
    rw [← ht]; split
    · exact h2
    · exact State.roomHome_wf _ _ h2
  cases c <;> exact h3

theorem State.acquireL1_wf (s : State) (c : Nat) (h : Memory.wf s.mem) : Memory.wf (s.acquireL1 c).mem := h

theorem State.dropL1_wf (s : State) (c n : Nat) (h : Memory.wf s.mem) : Memory.wf (s.dropL1 c n).mem := h

theorem State.dropCopies_wf (s : State) (n : Nat) (h : Memory.wf s.mem) : Memory.wf (s.dropCopies n).mem := h

theorem State.writeWords_wf (s : State) (ls : List (Nat × Nat)) (bs : List Byte) (h : Memory.wf s.mem) :
    Memory.wf (s.writeWords ls bs).mem := by
  induction ls generalizing s bs with
  | nil => exact h
  | cons l ls ih => exact ih _ _ (State.homeWrite_wf s _ _ _ _ _ h)

theorem placeTables_wf (m : Store 8) (h : m.wf = true) : (placeTables m).wf = true := by
  simp only [placeTables]
  exact Store.wf_setN _ _ _ (Store.wf_setN _ _ _ (Store.wf_setN _ _ _ (Store.wf_setN _ _ _ h)))

theorem placed_mem (s : State) (w : Nat) :
    (placed s w).mem.mem = Store.setN (placeTables s.mem.mem) (hbmLoc 0 0x240000) (placeLine w) := by simp only [placed]

/-- Placing an instruction keeps it. -/
theorem placed_wf (s : State) (w : Nat) (h : Memory.wf s.mem) : Memory.wf (placed s w).mem := by
  unfold Memory.wf
  rw [placed_mem]
  exact Store.wf_setN _ _ _ (placeTables_wf _ h)

/-- Reading bytes of which none lies in a written range. -/
theorem State.readLoc_writeLoc_outside (s : State) (l c : Nat) (bs : List Byte) (h : Memory.wf s.mem) (hc : c < l ∨ l + bs.length ≤ c) :
    (s.writeLoc l bs).mem.mem.get c = s.mem.mem.get c := Store.get_setN_outside s.mem.mem l c bs h hc

/-- Reading the bytes just written. -/
theorem State.readLoc_writeLoc_inside (s : State) (l i : Nat) (bs : List Byte) (h : Memory.wf s.mem) (hi : i < bs.length) :
    (s.writeLoc l bs).mem.mem.get (l + i) = bs[i] := Store.get_setN_inside s.mem.mem l i bs h hi

end Sys2Proof.Machine
end

