-- ==== Sys2Proof/Machine/RegRead.lean ====
section
/-! DEFINITION. What the driver reads in BAR0 (R420, R421, R423, R426): the value of each register as a function of the state. No event
of the machine is a register read, so this is a view of the state, and nothing here changes it. -/
namespace Sys2Proof.Machine

/-- A flag in its place of a register. -/
def bitAt (b : Bool) (i : Nat) : Nat := if b then 2 ^ i else 0

/-- The 64 bits of a mask from bit 64 i on. -/
def maskWord {n : Nat} (m : BitVec n) (i : Nat) : DWord := (m >>> (64 * i)).setWidth 64

/-- A partition's block as it reads (R421). -/
def State.readPart (s : State) (p off : Nat) : DWord :=
  let b := s.part p
  match off with
  | 0x00 => BitVec.ofNat 64 (bitAt b.enable 0 + bitAt b.busy 2 + b.disable.toNat * 2 ^ 3 + b.frzMax * 2 ^ 10 + b.qos * 2 ^ 16)
  | 0x08 => b.ptroot
  | 0x10 => BitVec.ofNat 64 b.asid
  | 0x18 => maskWord b.cores 0
  | 0x20 => maskWord b.cores 1
  | 0x28 => maskWord b.cores 2
  | 0x30 => b.privBase
  | 0x38 => b.privStride
  | 0x40 => b.ctxBase
  | 0x48 => b.tlimit
  | 0x50 => BitVec.ofNat 64 (bitAt b.preemptBusy 9)
  | 0x58 => BitVec.ofNat 64 (b.intMask.toNat + b.intStat.toNat * 2 ^ 32)
  | 0x60 => b.logRing
  | 0x68 => b.logHead
  | 0x70 => b.logTail
  | _ => 0

/-- A queue's register as it reads (R423): QDOOR reads 0. -/
def State.readQueue (s : State) (q : Nat) : DWord :=
  let g := s.mgmt.queues.getD q QReg.blank
  BitVec.ofNat 64 (g.depth + g.prio * 2 ^ 4 + g.part * 2 ^ 8 + bitAt g.isOpen 11 + bitAt g.full 32)

/-- A region's entry as it reads (R420). -/
def State.readRegion (s : State) (r : Nat) (upper : Bool) : DWord :=
  let g : RegionReg := s.mgmt.regions.getD r { base := 0, len := 0, part := 0, valid := false }
  if upper then BitVec.ofNat 64 (g.len + g.part * 2 ^ 48 + bitAt g.valid 63) else g.base

/-- The device's own registers as they read (R420). -/
def State.readGlobal (s : State) (off : Nat) : DWord :=
  let m := s.mgmt
  match off with
  | 0x00 => 0x00B00D54
  | 0x08 => BitVec.ofNat 64 (bitAt m.ready 0 + bitAt m.recovery 1 + bitAt m.timeHeld 2 + bitAt m.err 63)
  | 0x18 => m.cntCtl
  | 0x20 => m.svcRing
  | 0x28 => m.cmdRing
  | 0x30 => m.rtBase
  | 0x38 => BitVec.ofNat 64 (m.nRank + m.selfRank * 2 ^ 32)
  | 0x40 => m.rtInv ||| BitVec.ofNat 64 (bitAt m.rtBusy 30)
  | 0x48 => BitVec.ofNat 64 (m.planeEn.toNat + bitAt m.quiesce 32)
  | 0x50 => BitVec.ofNat 64 m.pcap
  | 0x58 => BitVec.ofNat 64 s.logs.bbHead
  | 0x60 => BitVec.ofNat 64 m.bbPage
  | 0x68 => BitVec.ofNat 64 m.retxt
  | 0x70 => BitVec.ofNat 64 m.svcto
  | 0x78 => m.regMask.setWidth 64
  | 0x80 => maskWord m.fencedCore 0
  | 0x88 => maskWord m.fencedCore 1
  | 0x90 => maskWord m.fencedCore 2
  | 0x98 => maskWord m.fencedChan 0
  | 0xA0 => maskWord m.fencedChan 1
  | 0xA8 => maskWord m.fencedChan 2
  | 0xB0 => maskWord m.fencedChan 3
  | 0xB8 => maskWord m.fencedChan 4
  | 0xC0 => BitVec.ofNat 64 (m.fencedPlane.toNat + m.fencedPort.toNat * 2 ^ 16)
  | 0xC8 => maskWord m.fencedAnvil 0
  | 0xD0 => maskWord m.fencedAnvil 1
  | 0xD8 => maskWord m.fencedAnvil 2
  | 0xE0 => maskWord m.fencedBellows 0
  | 0xE8 => maskWord m.fencedBellows 1
  | 0xF0 => maskWord m.fencedBellows 2
  | 0x100 => maskWord m.fencedL2 0
  | 0x108 => maskWord m.fencedL2 1
  | 0x110 => maskWord m.fencedL2 2
  | 0x118 => maskWord m.fencedL2 3
  | 0x120 => maskWord m.fencedRdc 0
  | 0x128 => maskWord m.fencedRdc 1
  | _ => 0

/-- The four words of a black-box event (R426). -/
def BbEvent.word (e : BbEvent) (i : Nat) : DWord :=
  match i with
  | 0 => BitVec.ofNat 64 e.time
  | 1 => BitVec.ofNat 64 (e.cause + e.kind * 2 ^ 9 + e.part * 2 ^ 16 + e.core * 2 ^ 24 + e.slot * 2 ^ 32)
  | 2 => e.epc
  | _ => e.addr

/-- A slot of the black box (R426): the newest event n with n mod 4,096 the slot; a slot never written reads as 0. -/
def State.bbSlot (s : State) (slot : Nat) : Option BbEvent :=
  let h := s.logs.bbHead
  -- the events stand newest first: event h − 1 − i at index i
  let back := (h + 4095 - slot) % 4096
  if back < h then s.logs.events[back]? else none

/-- What the board controller reads over I3C (R432). -/
inductive BoardReg where
  | devstat | fenced (word : Nat) | bbHead | temp (die : Nat) | power
  deriving DecidableEq, Repr

/-- THE VALUE THAT THE BOARD CONTROLLER READS at target address 0x2A (R432): temperatures and power in the unit of R430. RESET and PCAP are
written as through BAR0. -/
def State.boardRead (s : State) : BoardReg → Nat
  | .devstat => (s.readGlobal 0x08).toNat
  | .fenced i => if 0x80 + 8 * i ≤ 0x128 then (s.readGlobal (0x80 + 8 * i)).toNat else 0
  | .bbHead => s.logs.bbHead
  | .temp d => s.mgmt.temps.getD d 0
  | .power => s.mgmt.power

/-- The parts of CXL 3.1 that R360 lists. The spec lays out no configuration space that would hold them (log 77). -/
inductive CxlPart where
  | io | doe | msix (vectors : Nat) | cache | mem (decoders : Nat) (backInv : Bool) | link (gts lanes : Nat) (flit : Bool)
  | multiLogical | switching | pooling | persistentFlush | ide
  /-- any part that R360 does not list -/
  | other
  deriving DecidableEq, Repr

/-- WHAT THE CAPABILITY STRUCTURES REPORT of a part of CXL 3.1: what is not listed is absent (R360). Narrower links train. -/
def CxlPart.present : CxlPart → Bool
  | .io => true
  | .doe => true
  | .msix n => n == 64
  | .cache => true
  | .mem d b => d == 1 && b
  | .link g n f => g == 64 && f && decide (n ≤ 16)
  | _ => false

/-- THE VALUE OF 8 BYTES OF BAR0 at a multiple of 8 (R420). -/
def State.readReg (s : State) (off : Nat) : DWord :=
  if off % 8 ≠ 0 then 0
  else if off < 0x400 then s.readGlobal off
  else if off < 0x500 then s.readRegion ((off - 0x400) / 16) (decide (off % 16 = 8))
  else if 0x1000 ≤ off ∧ off < 0x1800 then s.readPart ((off - 0x1000) / 0x100) (off % 0x100)
  else if 0x2000 ≤ off ∧ off < 0x3000 then (if off % 16 = 0 then s.readQueue ((off - 0x2000) / 16) else 0)
  else if 0x8000 ≤ off ∧ off < 0x10000 then
    (match s.bbSlot (1024 * s.mgmt.bbPage + (off - 0x8000) / 32) with
     | some e => e.word (off % 32 / 8)
     | none => 0)
  else 0

end Sys2Proof.Machine
end

