-- ==== Sys2Proof/Tests/Slice0.lean ====
section
/-! SUPPORT. Tests: well-formedness, decoding, single steps, and states that meet the hypotheses of the statements. -/
namespace Sys2Proof.Tests
set_option Elab.async false
open Sys2Proof Sys2Proof.Machine

/-! ## Well-formedness: one ill-formed term for each kind of check -/

/-- A header whose fields fit. -/
def h0 : Hdr := ⟨31, false, 0, 0, 0, false⟩

theorem test_wellFormed_accepts : [
    Instr.nop h0, .mov h0 .b32 (.v 239) (.s 127), .iaddImm h0 .i8 false (.v 0) (.q 7) 0xFFFFFF80, .lget h0 .rot 6 .b64 31 (.v 0) .vz .vlane,
    .cvt h0 .e4m3x4 0 8 .rn true (.v 20) (.v 10), .bar h0 .sync .dev 15 31, .ld { h0 with sb := 7 } .spad .w64 .job 7 true 0 (.v 0) (.v 1),
    .mma h0 true false .none 7 15 63 63 0, .spfe h0 .test 16383 (.s 0) (.s 1), .tgen h0 128 15 (.s 0) (.s 0) (.s 0) (.s 0),
    .rank h0 .f32 16 0 (.s 0) (.s 0) (.s 0)].all wellFormed = true := by decide +kernel

theorem test_wellFormed_header : [Instr.nop { h0 with st := 16 }, .nop { h0 with pg := 32 }, .ld { h0 with sb := 8 } .gen .w32 .wg 0 false 0 (.v 0) (.v 1),
    .nop { h0 with sb := 1 }, .mov { h0 with sb := 1 } .b32 (.v 0) (.v 1), .bra { h0 with sb := 1 } false 31 false 0 0].all (fun i => !wellFormed i) = true := by
  decide +kernel

theorem test_wellFormed_operands : [Instr.mov h0 .b32 (.v 240) (.v 0), .mov h0 .b32 (.v 0) (.s 128), .mov h0 .b32 (.q 8) (.v 0),
    .isub h0 .b32 false (.v 0) (.v 0) (.v 240), .imad h0 .b32 false false (.v 0) (.v 0) (.v 0) (.s 128),
    .pmovFromv h0 0 (.q 0), .lget h0 .abs 0 .b32 0 (.v 0) (.v 0) (.q 0), .launch h0 0 (.v 0) (.q 0), .slotwr h0 false 0 (.q 0) (.s 0),
    .atom h0 .add .gen .w32 .wg 0 (.v 0) (.v 0) (.q 0), .cvtq h0 .e4m3b .f32 .rn false (.v 0) (.v 0) (.v 0) (.v 1)].all (fun i => !wellFormed i) = true := by
  decide +kernel

theorem test_wellFormed_types : [Instr.mov h0 .f32 (.v 0) (.v 1), .iaddc h0 .i32 0 0 (.v 0) (.v 1) (.v 2), .imulh h0 .b16 (.v 0) (.v 1) (.v 2),
    .imadw h0 .b64 false (.v 0) (.v 1) (.v 2) (.v 3), .iabs h0 .b32 false (.v 0) (.v 1), .umov h0 .b16 (.s 0) (.s 1), .fadd h0 .b32 .rn false false false (.v 0) (.v 1) (.v 2),
    .fcmp h0 .f16x2 .eq false false 0 (.v 0) (.v 1), .pswap h0 0 false .e4m3x4 (.v 0) (.v 1), .pswap h0 0 true .b32 (.v 0) (.v 1),
    .lred h0 .add .rn .f16 (.v 0) (.v 1), .lred h0 .and .rn .f32 (.v 0) (.v 1), .scan h0 .xor false .rn .f64 (.v 0) (.v 1), .matchv h0 .i32 0 (.v 0) (.v 1),
    .readl h0 .i64 (.s 0) (.v 1) (.v 2)].all (fun i => !wellFormed i) = true := by decide +kernel

theorem test_wellFormed_immediates : [Instr.movImm h0 .b16 (.v 0) 0x10000, .iaddImm h0 .i8 false (.v 0) (.v 1) 0x80, .icmpImm h0 .b8 .eq 0 (.v 0) 0x100,
    .faddImm h0 .f16 .rn false (.v 0) (.v 1) 0x10000, .andImm h0 .i16 (.v 0) (.v 1) 0x8000].all (fun i => !wellFormed i) = true := by decide +kernel

theorem test_wellFormed_numbers : [Instr.sel h0 .b32 32 false (.v 0) (.v 1) (.v 2), .vote h0 .all false 32 0, .lea h0 .b32 8 (.v 0) (.v 1) (.v 2),
    .lget h0 .abs 7 .b32 0 (.v 0) (.v 1) (.v 2), .pswap h0 7 false .b32 (.v 0) (.v 1), .bar h0 .sync .wg 16 0, .bar h0 .sync .wg 0 32, .barg h0 .sync .gang 8,
    .trap h0 16, .movsr h0 32 (.s 0), .ownreq h0 false 16 (.s 0), .strbIn h0 8 false 0 0 (.s 0) (.s 2), .strbIn h0 0 false 0 32 (.s 0) (.s 2),
    .strbQin h0 0 false 0 16 0, .copygSlot h0 64 false .none 0 0 0 (.s 0) (.s 2), .copym h0 0 false false .none 0 0 128 (.s 0) (.s 2),
    .rank h0 .f32 0 0 (.s 0) (.s 0) (.s 0), .rank h0 .f32 17 0 (.s 0) (.s 0) (.s 0), .tgen h0 0 0 (.s 0) (.s 0) (.s 0) (.s 0), .tgen h0 129 0 (.s 0) (.s 0) (.s 0) (.s 0),
    .mma h0 false true .none 8 0 0 0 0, .mma h0 false false .none 0 0 0 0 1, .accrd h0 0 16 (.v 0) (.s 0), .claima h0 16 0, .spfe h0 .full 16384 (.v 0) (.s 0)].all
    (fun i => !wellFormed i) = true := by decide +kernel

theorem test_wellFormed_codes : [Instr.cvt h0 .i32 1 8 .rn false (.v 0) (.v 1), .cvt h0 .b32 6 8 .rn false (.v 0) (.v 1),
    .cvt h0 .e4m3x4 0 10 .rn false (.v 0) (.v 1), .cvt h0 .e4m3x4 0 8 .rn false (.v 0) (.s 1), .bar h0 .sync .pod 0 0, .barg h0 .sync .wg 0, .cancelId h0 .gang (.s 0),
    .ld h0 .glob .w32 .wg 0 true 0 (.v 0) (.v 1), .ld h0 .gen .w32 .wg 8 false 0 (.v 0) (.v 1), .atom h0 .add .priv .w32 .wg 0 (.v 0) (.v 1) (.v 2),
    .atom h0 .add .gen .zx8 .wg 0 (.v 0) (.v 1) (.v 2), .red h0 .exch .gen .w32 .wg 0 (.v 1) (.v 2), .pref h0 .spad 0 false 0 (.v 0), .cinv h0 .gen .pod 0 (.v 0),
    .cvta h0 false .gen (.v 0) (.v 2), .hflush h0 .spad 0 (.v 0), .frz h0 .wg 0 (.s 0) (.s 2) (.s 4), .spfe h0 .full 0 (.s 0) (.s 0), .windowBoundary].all
    (fun i => !wellFormed i) = true := by decide +kernel

/-! ## Decoding: words written out from the encodings (R79, R86 to R96), least significant byte first -/

/-- What the decoder reads from the bytes of a word. -/
def dec (bs : List Byte) : Nat ⊕ Instr := match decodeWord (wordOfBytes bs) with
  | .ok i => .inr i
  | .error c => .inl c

theorem test_decode_integer :
    dec [0x02, 0x90, 0, 0, 3, 2, 8, 0, 0x10, 4, 0, 0] = .inr (.iadd ⟨2, false, 4, 0, 0, false⟩ .i32 true false false (.v 3) (.v 1) (.v 2)) ∧
    dec [0x52, 0xD0, 7, 0, 8, 0x12, 0x80, 0x51, 0xF, 0xF, 0xF, 0xF] =
      .inr (.lut3Imm ⟨31, false, 4, 0, 0, false⟩ .b32 0x0A 6 (.v 8) (.v 9) 0x0F0F0F0F) := by decide +kernel

theorem test_decode_lanes : dec [0xC5, 0xE8, 7, 0, 0xB, 0xC, 0, 0, 0x80, 0x80, 3, 0] = .inr (.pswap ⟨31, false, 10, 0, 0, false⟩ 6 true .f32 (.v 11) (.v 6)) := by
  decide +kernel

theorem test_decode_float :
    dec [0x0A, 0xD9, 7, 0, 0x14, 0x14, 0, 0, 0xE0, 4, 2, 0] = .inr (.cvt ⟨31, false, 6, 0, 0, false⟩ .e4m3x4 0 8 .rn true (.v 20) (.v 10)) ∧
    dec [0, 0x59, 0, 0, 1, 0xF0, 0xE1, 3, 0x80, 0, 0, 0] = .inr (.fadd ⟨1, false, 6, 0, 0, false⟩ .f32 .rn false false false (.v 1) (.q 0) (.q 0)) := by
  decide +kernel

theorem test_decode_control :
    dec [0x80, 0xC1, 7, 0, 0, 0x20, 0, 3, 0, 0, 4, 0] = .inr (.bra ⟨31, false, 0, 0, 0, false⟩ false 1 false 3 4) ∧
    dec [0x8E, 0xC1, 7, 0, 0, 0, 0, 0, 0, 3, 0, 0] = .inr (.trap ⟨31, false, 0, 0, 0, false⟩ 3) ∧
    dec [0x8A, 0xC1, 7, 0, 0, 0x10, 2, 0xC0, 2, 0, 0, 0] = .inr (.cancelId ⟨31, false, 0, 0, 0, false⟩ .graph (.s 8)) := by decide +kernel

theorem test_decode_memory :
    dec [0, 0x42, 0x20, 0, 6, 4, 0, 0, 1, 0, 0, 0] = .inr (.ld ⟨1, false, 0, 1, 0, false⟩ .gen .w32 .wg 0 false 0 (.v 6) (.v 2)) ∧
    dec [1, 0xC2, 7, 0, 0, 4, 0x10, 0x20, 1, 0, 0, 0] = .inr (.st ⟨31, false, 0, 0, 0, false⟩ .glob .w32 0 false 0 (.v 2) (.v 4)) ∧
    dec [3, 0xC2, 0x27, 0, 8, 8, 0x26, 0x20, 0xA1, 5, 4, 0] =
      .inr (.atom ⟨31, false, 0, 1, 0, false⟩ .fadd .glob .w32 .dev 0x40 (.v 8) (.s 4) (.v 9)) ∧
    dec [6, 0xC2, 7, 0, 0, 0, 0, 0x20, 4, 0, 0, 0] = .inr (.fence ⟨31, false, 0, 0, 0, false⟩ .acq .job) := by decide +kernel

theorem test_decode_engines :
    dec [0x80, 0xC2, 7, 0, 6, 9, 0x22, 0xC, 0, 0, 0, 0] = .inr (.copy ⟨31, false, 0, 0, 0, false⟩ false .none 0 1 (.s 6) (.s 4) (.s 8)) ∧
    dec [0x85, 0xC2, 7, 0, 8, 9, 2, 0x18, 0, 0x86, 0, 0] = .inr (.rowcpy ⟨31, false, 0, 0, 0, false⟩ 3 (.s 8) (.s 4) (.s 12)) ∧
    dec [0x86, 0xC2, 7, 0, 0xA, 1, 0, 8, 0, 0x86, 0, 0] = .inr (.rowzero ⟨31, false, 0, 0, 0, false⟩ 1 (.s 10) (.s 12)) ∧
    dec [4, 0xC3, 7, 0, 0x20, 0x10, 0x40, 0x1C, 0, 0, 8, 0] = .inr (.mma ⟨31, false, 0, 0, 0, false⟩ true true .k32 1 0 2 4 2) := by decide +kernel

theorem test_decode_streams : dec [0x15, 0xC6, 7, 0, 0, 0x40, 0x32, 4, 8, 1, 0x14, 0] = .inr (.strbIn ⟨31, false, 1, 0, 0, false⟩ 1 true 0 5 (.s 32) (.s 12)) := by
  decide +kernel

/-- The first failing check of R98: an unlisted opcode, a zero field, a value outside a field, SB without variable latency, an operand. -/
theorem test_decode_refuses :
    dec [0x1C, 0, 0, 0, 0, 0, 0, 0, 0, 0, 0, 0] = .inl 0x000 ∧ dec [0, 0, 0, 0x80, 0, 0, 0, 0, 0, 0, 0, 0] = .inl 0x001 ∧
    dec [1, 0xC0, 7, 0, 0, 0, 0, 0, 0x80, 0, 0, 0] = .inl 0x002 ∧ dec [1, 0xC0, 0x27, 0, 0, 0, 0, 0, 0, 0, 0, 0] = .inl 0x006 ∧
    dec [1, 0xC0, 7, 0, 0, 0xE4, 1, 0, 0, 0, 0, 0] = .inl 0x020 := by decide +kernel

theorem test_table_word_keeps_no_bit_above : decodeTableWord 32 (2 ^ 40) = decodeTableWord 32 0 ∧ decodeTableWord 96 0 = some (.nop ⟨0, false, 0, 0, 0, false⟩) := by decide +kernel

/-! ## Single steps: the expected results are the worked examples of the spec, or follow from its rules by hand -/

/-- The bytes that are not 0 once a word of zeros is placed: four page-table entries, and the line's metadata and parity. -/
def demoMem : Store 8 := [(4096, 1), (4097, 0x20), (8192, 1), (8193, 0x30), (12288, 1), (12289, 0x40), (16384, 0x1F), (16386, 0x20), (1207959612, 1), (1207959615, 1)]

/-- A warp of partition 0 that runs from a placed NOP, with every lane active and the low 2 MiB mapped (log 8). -/
def demo : State := let s := State.reset.withFetchWord 96 0
  { s with mem := { s.mem with mem := demoMem } }

theorem demo_placed : demo = State.reset.withFetchWord 96 0 := by
  have h : (State.reset.withFetchWord 96 0).mem.mem = demoMem := by decide +kernel
  unfold demo; rw [← h]

/-- One vector register, lane by lane. -/
def setV (s : State) (r : Nat) (f : Nat → Word) : State :=
  s.modCur (fun w => { w with v := w.v.setIfInBounds r (Vector.ofFn (fun l : Fin 128 => f l)) })

/-- One uniform register. -/
def setS (s : State) (r : Nat) (x : Word) : State := s.modCur (fun w => { w with s := w.s.setIfInBounds r x })

/-- Only these lanes are active. -/
def lanes (s : State) (m : Mask) : State := s.modCur (fun w => { w with base := { w.base with mask := m } })

/-- What the next state of an instruction holds. -/
def got {α : Type} (i : Instr) (s : State) (f : State → α) : Option α := match exec i s with
  | .next t => some (f t)
  | .fault _ => none
  | .refused _ => none

/-- A lane of a vector register, and a uniform register. -/
def vAt (r l : Nat) (t : State) : Word := (t.cur.v.getD r (Vector.replicate 128 0)).getD l 0
def sAt (r : Nat) (t : State) : Word := t.cur.s.getD r 0

-- R15, R105: saturation and wrap
theorem test_iadd : got (.iadd h0 .i32 true false false (.v 3) (.v 1) (.v 2)) (setV (setV demo 1 (fun _ => 0x7FFFFFFF)) 2 (fun l => BitVec.ofNat 32 l))
      (vAt 3 127) = some 0x7FFFFFFF ∧
    got (.iadd h0 .b32 false false true (.v 3) (.v 1) (.v 2)) (setV (setV demo 1 (fun _ => 3)) 2 (fun _ => 5)) (vAt 3 127) = some 0xFFFFFFFE := by decide +kernel

-- R107: SHL.i32.sat of −3 by 40, and of 0 by 40
theorem test_shl_sat : got (.shl h0 .i32 true (.v 3) (.v 1) (.v 2)) (setV (setV demo 1 (fun l => if l = 0 then -3 else 0)) 2 (fun _ => 40))
    (fun t => (vAt 3 0 t, vAt 3 1 t)) = some (0x80000000, 0) := by decide +kernel

-- R106: lut 0xCA chooses by A, the example of "Worked encoding: LUT3 with an immediate"
theorem test_lut3_imm : got (.lut3Imm h0 .b32 0x0A 6 (.v 8) (.v 9) 0x0F0F0F0F) (setV (setV demo 9 (fun _ => 0xFF00FF00)) 8 (fun _ => 0x12345678)) (vAt 8 5) =
    some 0x0F340F78 := by decide +kernel

-- R110: the four selectors named there
theorem test_bpick : got (.bpick h0 (.v 3) (.v 1) (.v 2) (.v 4)) (setV (setV (setV demo 1 (fun _ => 0x818283F4)) 2 (fun _ => 0xAABBCCDD)) 4
      (fun l => if l = 0 then 0x07060504 else if l = 1 then 0x00010203 else if l = 2 then 0x08080800 else 0x10100100))
    (fun t => (vAt 3 0 t, vAt 3 1 t, vAt 3 2 t, vAt 3 3 t)) = some (0xAABBCCDD, 0xF4838281, 0xFFFFFFF4, 0x000083F4) := by decide +kernel

-- R108, at a full and an empty pattern
theorem test_popc_clz : got (.popc h0 .b64 (.v 4) (.v 6)) (setV (setV demo 6 (fun _ => 0xFFFFFFFF)) 7 (fun _ => 0xFFFFFFFF)) (vAt 4 0) = some 64 ∧
    got (.clz h0 .b16 (.v 4) (.v 1)) demo (vAt 4 0) = some 16 := by decide +kernel

-- R41, R6: a lane that is inactive keeps its value; p31 is true
theorem test_inactive_lane_keeps : got (.movImm h0 .b32 (.v 0) 7) (lanes demo 2) (fun t => (vAt 0 0 t, vAt 0 1 t)) = some (0, 7) ∧
    got (.movImm { h0 with pn := true } .b32 (.v 0) 7) demo (vAt 0 0) = some 0 := by decide +kernel

-- R113: a uniform instruction with no active lane writes nothing
theorem test_uadd : got (.uaddImm h0 .b64 false (.s 4) (.s 0) 0xFFFFFFFF) (setS demo 0 1) (fun t => (sAt 4 t, sAt 5 t)) = some (0, 1) ∧
    got (.uaddImm { h0 with pn := true } .b32 false (.s 4) (.s 0) 1) demo (sAt 4) = some 0 := by decide +kernel

-- "Worked example: the tree decides the rounding"
def treeDemo : State := lanes (setV demo 1 (fun l => if l = 0 then 0x4B800000 else if l < 4 then 0x3F800000 else 0x40E00000)) 0xF

theorem test_scan_tree : got (.scan h0 .add false .rn .f32 (.v 2) (.v 1)) treeDemo (fun t => (vAt 2 0 t, vAt 2 1 t, vAt 2 2 t, vAt 2 3 t, vAt 2 4 t)) =
    some (0x4B800000, 0x4B800000, 0x4B800000, 0x4B800001, 0) := by decide +kernel

theorem test_lred_tree : got (.lred h0 .add .rn .f32 (.s 20) (.v 1)) treeDemo (sAt 20) = some 0x4B800001 := by decide +kernel

-- "Worked example: packing four values into e4m3x4"
def packDemo : State := setV (setV (setV (setV demo 10 (fun _ => 0x3F800000)) 11 (fun _ => 0x43E80000)) 12 (fun _ => 0x43E88000)) 13 (fun _ => 0xBA83126F)

theorem test_cvt_pack : got (.cvt h0 .e4m3x4 0 8 .rn true (.v 20) (.v 10)) packDemo (vAt 20 0) = some 0x817E7E38 ∧
    got (.cvt h0 .e4m3x4 0 8 .rn false (.v 20) (.v 10)) packDemo (vAt 20 127) = some 0x817F7E38 := by decide +kernel

-- R130, R131: the examples of FRND and FFRAC
theorem test_frnd_ffrac : got (.frnd h0 .f32 .rn (.v 3) (.v 1)) (setV demo 1 (fun _ => 0xBF000000)) (vAt 3 0) = some 0x80000000 ∧
    got (.frnd h0 .f32 .rd (.v 3) (.v 1)) (setV demo 1 (fun _ => 0xBF000000)) (vAt 3 0) = some 0xBF800000 ∧
    got (.ffrac h0 .f32 (.v 3) (.v 1)) (setV demo 1 (fun _ => 0xC0300000)) (vAt 3 0) = some 0xBF400000 := by decide +kernel

-- R24, R124: 1 + 2^−24 ties to even; a NaN becomes the canonical one
theorem test_fadd : got (.fadd h0 .f32 .rn false false false (.v 3) (.v 1) (.v 2)) (setV (setV demo 1 (fun _ => 0x3F800000)) 2
      (fun l => if l = 0 then 0x33800000 else 0xFFC12345)) (fun t => (vAt 3 0 t, vAt 3 1 t)) = some (0x3F800000, 0x7FC00000) := by decide +kernel

-- R126: one rounding: (1 + 2^−12)² − 1 = 2^−11 + 2^−24
theorem test_ffma : got (.ffma h0 .f32 .rn false false false true (.v 4) (.v 1) (.v 1) (.v 3)) (setV (setV demo 1 (fun _ => 0x3F800800)) 3 (fun _ => 0x3F800000)) (vAt 4 0) =
    some 0x3A000400 := by decide +kernel

-- R82: a divergent branch: the fall-through path on top, the taken path beneath it, the reconvergence entry below
theorem test_bra_splits : got (.bra h0 false 1 false 5 9) (demo.modCur (fun w => { w with p := w.p.setIfInBounds 1 0xF }))
    (fun t => (t.cur.stack.map (fun p => (p.isRec, p.pc, p.mask)))) =
    some [(false, 20481, ~~~(0xF#128)), (false, 20485, 0xF), (true, 20489, BitVec.allOnes 128)] := by decide +kernel

-- R162, R271: TRAP 3
theorem test_trap : got (.trap h0 3) demo (fun t => (t.cur.cause, t.cur.epc, t.pc, t.cur.trapMode)) = some (0x073, 20481, placeSlot, true) := by decide +kernel

-- R155: the one warp of its workgroup arrives and goes on
theorem test_bar : got (.bar h0 .sync .wg 0 1) { demo with wg := { demo.wg with wgsize := 1 } } (fun t => (t.cur.hold, t.wg.bars[0].phase)) = some (.none, 1) := by
  decide +kernel

-- "Worked example: three lanes add to one word"
theorem test_atom_fadd : got (.atom h0 .fadd .spad .w32 .wg 0x40 (.v 8) (.s 4) (.v 9))
    (let s := { demo with wg := { demo.wg with kern := { demo.wg.kern with scratch := 4096 }, spad := Store.setN [] 0x40 (leBytes 4 0x4B800000) } }
     lanes (setV (setS (setS s 4 0) 5 0x7D000000) 9 (fun l => if l < 2 then 0x3F800000 else 0x40000000)) 7)
    (fun t => (vAt 8 0 t, vAt 8 1 t, vAt 8 2 t, vAt 8 3 t, leNat (t.wg.spad.getN 0x40 4))) =
    some (0x4B800000, 0x4B800000, 0x4B800000, 0, 0x4B800001) := by decide +kernel

-- R169: a store and a load of the same bytes, little-endian
theorem test_store : got (.st h0 .glob .w32 0 false 0 (.s 4) (.v 1)) (lanes (setV (setS demo 4 0x100) 1 (fun _ => 0x11223344)) 1)
    (fun t => [0, 1, 2, 3, 4].map (fun k => t.mem.mem.get (hbmLoc 0 0x200100 + k))) = some [0x44, 0x33, 0x22, 0x11, 0] := by decide +kernel

-- R169: the last byte of a word, sign-extended
theorem test_load : got (.ld h0 .glob .sx8 .wg 0 false 3 (.v 2) (.s 4))
    (lanes (setS { demo with mem := { demo.mem with mem := Store.setN demo.mem.mem (hbmLoc 0 0x200100) (leBytes 4 0x91223344) } } 4 0x100) 1) (vAt 2 0) = some 0xFFFFFF91 := by
  decide +kernel

-- "Worked example: a store that straddles a permission boundary": lane 64 has no W, and no byte is written
theorem test_store_straddle :
    let pt := fun (m : Store 8) (a e : Nat) => Store.setN m (hbmLoc 0 a) (leBytes 8 e)
    let s : State := { demo with mem := { demo.mem with mem := pt (pt (pt demo.mem.mem 0x4018 0x5001) 0x5000 0x123430F) 0x5008 0x1235307 } }
    let s := setV (setV (setV s 2 (fun l => BitVec.ofNat 32 (0x600F00 + 4 * l))) 3 (fun _ => 0)) 4 (fun l => BitVec.ofNat 32 l)
    got (.st h0 .glob .w32 0 false 0 (.v 2) (.v 4)) s (fun t => (t.cur.cause, t.cur.fault, t.cur.epc, t.mem.mem == s.mem.mem)) =
      some (0x08A, 0x601000, placeSlot, true) := by decide +kernel

-- R182, the space codes
theorem test_space : got (.space h0 (.v 3) (.v 6)) (setV (setV demo 6 (fun _ => 0)) 7 (fun l => if l = 0 then 0x7C000000 else if l = 1 then 0x7D000000 else
      if l = 2 then 0x7D010000 else if l = 3 then 0x80000000 else 0)) (fun t => (vAt 3 0 t, vAt 3 1 t, vAt 3 2 t, vAt 3 3 t, vAt 3 4 t)) =
    some (1, 2, 18, 12, 4) := by decide +kernel

-- R42: a count register at its bounds
theorem test_kadd : got (.kaddImm h0 3 1) (demo.modCur (fun w => { w with k := w.k.setIfInBounds 3 0x7FFFFFFF })) (fun t => t.cur.k[3]) = some 0x80000000 ∧
    got (.kaddImm h0 3 0xFFFFF) demo (fun t => t.cur.cause) = some 0x028 := by decide +kernel

-- R69 to R78, R240: a placed word is fetched, decoded and run by the next step
theorem test_step_runs_a_placed_word : (match step (State.reset.withFetchWord 96 (wordOfBytes [0x8E, 0xC1, 7, 0, 0, 0, 0, 0, 0, 3, 0, 0])) with
    | .next t => some (t.cur.cause, t.cur.epc)
    | _ => none) = some (0x073, 20481) := by decide +kernel

-- "Worked line image": the parity of the line is 0x65
theorem test_line_parity : (List.range 8).foldl (fun n j => if parBit ([0x02, 0x90, 0, 0, 3, 2, 8, 0, 0x10, 4, 0, 0] ++ List.replicate 36 0 ++
    [0x84, 0xC1, 7, 0, 0, 0, 0, 0, 0, 0, 0, 0] ++ [1, 0, 0]) j then n + 2 ^ j else n) 0 = 0x65 := by decide +kernel

/-! ## The hypotheses of the statements can be met: for each statement, states and operands that meet them together -/

/-- An instruction passes its checks, as a Boolean. -/
def ready (i : Instr) (h : Hdr) (s : State) : Bool := decide (hdrOf i = some h) && decide (issueCause (s.checked i) i h = none)

theorem clears_of {i : Instr} {h : Hdr} {s : State} (x : ready i h s = true) : clears i h s := by
  simp only [ready, Bool.and_eq_true, decide_eq_true_eq] at x; exact x

theorem opened_pend {s : State} (i : Instr) (h : Hdr) (x : s.cur.pend = []) : (s.opened i h).cur.pend = [] := by
  unfold State.opened State.checked State.draw State.modCur Warp.waited
  split <;> simp [Warp.settle, x]

theorem certain_of {s : State} (i : Instr) (h : Hdr) (r : PReg) (x : s.cur.pend = []) : certain (s.opened i h) r := by
  simp [certain, opened_pend i h x]

theorem vecReady_of {s : State} {i : Instr} {h : Hdr} {r n : Nat} (c : ready i h s = true) (p : s.cur.pend = []) (b : r + n ≤ 240) : vecReady s i h r n :=
  ⟨clears_of c, certain_of i h _ p, fun _ => certain_of i h _ p, b⟩

theorem uniReady_of {s : State} {i : Instr} {h : Hdr} {r n : Nat} (c : ready i h s = true) (p : s.cur.pend = []) : uniReady s i h r n :=
  ⟨clears_of c, certain_of i h _ p, fun _ => certain_of i h _ p⟩

theorem demo_pend : demo.cur.pend = [] := rfl

/-- A value inside a result. -/
def okIs {α : Type} [DecidableEq α] (x : EngRes α) (v : α) : Bool := match x with
  | .ok y => decide (y = v)
  | _ => false

theorem okIs_eq {α : Type} [DecidableEq α] {x : EngRes α} {v : α} (h : okIs x v = true) : x = .ok v := by
  unfold okIs at h; split at h <;> simp_all

/-- A fault inside a result. -/
def faultIs {α : Type} (x : EngRes α) (c : Nat) (a : DWord) : Bool := match x with
  | .fault d b => decide (d = c ∧ b = a)
  | _ => false

theorem faultIs_eq {α : Type} {x : EngRes α} {c : Nat} {a : DWord} (h : faultIs x c a = true) : x = .fault c a := by
  unfold faultIs at h; split at h <;> simp_all

/-- A value inside an Except. -/
def excIs {ε α : Type} [DecidableEq α] (x : Except ε α) (v : α) : Bool := match x with
  | .ok y => decide (y = v)
  | .error _ => false

theorem excIs_eq {ε α : Type} [DecidableEq α] {x : Except ε α} {v : α} (h : excIs x v = true) : x = .ok v := by
  unfold excIs at h; split at h <;> simp_all

/-- The header with an uncounted variable-latency result, and with the guard off. -/
def hoff : Hdr := { h0 with pn := true }

theorem hyps_EncodedInstructionsDecodeBack : wellFormed (.rank h0 .bf16 16 15 (.s 0) (.s 2) (.s 4)) = true := by decide +kernel

theorem hyps_EachWordHasOneMeaning : decodeWord 0 = .ok (.nop ⟨0, false, 0, 0, 0, false⟩) ∧
    decodeWord (wordOfBytes [4, 0xC3, 7, 0, 0x20, 0x10, 0x40, 0x1C, 0, 0, 8, 0]) = .ok (.mma ⟨31, false, 0, 0, 0, false⟩ true true .k32 1 0 2 4 2) :=
  ⟨excIs_eq (by decide +kernel), excIs_eq (by decide +kernel)⟩

/-- The first and the last of each range of unlisted opcodes, at the first slot of a line. -/
theorem hyps_UnlistedOpcodesTrap : [0x01C, 0x040, 0x053, 0x054, 0x05B, 0x07F, 0x08F, 0x09F, 0x0AF, 0x0BF, 0x0CA, 0x0FF, 0x114, 0x13F, 0x146, 0x17F, 0x194, 0x1FF, 0x219,
    0x27F, 0x28A, 0x2FF, 0x30D, 0x3FF].all (fun op => slotWord (leBytes 12 op) (demo.pc.toNat % 5) % 1024 == op) = true := by decide +kernel

theorem hyps_StepRunsTheDecodedInstruction : demo.agenda = [] ∧ (demo.issue exec demo.cur.id.core (demo.cur.id.slot / 16)).2 = some (.nop ⟨0, false, 0, 0, 0, false⟩) ∧
    ({ demo with agenda := [.windowBoundary] } : State).agenda = .windowBoundary :: [] := by decide +kernel

theorem hyps_PlacedInstructionRuns : decodeWord (2 ^ 96 - 1 - (2 ^ 96 - 1)) = .ok (.nop ⟨0, false, 0, 0, 0, false⟩) := excIs_eq (by decide +kernel)

/-- Limits of 16 vector registers: v16 is out of range (0x022); group 0 disabled: 0x009. -/
theorem hyps_FailedChecksTrapBeforeAnyEffect :
    (let s : State := { demo with wg := { demo.wg with kern := { demo.wg.kern with vregs := 16 } } }
     let i : Instr := .mov hoff .b32 (.v 16) (.v 0)
     hdrOf i = some hoff ∧ issueCause (s.checked i) i hoff = some 0x022) ∧
    (let s : State := { demo with mgmt := { demo.mgmt with parts := demo.mgmt.parts.setIfInBounds 0 { demo.part 0 with disable := 1 } } }
     let i : Instr := .accz h0 0
     hdrOf i = some h0 ∧ issueCause (s.checked i) i h0 = some 0x009) := by decide +kernel

theorem hyps_TrapEntry : demo.wg.kern.handler ≠ 0 ∧ demo.cur.trapMode = false ∧ demo.cur.issuing = 0 ∧ demo.cur.stack.length < 32 ∧ demo.roomFor 1 = true := by
  decide +kernel

/-- The demonstration state with its workgroup standing, under key 1. -/
def demoWg : State := { demo with wg := { demo.wg with key := 1, wgsize := 2, kern := { demo.wg.kern with scratch := 4096 } }, cur := { demo.cur with wg := 1 } }

theorem hyps_TrapWithoutHandlerOrTwiceEndsTheWarp :
    (let s : State := { demoWg with wg := { demoWg.wg with kern := { demoWg.wg.kern with handler := 0 } } }
     s.wg.kern.handler = 0 ∧ s.cur.running = true ∧ s.cur.wg = s.wg.key ∧ s.wg.here = true) ∧
    (let s := demo.modCur (fun w => { w with trapMode := true })
     s.wg.kern.handler ≠ 0 ∧ s.cur.trapMode = true ∧ s.sched.saved = []) := by decide +kernel

/-- The demonstration state inside its trap handler. -/
def demoTrap : State := demo.precise 0x070 0

theorem hyps_RettReturnsToTheSavedSlot :
    (clears (.rett h0) h0 demoTrap ∧ lanesOn (.rett h0) h0 demoTrap ≠ 0 ∧ demoTrap.cur.trapMode = true ∧ demoTrap.cur.path.rpc = trapMark ∧ demoTrap.cur.issuing = 0 ∧
      demoTrap.cur.stack ≠ []) ∧
    (clears (.rett h0) h0 demo ∧ lanesOn (.rett h0) h0 demo ≠ 0 ∧ demo.cur.trapMode = false) ∧
    (let s := demo.modCur (fun w => { w with trapMode := true })
     clears (.rett h0) h0 s ∧ lanesOn (.rett h0) h0 s ≠ 0 ∧ s.cur.trapMode = true ∧ s.cur.path.rpc ≠ trapMark) :=
  ⟨⟨clears_of (by decide +kernel), by decide +kernel⟩, ⟨clears_of (by decide +kernel), by decide +kernel⟩, clears_of (by decide +kernel), by decide +kernel⟩

/-- One uncertain result in v3, of latency 4. -/
def demoPend : State := demo.modCur (fun w => { w with pend := [{ reg := .v 3, old := Vector.replicate 128 7, mask := 1, lat := .fixed 0 0 4, path := 0, epc := 0 },
  { reg := .s 5, old := Vector.replicate 128 7, mask := 1, lat := .fixed 0 0 4, path := 0, epc := 0 }] })

theorem hyps_UncertainReadsGiveOldOrNew : certain demoPend (.v 4) ∧
    demoPend.cur.pend.filter (fun q => q.reg == .v 3 && q.uncertain) = [{ reg := .v 3, old := Vector.replicate 128 7, mask := 1, lat := .fixed 0 0 4, path := 0, epc := 0 }] := by
  unfold certain; decide +kernel

theorem hyps_PredicateThirtyOneIsTrue : h0.pg = 31 := rfl

theorem hyps_VectorResultsOnRegisters :
    (let i : Instr := .iadd h0 .b64 false false false (.v 238) (.s 126) .vlane
     (∃ q, vecShape i = some q ∧ q.d = .v 238 ∧ (∀ x ∈ q.srcs, isReg x.1 = true) ∧ q.n = 2) ∧ clears i h0 demo ∧ certain (demo.opened i h0) (.v 238) ∧
       certain (demo.opened i h0) (.v 239)) ∧
    (let i : Instr := .fadd h0 .f32 .rz true true false (.v 239) .vz (.v 239)
     (∃ q, vecShape i = some q ∧ q.d = .v 239 ∧ (∀ x ∈ q.srcs, isReg x.1 = true) ∧ q.n = 1) ∧ clears i h0 demo ∧ certain (demo.opened i h0) (.v 239)) :=
  ⟨⟨⟨_, rfl, rfl, by decide, rfl⟩, clears_of (by decide +kernel), certain_of _ _ _ demo_pend, certain_of _ _ _ demo_pend⟩,
   ⟨_, rfl, rfl, by decide, rfl⟩, clears_of (by decide +kernel), certain_of _ _ _ demo_pend⟩

theorem hyps_VectorTestsOnRegisters : let i : Instr := .icmp h0 .i64 .ge 30 (.v 238) (.s 0)
    (∃ q, testShape i = some q ∧ (∀ x ∈ q.srcs, isReg x.1 = true)) ∧ clears i h0 demo ∧ certain (demo.opened i h0) (.p 30) :=
  ⟨⟨_, rfl, by decide⟩, clears_of (by decide +kernel), certain_of _ _ _ demo_pend⟩

/-- Port 0 is an input port on 4 elements of 32 bits at 0x1000, one of them prefetched; port 1 an output port. -/
def demoRec : List Byte := [0x30, 1, 0, 0, 0, 0, 0, 0, 4, 0, 0, 0] ++ List.replicate 12 0 ++ [4] ++ List.replicate 39 0
def demoPort (mode : PortMode) : Port :=
  { mode := mode, width := 32, packed := true, base := 0x1000, record := demoRec, recAddr := 0x2000, hint := 0, endP := 31, k := 0, pos := 0,
    endSeen := false, deferred := none, pre := [], part := [], peerWarp := 1, peerPort := 0, queue := [], closed := false, discard := false, gone := false, reread := false, epc := 0, pid := 0, binding := 0 }
def demoPorts : State := demo.modCur (fun w => { w with ports := (w.ports.setIfInBounds 0 (some (demoPort .inp))).setIfInBounds 1 (some (demoPort .out)) })

/-- A pop of one element by lane 0, its push to port 1; an unbound port traps. -/
theorem hyps_VectorComputationsOnPorts :
    (let s := lanes demoPorts 1
     let i : Instr := .mov h0 .b32 (.q 1) (.q 0)
     ∃ q, vecShape i = some q ∧ clears i h0 s ∧ (match pull (s.opened i h0) (lanesOn i h0 s) q.srcs with
       | .ok p => (match p.s.putVec q.d q.n (lanesOn i h0 s &&& ~~~p.dead) (Vector.ofFn (fun l : Fin 128 => q.val l (p.vals.map (fun x => x[l])))) (p.s.fixed q.lat) with
         | .ok _ => true
         | _ => false)
       | _ => false) = true) ∧
    (let i : Instr := .mov h0 .b32 (.v 1) (.q 5)
     ∃ q, vecShape i = some q ∧ clears i h0 demo ∧ (match pull (demo.opened i h0) (lanesOn i h0 demo) q.srcs with
       | .trap _ _ _ => true
       | _ => false) = true) ∧
    (let i : Instr := .icmp h0 .b32 .eq 3 (.q 0) (.v 1)
     ∃ q, testShape i = some q ∧ clears i h0 (lanes demoPorts 1) ∧ (match pull ((lanes demoPorts 1).opened i h0) (lanesOn i h0 (lanes demoPorts 1)) q.srcs with
       | .ok _ => true
       | _ => false) = true) :=
  ⟨⟨_, rfl, clears_of (by decide +kernel), by decide +kernel⟩, ⟨_, rfl, clears_of (by decide +kernel), by decide +kernel⟩, _, rfl, clears_of (by decide +kernel), by decide +kernel⟩

theorem hyps_UniformResults :
    (∀ x ∈ [(h0, true), (hoff, false)], let i : Instr := .uadd x.1 .b64 false true false (.s 126) (.s 0) (.s 2)
      (∃ q, uniShape i = some q ∧ q.d = .s 126 ∧ q.n = 2) ∧ ready i x.1 demo = true ∧ decide (lanesOn i x.1 demo ≠ 0) = x.2) ∧
    demoPend.cur.pend.filter (fun q => q.reg == .s (5 : Fin 128) && q.uncertain) = [{ reg := .s 5, old := Vector.replicate 128 7, mask := 1, lat := .fixed 0 0 4, path := 0, epc := 0 }] := by
  refine ⟨fun x hx => ⟨⟨_, rfl, rfl, rfl⟩, ?_⟩, by decide +kernel⟩
  revert x; decide +kernel

theorem hyps_UniformTests : let i : Instr := .ucmp h0 .i64 .lt 30 (.s 126) (.s 0)
    (∃ q, uniTestShape i = some q) ∧ clears i h0 demo ∧ certain (demo.opened i h0) (.p 30) :=
  ⟨⟨_, rfl⟩, clears_of (by decide +kernel), certain_of _ _ _ demo_pend⟩

/-- Every instruction of a list passes its checks in a state, with a header that all of them bear. -/
def allReady (is : List Instr) (h : Hdr) (s : State) : Bool := is.all (fun i => ready i h s)

theorem allReady_vec {is : List Instr} {h : Hdr} {s : State} {i : Instr} {r n : Nat} (a : allReady is h s = true) (m : i ∈ is) (p : s.cur.pend = [])
    (b : r + n ≤ 240) : vecReady s i h r n := vecReady_of (List.all_eq_true.mp a i m) p b

def intForms : List Instr := [.iadd h0 .i64 true true true (.v 238) (.s 0) .vlane, .isub h0 .b8 false (.v 238) .vz (.v 3), .imul h0 .i16 true (.v 238) (.v 1) (.v 2),
  .imad h0 .b32 false true (.v 238) (.v 1) (.v 2) (.s 127), .shl h0 .i8 false (.v 238) (.v 1) (.v 2), .shl h0 .b64 true (.v 238) (.v 0) (.v 5), .shr h0 .i32 (.v 238) (.v 1) (.s 3),
  .sar h0 .b16 (.v 238) (.v 1) (.v 1), .popc h0 .i64 (.v 238) (.v 2), .clz h0 .b8 (.v 238) (.v 1), .bfe h0 .i32 (.v 238) (.v 1) (.v 2), .bfi h0 .b64 (.v 238) (.v 0) (.v 2) (.v 4),
  .bpick h0 (.v 238) (.v 1) (.v 2) (.v 3), .bpickImm h0 (.v 238) (.v 1) 0x10100100, .sel h0 .b64 31 true (.v 238) (.v 2) (.v 4), .selImm h0 .i32 0 false (.v 238) (.v 1) 5,
  .iaddc h0 .b32 30 31 (.v 238) (.v 1) (.v 2), .iaddcImm h0 .b64 31 0 (.v 238) (.v 2) 1, .pmovTov h0 true (.v 238) 31, .pmovSave h0 (.v 238), .pmovLoad h0 (.v 238),
  .plut3 h0 0x96 true false true 30 31 0 1, .vote h0 .uni true 31 30, .lget h0 .rev 6 .b64 30 (.v 238) (.v 0) (.v 3), .lget h0 .abs 0 .b32 31 (.v 238) (.v 0) .vlane,
  .pswap h0 6 true .f64 (.v 238) (.v 0), .pswap h0 0 false .b32 (.v 238) (.v 1), .matchv h0 .b64 30 (.v 238) (.v 0), .lred h0 .xor .rn .b64 (.v 238) (.v 0),
  .scan h0 .min true .ru .f64 (.v 238) (.v 0), .cvt h0 .f64 0 9 .rz false (.v 238) (.v 0), .cvt h0 .e5m2x4 0 14 .rn true (.v 238) (.v 1), .space h0 (.v 238) (.v 0),
  .cvta h0 true .spad (.v 238) (.v 0)]

theorem intForms_ready : allReady intForms h0 demo = true := by decide +kernel

theorem hyps_IntegerSumsAndProducts : Ty.isInt .i64 = true ∧ isReg .vlane = true ∧ vecReady demo (.iadd h0 .i64 true true true (.v 238) (.s 0) .vlane) h0 238 (tyRegs .i64) ∧
    vecReady demo (.isub h0 .b8 false (.v 238) .vz (.v 3)) h0 238 (tyRegs .b8) ∧ vecReady demo (.imul h0 .i16 true (.v 238) (.v 1) (.v 2)) h0 238 (tyRegs .i16) ∧
    vecReady demo (.imad h0 .b32 false true (.v 238) (.v 1) (.v 2) (.s 127)) h0 238 (tyRegs .b32) :=
  ⟨rfl, rfl, allReady_vec intForms_ready (by decide) demo_pend (by decide), allReady_vec intForms_ready (by decide) demo_pend (by decide),
   allReady_vec intForms_ready (by decide) demo_pend (by decide), allReady_vec intForms_ready (by decide) demo_pend (by decide)⟩

theorem hyps_ShiftResults : vecReady demo (.shl h0 .i8 false (.v 238) (.v 1) (.v 2)) h0 238 (tyRegs .i8) ∧ vecReady demo (.shl h0 .b64 true (.v 238) (.v 0) (.v 5)) h0 238 (tyRegs .b64) ∧
    vecReady demo (.shr h0 .i32 (.v 238) (.v 1) (.s 3)) h0 238 (tyRegs .i32) ∧ vecReady demo (.sar h0 .b16 (.v 238) (.v 1) (.v 1)) h0 238 (tyRegs .b16) :=
  ⟨allReady_vec intForms_ready (by decide) demo_pend (by decide), allReady_vec intForms_ready (by decide) demo_pend (by decide),
   allReady_vec intForms_ready (by decide) demo_pend (by decide), allReady_vec intForms_ready (by decide) demo_pend (by decide)⟩

theorem hyps_PopulationAndLeadingZeros : vecReady demo (.popc h0 .i64 (.v 238) (.v 2)) h0 238 1 ∧ vecReady demo (.clz h0 .b8 (.v 238) (.v 1)) h0 238 1 :=
  ⟨allReady_vec intForms_ready (by decide) demo_pend (by decide), allReady_vec intForms_ready (by decide) demo_pend (by decide)⟩

theorem hyps_BitFields : vecReady demo (.bfe h0 .i32 (.v 238) (.v 1) (.v 2)) h0 238 (tyRegs .i32) ∧ vecReady demo (.bfi h0 .b64 (.v 238) (.v 0) (.v 2) (.v 4)) h0 238 (tyRegs .b64) :=
  ⟨allReady_vec intForms_ready (by decide) demo_pend (by decide), allReady_vec intForms_ready (by decide) demo_pend (by decide)⟩

theorem hyps_BytePicks : vecReady demo (.bpick h0 (.v 238) (.v 1) (.v 2) (.v 3)) h0 238 1 ∧ vecReady demo (.bpickImm h0 (.v 238) (.v 1) 0x10100100) h0 238 1 :=
  ⟨allReady_vec intForms_ready (by decide) demo_pend (by decide), allReady_vec intForms_ready (by decide) demo_pend (by decide)⟩

theorem hyps_SelectsAndCarries : vecReady demo (.sel h0 .b64 31 true (.v 238) (.v 2) (.v 4)) h0 238 (tyRegs .b64) ∧ vecReady demo (.selImm h0 .i32 0 false (.v 238) (.v 1) 5) h0 238 (tyRegs .i32) ∧
    (Ty.isB .b32 = true ∧ vecReady demo (.iaddc h0 .b32 30 31 (.v 238) (.v 1) (.v 2)) h0 238 (tyRegs .b32) ∧ certain (demo.opened (.iaddc h0 .b32 30 31 (.v 238) (.v 1) (.v 2)) h0) (.p 31)) ∧
    (Ty.isB .b64 = true ∧ vecReady demo (.iaddcImm h0 .b64 31 0 (.v 238) (.v 2) 1) h0 238 (tyRegs .b64) ∧ certain (demo.opened (.iaddcImm h0 .b64 31 0 (.v 238) (.v 2) 1) h0) (.p 0)) :=
  ⟨allReady_vec intForms_ready (by decide) demo_pend (by decide), allReady_vec intForms_ready (by decide) demo_pend (by decide),
   ⟨rfl, allReady_vec intForms_ready (by decide) demo_pend (by decide), certain_of _ _ _ demo_pend⟩,
   rfl, allReady_vec intForms_ready (by decide) demo_pend (by decide), certain_of _ _ _ demo_pend⟩

theorem hyps_PredicateMoves : clears (.plut3 h0 0x96 true false true 30 31 0 1) h0 demo ∧ vecReady demo (.pmovTov h0 true (.v 238) 31) h0 238 1 ∧
    vecReady demo (.pmovSave h0 (.v 238)) h0 238 1 ∧ (clears (.pmovLoad h0 (.v 238)) h0 demo ∧ ∀ k < 31, certain (demo.opened (.pmovLoad h0 (.v 238)) h0) (.p k)) ∧
    clears (.vote h0 .uni true 31 30) h0 demo ∧ (clears (.ballot h0 true (.s 124) 31) h0 demo ∧ ∀ k < 4, certain (demo.opened (.ballot h0 true (.s 124) 31) h0) (.s (124 + k))) :=
  ⟨clears_of (by decide +kernel), allReady_vec intForms_ready (by decide) demo_pend (by decide), allReady_vec intForms_ready (by decide) demo_pend (by decide),
   ⟨clears_of (by decide +kernel), fun _ _ => certain_of _ _ _ demo_pend⟩, clears_of (by decide +kernel), clears_of (by decide +kernel), fun _ _ => certain_of _ _ _ demo_pend⟩

/-- VOTE .all of p31: true in every active lane; negated: false. -/
theorem hyps_PredicateMoves_votes : (∀ l : Fin 128, (demo.readP 31).getLsbD l = true) ∧ ∀ l : Fin 128, ((demo.readP 31).getLsbD l != true) = false := by decide +kernel

theorem hyps_LaneMoves : vecReady demo (.lget h0 .rev 6 .b64 30 (.v 238) (.v 0) (.v 3)) h0 238 (tyRegs .b64) ∧ vecReady demo (.lget h0 .abs 0 .b32 31 (.v 238) (.v 0) .vlane) h0 238 (tyRegs .b32) ∧
    (Ty.isSwap .f64 = true ∧ vecReady demo (.pswap h0 6 true .f64 (.v 238) (.v 0)) h0 238 (tyRegs .f64)) ∧ vecReady demo (.pswap h0 0 false .b32 (.v 238) (.v 1)) h0 238 (tyRegs .b32) :=
  ⟨allReady_vec intForms_ready (by decide) demo_pend (by decide), allReady_vec intForms_ready (by decide) demo_pend (by decide),
   ⟨rfl, allReady_vec intForms_ready (by decide) demo_pend (by decide)⟩, allReady_vec intForms_ready (by decide) demo_pend (by decide)⟩

theorem hyps_MatchGroupsLanes : vecReady demo (.matchv h0 .b64 30 (.v 238) (.v 0)) h0 238 1 ∧ certain (demo.opened (.matchv h0 .b64 30 (.v 238) (.v 0)) h0) (.p 30) :=
  ⟨allReady_vec intForms_ready (by decide) demo_pend (by decide), certain_of _ _ _ demo_pend⟩

theorem hyps_LaneTrees : vecReady demo (.lred h0 .xor .rn .b64 (.v 238) (.v 0)) h0 238 (tyRegs .b64) ∧ uniReady demo (.lred h0 .max .rn .f64 (.s 126) (.v 0)) h0 126 (tyRegs .f64) ∧
    vecReady demo (.scan h0 .min true .ru .f64 (.v 238) (.v 0)) h0 238 (tyRegs .f64) :=
  ⟨allReady_vec intForms_ready (by decide) demo_pend (by decide), uniReady_of (by decide +kernel) demo_pend, allReady_vec intForms_ready (by decide) demo_pend (by decide)⟩

/-- The four clauses: a scalar pair, a packed pair, packing from four registers, unpacking to eight. -/
theorem hyps_Conversions :
    (clears (.cvt h0 .f64 0 9 .rz false (.v 238) (.v 0)) h0 demo ∧ kindElems (cvtKind .f64 0) = 0 ∧ 238 + kindRegs (cvtKind .f64 0) ≤ 240) ∧
    (clears (.cvt h0 .e5m2x4 0 14 .rn true (.v 238) (.v 1)) h0 demo ∧ kindElems (cvtKind .e5m2x4 0) ≠ 0) ∧
    (clears (.cvt h0 .e4m3x4 0 8 .rn true (.v 239) (.v 236)) h0 demo ∧ kindElems (cvtKind .e4m3x4 0) ≠ 0) ∧
    (clears (.cvt h0 .f32 0 20 .rn false (.v 232) (.v 1)) h0 demo ∧ kindElems 20 ≠ 0 ∧ kindElems 20 ≤ 8 ∧ 232 + kindElems 20 ≤ 240) :=
  ⟨⟨clears_of (by decide +kernel), by decide⟩, ⟨clears_of (by decide +kernel), by decide⟩, ⟨clears_of (by decide +kernel), by decide⟩, clears_of (by decide +kernel), by decide⟩

/-- READL from lane 127; the first form; the guard off. -/
theorem hyps_ReadLaneToUniform : uniReady (setS demo 0 0xFF) (.readl h0 .b64 (.s 126) (.v 0) (.s 0)) h0 126 (tyRegs .b64) ∧
    uniReady demo (.readlFirst h0 .b32 (.s 127) (.v 239)) h0 127 (tyRegs .b32) ∧ (Mask.lanes (lanesOn (.readlFirst h0 .b32 (.s 127) (.v 239)) h0 demo)).head? = some 0 ∧
    uniReady demo (.readlFirst hoff .b32 (.s 127) (.v 239)) hoff 127 (tyRegs .b32) ∧ lanesOn (.readlFirst hoff .b32 (.s 127) (.v 239)) hoff demo = 0 :=
  ⟨uniReady_of (by decide +kernel) rfl, uniReady_of (by decide +kernel) demo_pend, by decide +kernel, uniReady_of (by decide +kernel) demo_pend, by decide +kernel⟩

/-- Lanes 0–3 hold p1. -/
def demoP : State := demo.modCur (fun w => { w with p := w.p.setIfInBounds 1 0xF })

/-- The demonstration warp on its second slot, inside a call from the slot before it. -/
def demoCall : State := match exec (.call h0 4) demo with
  | .next t => t
  | _ => demo

/-- A uniform branch of no lane, of all lanes, of some lanes with and without the form .u, with and without a reconvergence displacement. -/
theorem hyps_BranchesSplitAndRejoin : demoP.cur.issuing = 0 ∧
    (clears (.bra hoff false 31 false 5 9) hoff demoP ∧ lanesOn (.bra hoff false 31 false 5 9) hoff demoP = 0) ∧
    (clears (.bra h0 true 31 false 0x7FFFFF 9) h0 demoP ∧ lanesOn (.bra h0 true 31 false 0x7FFFFF 9) h0 demoP = Mask.full ∧
      demoP.cur.em &&& ~~~Mask.full = 0) ∧
    (clears (.bra h0 true 1 false 5 9) h0 demoP ∧ lanesOn (.bra h0 true 1 false 5 9) h0 demoP &&& (demoP.opened (.bra h0 true 1 false 5 9) h0).readP 1 = 0xF ∧
      demoP.cur.em &&& ~~~(0xF#128) ≠ 0) ∧
    (clears (.bra h0 false 1 true 5 0) h0 demoP ∧ lanesOn (.bra h0 false 1 true 5 0) h0 demoP &&& ~~~(demoP.opened (.bra h0 false 1 true 5 0) h0).readP 1 ≠ 0) ∧
    (clears (.bra h0 false 1 false 0x800000 0xFFFF) h0 demoP ∧ demoP.pc + (0xFFFF : BitVec 16).signExtend 64 ≠ demoP.cur.path.rpc ∧ demoP.cur.spilled = 0 ∧
      demoP.cur.stack.length ≤ 29 ∧ demoP.cur.stack = []) ∧
    (let s := setV (setV demoP 2 (fun l => BitVec.ofNat 32 (20480 + l % 2))) 3 (fun _ => 0)
     let i : Instr := .brx h0 false true 31 false (.v 2) 9
     clears i h0 s ∧ laneSrc s i h0 (.v 2) 2 1 ≠ laneSrc s i h0 (.v 2) 2 0) :=
  ⟨by decide +kernel, ⟨clears_of (by decide +kernel), by decide +kernel⟩, ⟨clears_of (by decide +kernel), by decide +kernel⟩, ⟨clears_of (by decide +kernel), by decide +kernel⟩,
   ⟨clears_of (by decide +kernel), by decide +kernel⟩, ⟨clears_of (by decide +kernel), by decide +kernel⟩, clears_of (by decide +kernel), by decide +kernel⟩

theorem hyps_CallsReturnsBreaksAndExits : demo.cur.issuing = 0 ∧
    (clears (.call h0 0x800000) h0 demo ∧ lanesOn (.call h0 0x800000) h0 demo ≠ 0 ∧ demo.cur.spilled = 0 ∧ demo.cur.stack.length ≤ 30) ∧
    (clears (.callInd hoff (.s 126)) hoff demo ∧ lanesOn (.callInd hoff (.s 126)) hoff demo = 0) ∧
    (demoCall.cur.issuing = 0 ∧ clears (.ret h0 31 false) h0 demoCall ∧ demoCall.cur.stack.findIdx? (fun p => p.rpc == callMark) = some 0) ∧
    (clears (.breakp h0 31 false 0xFFFFFD) h0 demoCall ∧ demoCall.cur.stack.findIdx? (fun p => p.isRec && p.pc == demoCall.pc + (0xFFFFFD : BitVec 24).signExtend 64) = some 1) ∧
    (clears (.exit h0) h0 (lanes demo 1) ∧ (lanes demo 1).cur.exited ||| lanesOn (.exit h0) h0 (lanes demo 1) ≠ Mask.full) ∧
    (clears (.exit h0) h0 demo ∧ demo.cur.exited ||| lanesOn (.exit h0) h0 demo = Mask.full ∧ demo.cur.ports = Vector.replicate 8 none) ∧
    (clears (.movemRd h0 (.s 124)) h0 demo ∧ lanesOn (.movemRd h0 (.s 124)) h0 demo ≠ 0 ∧ ∀ k < 4, certain (demo.opened (.movemRd h0 (.s 124)) h0) (.s (124 + k))) ∧
    (clears (.movemWr h0 (.s 0)) h0 (setS demo 3 1) ∧ lanesOn (.movemWr h0 (.s 0)) h0 (setS demo 3 1) ≠ 0) ∧
    (clears (.movemWr h0 (.s 0)) h0 demo ∧ (demo.cur.em &&& ~~~(demo.cur.path.creation &&& ~~~demo.cur.exited)) = 0) :=
  ⟨by decide +kernel, ⟨clears_of (by decide +kernel), by decide +kernel⟩, ⟨clears_of (by decide +kernel), by decide +kernel⟩,
   ⟨by decide +kernel, clears_of (by decide +kernel), by decide +kernel⟩, ⟨clears_of (by decide +kernel), by decide +kernel⟩,
   ⟨clears_of (by decide +kernel), by decide +kernel⟩, ⟨clears_of (by decide +kernel), by decide +kernel⟩,
   ⟨clears_of (by decide +kernel), by decide +kernel, fun _ _ => certain_of _ _ _ demo_pend⟩, ⟨clears_of (by decide +kernel), by decide +kernel⟩,
   clears_of (by decide +kernel), by decide +kernel⟩

/-- A split warp: two live paths. -/
def demoSplit : State := match exec (.bra h0 false 1 false 5 9) demoP with
  | .next t => t
  | _ => demo

theorem hyps_BarriersArriveAndWait :
    (clears (.bar h0 .sync .dev 15 31) h0 demoWg ∧ lanesOn (.bar h0 .sync .dev 15 31) h0 demoWg ≠ 0 ∧ demoWg.cur.twoLive = false ∧ demoWg.wg.wgsize < 31) ∧
    (clears (.bar h0 .arrive .wg 0 1) h0 demoSplit ∧ lanesOn (.bar h0 .arrive .wg 0 1) h0 demoSplit ≠ 0 ∧ demoSplit.cur.twoLive = true) ∧
    (∀ m ∈ [BarMode.sync, .arrive, .wait], ready (.bar h0 m .gang 15 2) h0 demoWg = true ∧ 2 ≤ demoWg.wg.wgsize ∧ (demoWg.wg.bars.getD 15 Barrier.blank).count = 0 ∧
      (demoWg.wg.bars.getD 15 Barrier.blank).phase < 65536) ∧
    (let s := { demoWg with wg := { demoWg.wg with bars := demoWg.wg.bars.setIfInBounds 3 { Barrier.blank with count := 1, n := some 1 } } }
     ready (.bar h0 .wait .dev 3 2) h0 s = true ∧ 2 ≤ s.wg.wgsize ∧ 0 < (s.wg.bars.getD 3 Barrier.blank).count ∧ (s.wg.bars.getD 3 Barrier.blank).n ≠ some 2) ∧
    (clears (.barg h0 .arrive .dev 7) h0 demoWg ∧ demoWg.converged (lanesOn (.barg h0 .arrive .dev 7) h0 demoWg) = true) ∧
    (clears (.barg hoff .arrive .gang 0) hoff demoWg ∧ demoWg.converged (lanesOn (.barg hoff .arrive .gang 0) hoff demoWg) = false) :=
  ⟨⟨clears_of (by decide +kernel), by decide +kernel⟩, ⟨clears_of (by decide +kernel), by decide +kernel⟩, by decide +kernel, by decide +kernel,
   ⟨clears_of (by decide +kernel), by decide +kernel⟩, clears_of (by decide +kernel), by decide +kernel⟩

/-- Queue 5 is open for partition 0, and holds some records; lane 7 launches the record at 0x1000. -/
def demoQueue (n : Nat) : State :=
  let s := { demoWg with mgmt := { demoWg.mgmt with queues := demoWg.mgmt.queues.setIfInBounds 5 { depth := 4, prio := 3, part := 0, isOpen := true, full := false } },
                         sched := { demoWg.sched with queues := [(5, List.replicate n ⟨[], 0⟩)] } }
  setV (setV (setV (lanes s 0x80) 2 (fun _ => 0x1000)) 3 (fun _ => 0)) 4 (fun _ => 5)

theorem hyps_LaunchAndCancel :
    (∀ n ∈ [15, 16], let s := demoQueue n
      let i : Instr := .launch h0 6 (.v 2) (.v 4)
      ready i h0 s = true ∧ Mask.lanes (lanesOn i h0 s) = [7] ∧
      okIs (launchTargets (s.opened i h0) (fun l => laneSrc s i h0 (.v 2) 2 l) [7]) [(7, .loc (hbmLoc 0 0x201000) 0)] = true ∧
      (laneSrc s i h0 (.v 4) 1 7).toNat % 256 = 5 ∧ (s.mgmt.queues.getD 5 QReg.blank).isOpen = true ∧ (s.mgmt.queues.getD 5 QReg.blank).part = s.wg.part ∧
      (((s.sched.queues.find? (fun x => x.1 == 5)).map (·.2)).getD []).length = n) ∧
    (clears (.launch hoff 6 (.v 2) (.v 4)) hoff demo ∧ lanesOn (.launch hoff 6 (.v 2) (.v 4)) hoff demo = 0) ∧
    (∀ lv ∈ [Level.wgrp, .gang, .launch], ready (.cancel h0 lv) h0 demoWg = true ∧ lanesOn (.cancel h0 lv) h0 demoWg ≠ 0 ∧ demoWg.cur.wg = demoWg.wg.key ∧ demoWg.wg.here = true) ∧
    (clears (.cancelId h0 .graph (.s 0)) h0 demo ∧ lanesOn (.cancelId h0 .graph (.s 0)) h0 demo ≠ 0 ∧ demo.sched.launches = [] ∧ demo.sched.queues = [] ∧ demo.sched.pool = []) :=
  ⟨by decide +kernel, ⟨clears_of (by decide +kernel), by decide +kernel⟩, by decide +kernel, clears_of (by decide +kernel), by decide +kernel⟩

theorem hyps_WaitsTimeAndSpecialRegisters :
    allReady [.nop h0, .yieldw h0, .sleep h0 0xFFFFFF, .sleepWatch h0 (.s 0) 0, .syscall h0 (.s 127) (.s 0) 0xFFFF, .trap h0 15, .idend h0, .time h0 .win (.s 126),
      .movsr h0 0 (.s 127), .movsr h0 12 (.s 127), .movsr h0 13 (.s 126), .movsr h0 14 (.s 0), .movsr h0 10 (.s 0)] h0 demo = true ∧ allReady [.setsr h0 12 (.s 0), .setsr h0 13 (.s 0), .setsr h0 14 (.s 0)] h0 demoTrap = true ∧ lanesOn (.setsr h0 12 (.s 0)) h0 demoTrap ≠ 0 ∧
    (lanesOn (.nop h0) h0 demo ≠ 0 ∧ demo.converged (lanesOn (.nop h0) h0 demo) = true ∧ demo.converged (lanesOn (.syscall hoff (.s 0) (.s 0) 1) hoff demo) = false ∧
      demo.cur.pend = []) ∧
    (window 0x1000 = .glob 0x1000 ∧ excIs (translate demo demo.wg.part 0x1000) ⟨0x20001F, 21, hbmLoc 0 0x4000⟩ = true) ∧
    ((demoTrap.opened (.setsr h0 13 (.s 0)) h0).readUni (.s 0) 2).toNat / 5 * 64 < 2 ^ 56 ∧
    (let s := setS (setS demoTrap 0 0xFFFFFFFF) 1 0xFFFFFFFF
     ready (.setsr h0 13 (.s 0)) h0 s = true ∧ 2 ^ 56 ≤ ((s.opened (.setsr h0 13 (.s 0)) h0).readUni (.s 0) 2).toNat / 5 * 64) := by decide +kernel

theorem not_frozen {s : State} (h : s.mem.frz = Vector.replicate 64 FrzEntry.blank) (l : Nat) : s.mem.frozen l = false := by
  simp [MemSys.frozen, h, FrzEntry.active, FrzEntry.blank]

theorem plain_loc {s : State} (h : s.mem.frz = Vector.replicate 64 FrzEntry.blank) (p : s.mem.poison = []) (o : s.mem.home = []) (l : Nat)
    (b : l < cwBase) : s.plain (.loc l 0) :=
  ⟨by simp [State.noDrops, o], rfl, b, by simp [MemSys.poisonOf, p], by simp [MemSys.homeLine, o], fun _ _ => ⟨not_frozen h _, not_frozen h _⟩⟩

/-- Lane 0 alone, with the address 0x100 in s4:s5. -/
def demo1 : State := lanes (setS demo 4 0x100) 1
/-- Lane 127 alone, with an address in the scratchpad of core 0 in s4:s5, in a workgroup of 4,096 bytes of scratchpad. -/
def demoSpad : State := setS (setS (lanes demoWg (1#128 <<< 127)) 4 0xFFC) 5 0x7D000000

/-- A load of device memory; the last word of the scratchpad, with its line empty and full; one through a page that is not mapped; LDU with the guard on and off. -/
theorem hyps_LoadsReturnTheStoredBytes :
    (let i : Instr := .ld h0 .glob .w32 .wg 0 false 0 (.v 2) (.s 4)
     vecReady demo1 i h0 2 (szRegs .w32) ∧ checkLanes (demo1.opened i h0) (plainAccess false .glob .w32 false) (laneAddr demo1 i h0 (.s 4) 0) (Mask.lanes (lanesOn i h0 demo1)) =
       .ok [(0, .loc (hbmLoc 0 0x200100) 0)] ∧ demo1.plain (.loc (hbmLoc 0 0x200100) 0) ∧ Target.aligned (szBytes .w32) (.loc (hbmLoc 0 0x200100) 0) ∧
       demo1.mem.copies = []) ∧
    (let i : Instr := .ld h0 .spad .w32 .wg 0 true 0 (.v 2) (.s 4)
     vecReady demoSpad i h0 2 (szRegs .w32) ∧ checkLanes (demoSpad.opened i h0) (plainAccess false .spad .w32 true) (laneAddr demoSpad i h0 (.s 4) 0) (Mask.lanes (lanesOn i h0 demoSpad)) =
       .ok [(127, .spad 1 0xFFC)] ∧ demoSpad.plain (.spad 1 0xFFC) ∧ demoSpad.lineFull 1 31 = false ∧
       (let s : State := { demoSpad with wg := { demoSpad.wg with full := [31] } }
        vecReady s i h0 2 (szRegs .w32) ∧ s.lineFull 1 31 = true)) ∧
    (let i : Instr := .ld h0 .glob .w64 .wg 0 false 0x7FFFF (.v 2) (.s 4)
     vecReady demo1 i h0 2 (szRegs .w64) ∧ checkLanes (demo1.opened i h0) (plainAccess false .glob .w64 false) (laneAddr demo1 i h0 (.s 4) 0x7FFFF) (Mask.lanes (lanesOn i h0 demo1)) =
       .fault 0x0A4 0x800FF) ∧
    (let i : Instr := .ldu h0 .glob .w64 .dev 0 0x7FF00 (.s 126) (.s 4)
     uniReady demo1 i h0 126 (szRegs .w64) ∧ (Mask.lanes (lanesOn i h0 demo1)).head? = some 0 ∧
       checkLanes (demo1.opened i h0) (plainAccess false .glob .w64 false) (fun _ => laneAddr demo1 i h0 (.s 4) 0x7FF00 0) [0] = .ok [(0, .loc (hbmLoc 0 0x280000) 0)]) ∧
    (uniReady demo1 (.ldu hoff .glob .w64 .dev 0 0 (.s 126) (.s 4)) hoff 126 (szRegs .w64) ∧ lanesOn (.ldu hoff .glob .w64 .dev 0 0 (.s 126) (.s 4)) hoff demo1 = 0) :=
  ⟨⟨vecReady_of (by decide +kernel) rfl (by decide), okIs_eq (by decide +kernel), plain_loc rfl rfl rfl _ (by decide +kernel), by unfold Target.aligned; decide +kernel, rfl⟩,
   ⟨vecReady_of (by decide +kernel) rfl (by decide), okIs_eq (by decide +kernel), fun _ h => by cases h; rfl, by decide +kernel, vecReady_of (by decide +kernel) rfl (by decide), by decide +kernel⟩,
   ⟨vecReady_of (by decide +kernel) rfl (by decide), faultIs_eq (by decide +kernel)⟩,
   ⟨uniReady_of (by decide +kernel) rfl, by decide +kernel, okIs_eq (by decide +kernel)⟩, uniReady_of (by decide +kernel) rfl, by decide +kernel⟩

theorem demo_canonical : demo.Canonical := by
  refine ⟨by unfold Memory.wf; decide +kernel, ?_, by intro p hp; simp [demo, State.withFetchWord, placed, State.reset, Sched.reset] at hp⟩
  intro g hg
  simp only [demo, State.withFetchWord, placed, State.reset, State.allWgs, List.mem_singleton] at hg
  subst hg; exact ⟨rfl, rfl, rfl⟩

/-- Lane 0's line is frozen: entry 63 is installed. -/
def frozenEntry : FrzEntry := { FrzEntry.blank with state := .installed, sc := 2, gen := 5, ranges := [(hbmLoc 0 0x200000, 4096)] }
def demoFrozen : State := { demo1 with mem := { demo1.mem with frz := demo1.mem.frz.setIfInBounds 63 frozenEntry } }

theorem hyps_StoresWriteTheirBytes :
    (let i : Instr := .st h0 .glob .zx8 0 false 0 (.s 4) (.v 1)
     clears i h0 demo1 ∧ checkLanes (demo1.opened i h0) (plainAccess true .glob .zx8 false) (laneAddr demo1 i h0 (.s 4) 0) (Mask.lanes (lanesOn i h0 demo1)) =
       .ok [(0, .loc (hbmLoc 0 0x200100) 0)] ∧ demo1.plain (.loc (hbmLoc 0 0x200100) 0) ∧ (Target.cells 1 (.loc (hbmLoc 0 0x200100) 0)).Nodup ∧
       (lanes demo 1).Canonical) ∧
    (let i : Instr := .st h0 .spad .w32 0 true 0 (.s 4) .vlane
     clears i h0 demoSpad ∧ checkLanes (demoSpad.opened i h0) (plainAccess true .spad .w32 true) (laneAddr demoSpad i h0 (.s 4) 0) (Mask.lanes (lanesOn i h0 demoSpad)) =
       .ok [(127, .spad 1 0xFFC)] ∧ Target.feLine (.spad 1 0xFFC) = [(1, 31)] ∧ (demoSpad.wgOf 1).isSome = true) ∧
    (let i : Instr := .st h0 .spad .w64 0 false 0xFFFF8 (.s 4) (.v 2)
     clears i h0 demoSpad ∧ checkLanes (demoSpad.opened i h0) (plainAccess true .spad .w64 false) (laneAddr demoSpad i h0 (.s 4) 0xFFFF8) (Mask.lanes (lanesOn i h0 demoSpad)) =
       .fault 0x0AC 0x7D00000000000FF4) ∧
    (let i : Instr := .st h0 .glob .w32 0 false 0 (.s 4) (.v 1)
     clears i h0 demoFrozen ∧ checkLanes (demoFrozen.opened i h0) (plainAccess true .glob .w32 false) (laneAddr demoFrozen i h0 (.s 4) 0) (Mask.lanes (lanesOn i h0 demoFrozen)) =
       .ok [(0, .loc (hbmLoc 0 0x200100) 0)] ∧
       [((0, .loc (hbmLoc 0 0x200100) 0) : Nat × Target)].find? (fun q => demoFrozen.frozenRange 4 q.2) = some (0, .loc (hbmLoc 0 0x200100) 0) ∧
       demoFrozen.cur.status = .running ∧ demoFrozen.cur.pendFaults.length < 8) :=
  ⟨⟨clears_of (by decide +kernel), okIs_eq (by decide +kernel), plain_loc rfl rfl rfl _ (by decide +kernel), by decide +kernel, demo_canonical⟩,
   ⟨clears_of (by decide +kernel), okIs_eq (by decide +kernel), by decide +kernel⟩, ⟨clears_of (by decide +kernel), faultIs_eq (by decide +kernel)⟩,
   clears_of (by decide +kernel), okIs_eq (by decide +kernel), by decide +kernel⟩

theorem hyps_AtomicsActInLaneOrder :
    (let i : Instr := .atom h0 .fadd .glob .w32 .dev 0x40 (.v 8) (.s 4) (.v 9)
     vecReady demo1 i h0 8 (szRegs .w32) ∧ checkLanes (demo1.opened i h0) (atomAccess .glob .w32 .dev) (laneAddr demo1 i h0 (.s 4) 0x40) (Mask.lanes (lanesOn i h0 demo1)) =
       .ok [(0, .loc (hbmLoc 0 0x200140) 0)] ∧ demo1.plain (.loc (hbmLoc 0 0x200140) 0)) ∧
    clears (.red h0 .umax .glob .w64 .job 0 (.s 4) (.v 2)) h0 demo1 ∧ vecReady demo1 (.cas h0 .glob .w64 .wg 0 (.v 238) (.s 4) (.v 236)) h0 238 (szRegs .w64) ∧
    (let i : Instr := .red h0 .add .glob .w32 .dev 0 (.s 4) (.v 9)
     clears i h0 demoFrozen ∧ checkLanes (demoFrozen.opened i h0) (atomAccess .glob .w32 .dev) (laneAddr demoFrozen i h0 (.s 4) 0) (Mask.lanes (lanesOn i h0 demoFrozen)) =
       .ok [(0, .loc (hbmLoc 0 0x200100) 0)] ∧ demoFrozen.frozenRange 4 (.loc (hbmLoc 0 0x200100) 0) = true) :=
  ⟨⟨vecReady_of (by decide +kernel) rfl (by decide), okIs_eq (by decide +kernel), plain_loc rfl rfl rfl _ (by decide +kernel)⟩, clears_of (by decide +kernel),
   vecReady_of (by decide +kernel) rfl (by decide), clears_of (by decide +kernel), okIs_eq (by decide +kernel), by decide +kernel⟩

theorem hyps_FencesCompleteOrWait : allReady [.fence h0 .acqrel .wg, .fence h0 .rel .pod, .fence h0 .acq .job, .fence h0 .acqrel .host] h0 demo = true ∧
    lanesOn (.fence h0 .acqrel .wg) h0 demo ≠ 0 ∧ lanesOn (.fence hoff .acqrel .job) hoff demo = 0 ∧ demo.host.linkUp = true ∧ demo.fab.ops = [] ∧ demo.mgmt.timeHeld = true ∧
    demo.cur.status = .running ∧ demo.cur.pendFaults.length < 8 ∧ ({ demo with host := { demo.host with linkUp := false } } : State).host.linkUp = false ∧
    ready (.fence h0 .acq .host) h0 { demo with host := { demo.host with linkUp := false } } = true := by decide +kernel

/-- The low 2 MiB as a host-shared region: its leaf's OWN field is `own` (0 not shared, 1 processor, 2 accelerator). -/
def demoOwn (own : Nat) : State := { demo1 with mem := { demo1.mem with mem := Store.setN demo1.mem.mem (hbmLoc 0 0x4000) (leBytes 8 (0x20001F + 64 * own)) } }

theorem hyps_CacheOperationsMoveNoData : clears (.pref h0 .gen 7 true 0 (.s 4)) h0 demo1 ∧
    (∀ x ∈ [(Instr.cflush h0 .glob 0 (.s 4), false, false), (.cinv h0 .glob .wg 0 (.s 4), false, false), (.cinv h0 .glob .dev 0 (.s 4), true, false)],
      ready x.1 h0 demo1 = true ∧ okIs (checkLanes (demo1.opened x.1 h0) (cacheAccess .glob x.2.1 x.2.2) (laneAddr demo1 x.1 h0 (.s 4) 0) (Mask.lanes (lanesOn x.1 h0 demo1)))
        [(0, .loc (hbmLoc 0 0x200100) 0)] = true ∧ window (laneAddr demo1 x.1 h0 (.s 4) 0 0) = .glob 0x100) ∧
    (let s := demoOwn 2
     let i : Instr := .hflush h0 .glob 0 (.s 4)
     s.host.linkUp = true ∧ clears i h0 s ∧ checkLanes (s.opened i h0) (cacheAccess .glob false true) (laneAddr s i h0 (.s 4) 0) (Mask.lanes (lanesOn i h0 s)) =
       .ok [(0, .loc (hbmLoc 0 0x200100) 0)]) ∧
    isDram (hbmLoc 0 0x200100) = true ∧ demo1.mem.home = [] ∧
    (clears (.cflush h0 .gen 0 (.s 4)) h0 demoSpad ∧ Mask.lanes (lanesOn (.cflush h0 .gen 0 (.s 4)) h0 demoSpad) = [127] ∧
      window (laneAddr demoSpad (.cflush h0 .gen 0 (.s 4)) h0 (.s 4) 0 127) = .spad 0 0xFFC) :=
  ⟨clears_of (by decide +kernel), by decide +kernel, ⟨rfl, clears_of (by decide +kernel), okIs_eq (by decide +kernel)⟩, by decide +kernel, rfl, clears_of (by decide +kernel), by decide +kernel⟩

theorem hyps_SpaceOfAnAddress : vecReady demo1 (.space h0 (.v 239) (.s 4)) h0 239 1 ∧
    uniReady demo1 (.space h0 (.s 127) (.s 4)) h0 127 1 ∧ lanesOn (.space h0 (.s 127) (.s 4)) h0 demo1 ≠ 0 :=
  ⟨vecReady_of (by decide +kernel) rfl (by decide), uniReady_of (by decide +kernel) rfl, by decide +kernel⟩

/-- A conversion to the scratchpad of an offset below 2^48, and of 2^48; from another core's window; of a global address to the private space. -/
theorem hyps_AddressConversions : vecReady demo1 (.cvta h0 true .spad (.v 2) (.s 4)) h0 2 2 ∧ (laneSrc demo1 (.cvta h0 true .spad (.v 2) (.s 4)) h0 (.s 4) 2 0).toNat < 2 ^ 48 ∧
    uniReady demo1 (.cvta h0 false .glob (.s 126) (.s 4)) h0 126 2 ∧ lanesOn (.cvta h0 false .glob (.s 126) (.s 4)) h0 demo1 ≠ 0 ∧
    (laneSrc demo1 (.cvta h0 false .glob (.s 126) (.s 4)) h0 (.s 4) 2 0).toNat / 2 ^ 56 = 0 ∧
    (let s := setS demo1 5 0x10000
     vecReady s (.cvta h0 true .spad (.v 2) (.s 4)) h0 2 2 ∧ 2 ^ 48 ≤ (laneSrc s (.cvta h0 true .spad (.v 2) (.s 4)) h0 (.s 4) 2 0).toNat) ∧
    (let s := setS demo1 5 0x7D010000
     vecReady s (.cvta h0 false .spad (.v 2) (.s 4)) h0 2 2 ∧ (laneSrc s (.cvta h0 false .spad (.v 2) (.s 4)) h0 (.s 4) 2 0).toNat / 2 ^ 56 = 0x7D ∧
       (laneSrc s (.cvta h0 false .spad (.v 2) (.s 4)) h0 (.s 4) 2 0).toNat / 2 ^ 48 % 256 ≠ s.cur.id.core) ∧
    (vecReady demo1 (.cvta h0 false .priv (.v 2) (.s 4)) h0 2 2 ∧ (laneSrc demo1 (.cvta h0 false .priv (.v 2) (.s 4)) h0 (.s 4) 2 0).toNat / 2 ^ 56 ≠ 0x7C) :=
  ⟨vecReady_of (by decide +kernel) rfl (by decide), by decide +kernel, uniReady_of (by decide +kernel) rfl, by decide +kernel, by decide +kernel,
   ⟨vecReady_of (by decide +kernel) rfl (by decide), by decide +kernel⟩, ⟨vecReady_of (by decide +kernel) rfl (by decide), by decide +kernel⟩,
   vecReady_of (by decide +kernel) rfl (by decide), by decide +kernel⟩

theorem hyps_GangWindowsAndFullBits :
    (let i : Instr := .gwin h0 (.s 126) (.s 0) (.s 6)
     let s := setS demoWg 6 4095
     uniReady s i h0 126 2 ∧ lanesOn i h0 s ≠ 0 ∧ ((s.opened i h0).readUni (.s 0) 1).toNat < s.wg.gangSize ∧ (s.member 0).isSome = true ∧
       ((s.opened i h0).readUni (.s 6) 1).toNat < s.wg.kern.scratch) ∧
    (uniReady (setS demoWg 6 4096) (.gwinSelf h0 (.s 126) (.s 6)) h0 126 2 ∧ (((setS demoWg 6 4096).member 0).any (fun g => decide (g.kern.scratch ≤ 4096))) = true) ∧
    (uniReady (setS demoWg 0 1) (.gwin h0 (.s 126) (.s 0) (.s 6)) h0 126 2 ∧ (setS demoWg 0 1).wg.gangSize ≤ 1) ∧
    (allReady [.spfe h0 .full 32 (.v 0) (.s 0), .spfe h0 .empty 0 (.v 0) (.s 0), .spfe h0 .test 32 (.s 127) (.s 0), .spfe h0 .full 33 (.v 0) (.s 0)] h0 demoWg = true ∧
      128 * 32 ≤ demoWg.wg.kern.scratch ∧ demoWg.wg.kern.scratch < 128 * 33) ∧
    (ready (.spfe h0 .full 1 (.v 0) (.s 0)) h0 (setS demoWg 0 127) = true ∧ ((setS demoWg 0 127).opened (.spfe h0 .full 1 (.v 0) (.s 0)) h0).readUni (.s 0) 1 = 127) :=
  ⟨⟨uniReady_of (by decide +kernel) rfl, by decide +kernel⟩, ⟨uniReady_of (by decide +kernel) rfl, by decide +kernel⟩, ⟨uniReady_of (by decide +kernel) rfl, by decide +kernel⟩,
   by decide +kernel, by decide +kernel⟩

theorem hyps_OwnershipRequests : ∀ own ∈ [0, 1, 2], let s := demoOwn own
    let i : Instr := .ownreq h0 true 15 (.s 4)
    ready i h0 s = true ∧ lanesOn i h0 s ≠ 0 ∧ window ((s.opened i h0).readUni (.s 4) 2) = .glob 0x100 ∧
      excIs (walk s s.wg.part 0x100) ⟨0x20001F + 64 * own, 21, hbmLoc 0 0x4000⟩ = true ∧ bits (0x20001F + 64 * own) 2 2 = 1 ∧
      Leaf.own ⟨0x20001F + 64 * own, 21, hbmLoc 0 0x4000⟩ = own ∧ s.host.linkUp = true ∧ s.mem.ownOf (hbmLoc 0 0x4000) = none ∧
      (s.cur.k.getD 15 0).toNat + 64 ≤ 2 ^ 31 := by decide +kernel

/-- The demonstration state with a layout record (four 32-bit elements, contiguous) at 0x2000; s4:s5 = 0x1000, s6:s7 = 0x2000, s8:s9 = 0x8000. -/
def demoRecAt : State :=
  let s := { demoWg with mem := { demoWg.mem with mem := Store.setN demoWg.mem.mem (hbmLoc 0 0x202000) demoRec } }
  setS (setS (setS s 4 0x1000) 6 0x2000) 8 0x8000

/-- Binding an input and an output port, onto a free port and onto one in use; a queue to warp 1, to oneself, onto a used port; STRSTAT, STRFLUSH, STRCLOSE of every
kind of port; no active lane. -/
theorem hyps_PortsBindReportAndClose :
    (∀ x ∈ [(Instr.strbIn h0 7 true 7 31 (.s 4) (.s 6), false), (.strbOut h0 0 false 15 0 (.s 4) (.s 6), true)],
      ready x.1 h0 demoRecAt = true ∧ lanesOn x.1 h0 demoRecAt ≠ 0 ∧ demoRecAt.port 7 = none ∧ demoRecAt.port 0 = none ∧ bindFault (demoRecAt.opened x.1 h0) 0x1000 = none ∧
        (match readRecord (demoRecAt.opened x.1 h0) 0x2000 with
          | .ok (r, _) => decide (r = demoRec) && recordOk r && decide ((layOf r).esz = 3)
          | _ => false) = true) ∧
    (clears (.strbIn h0 0 true 7 31 (.s 4) (.s 6)) h0 demoPorts ∧ demoPorts.port 0 ≠ none) ∧
    (clears (.strbQin h0 7 true 31 1 7) h0 demoWg ∧ demoWg.port 7 = none ∧ 1 < demoWg.wg.wgsize ∧ 1 ≠ demoWg.cur.index ∧ demoWg.wg.kern.ports.getLsbD 7 = true ∧
      demoWg.peerWarp demoWg.wg.key 1 = none) ∧
    (clears (.strbQout h0 7 false 0 0) h0 demoWg ∧ 0 = demoWg.cur.index) ∧ clears (.strbQout h0 0 false 1 0) h0 demoPorts ∧
    (uniReady demoPorts (.strstat h0 0 (.s 126)) h0 126 2 ∧ lanesOn (.strstat h0 0 (.s 126)) h0 demoPorts ≠ 0 ∧ demoPorts.port 0 = some (demoPort .inp) ∧ demoPorts.port 7 = none) ∧
    (clears (.strflush h0 1) h0 demoPorts ∧ demoPorts.port 1 = some (demoPort .out)) ∧ clears (.strclose h0 7) h0 demoPorts ∧
    (let q : State → State := fun s => { s with warps := [{ s.cur with id := ⟨0, 1⟩, index := 1, ports := Vector.replicate 8 (some { demoPort .qin with peerWarp := 0, peerPort := 2 }) }] }
     let s := q (demoWg.modCur (fun w => w.setPort 2 (some { demoPort .qout with part := [(0, 5, 0)] })))
     clears (.strclose h0 2) h0 s ∧ s.port 2 = some { demoPort .qout with part := [(0, 5, 0)] } ∧
       (s.joined s.cur 2).map (fun x => (x.1.id, x.2.queue.length)) = some (⟨0, 1⟩, 0)) ∧
    (clears (.mov hoff .b32 (.q 7) (.q 0)) hoff demoPorts ∧ lanesOn (.mov hoff .b32 (.q 7) (.q 0)) hoff demoPorts = 0) :=
  ⟨by decide +kernel, ⟨clears_of (by decide +kernel), by decide +kernel⟩, ⟨clears_of (by decide +kernel), by decide +kernel⟩, ⟨clears_of (by decide +kernel), by decide +kernel⟩,
   clears_of (by decide +kernel), ⟨uniReady_of (by decide +kernel) rfl, by decide +kernel⟩, ⟨clears_of (by decide +kernel), by decide +kernel⟩, clears_of (by decide +kernel),
   ⟨clears_of (by decide +kernel), by decide +kernel⟩, clears_of (by decide +kernel), by decide +kernel⟩

/-- Entry 63 in each of its states, generation 5; every entry in use. -/
def demoEntry (x : FrzState) (part : Nat) : State := { demo1 with mem := { demo1.mem with frz := demo1.mem.frz.setIfInBounds 63 { frozenEntry with state := x, part := part } } }
def demoFull : State := { demo1 with mem := { demo1.mem with frz := Vector.replicate 64 frozenEntry } }

theorem hyps_FreezingAndThawing :
    (let i : Instr := .frz h0 .dev 15 (.s 127) (.s 6) (.s 8)
     let s := setS (setS demo1 6 0x1000) 8 0x1000
     uniReady s i h0 127 1 ∧ lanesOn i h0 s ≠ 0 ∧ (s.opened i h0).readUni (.s 6) 2 = 0x1000 ∧ (s.opened i h0).readUni (.s 8) 2 = 0x1000 ∧ Scope.code .dev ≤ (s.part s.wg.part).frzMax + 2 ∧
       freezeRanges (s.opened i h0) 2 s.wg.part 0x1000 1 = .ok [(hbmLoc 0 0x201000, 4096)] ∧ roomK s 15 64 ∧ s.mem.frz[0].state = .free ∧ ∀ j : Fin 64, demoFull.mem.frz[j].state ≠ .free) ∧
    (uniReady demo1 (.frz h0 .job 0 (.s 0) (.s 6) (.s 8)) h0 0 1 ∧ ((demo1.opened (.frz h0 .job 0 (.s 0) (.s 6) (.s 8)) h0).readUni (.s 8) 2) = 0) ∧
    (∀ x ∈ [(FrzState.free, 0), (.pending, 0), (.installed, 0), (.thawing, 0), (.installed, 7)],
      let s := setS (demoEntry x.1 x.2) 6 (63 + 64 * 5)
      ready (.thaw h0 15 (.s 6)) h0 s = true ∧ lanesOn (.thaw h0 15 (.s 6)) h0 s ≠ 0 ∧ ((s.opened (.thaw h0 15 (.s 6)) h0).readUni (.s 6) 1).toNat = 63 + 64 * 5 ∧
        s.mem.frz[63].state = x.1 ∧ s.mem.frz[63].part = x.2 ∧ s.mem.frz[63].gen.toNat = 5 ∧ (s.cur.k.getD 15 0).toNat + 64 * (s.scopeRanks s.mem.frz[63].sc).length ≤ 2 ^ 31) ∧
    (∀ s ∈ [demo1, demoFrozen], ready (.frzq h0 (.s 126) (.s 4)) h0 s = true ∧ lanesOn (.frzq h0 (.s 126) (.s 4)) h0 s ≠ 0 ∧
      resolve (s.opened (.frzq h0 (.s 126) (.s 4)) h0) frzqAccess 0 ((s.opened (.frzq h0 (.s 126) (.s 4)) h0).readUni (.s 4) 2) = .ok (.loc (hbmLoc 0 0x200100) 0)) ∧
    (∀ j : Fin 64, (demoFrozen.mem.frz[j].active && demoFrozen.mem.frz[j].covers (hbmLoc 0 0x200100)) = decide (j = 63)) :=
  ⟨⟨uniReady_of (by decide +kernel) rfl, by decide +kernel, by decide +kernel, by decide +kernel, by decide +kernel, okIs_eq (by decide +kernel), by unfold roomK; decide +kernel, by decide +kernel, by decide +kernel⟩,
   ⟨uniReady_of (by decide +kernel) rfl, by decide +kernel⟩, by decide +kernel, by decide +kernel, by decide +kernel⟩


/-- The demonstration warp inside a remote region whose area stands at 0x1000; `f`: the cause of a failure. -/
def demoRegion (f : Option Nat) : State := demo.modCur (fun w => { w with region := some { area := 0x1000, slot := 20480, d := 127, failed := f } })

/-- RBEGIN with its area at 0x1000, misaligned, inside a region, inside a call; RCOMMIT of none, of one, of a failed one. -/
theorem hyps_RemoteRegions :
    (let s := setS demo 4 0x1000
     let i : Instr := .rbegin h0 (.s 127) (.s 4)
     uniReady s i h0 127 1 ∧ lanesOn i h0 s ≠ 0 ∧ s.cur.region = none ∧ s.inBase = true ∧ areaFault (s.opened i h0) 0x1000 = none ∧
       (match areaTargets (s.opened i h0) true 0x1000 274 with
         | .ok ts => decide (ts.length = 274) && ts.all (fun p => match p.2 with
             | .loc l m => decide (m = 0 ∧ l < cwBase)
             | _ => false)
         | _ => false) = true) ∧
    (uniReady (setS demo 4 0x1040) (.rbegin h0 (.s 127) (.s 4)) h0 127 1 ∧ areaFault ((setS demo 4 0x1040).opened (.rbegin h0 (.s 127) (.s 4)) h0) 0x1040 = some 0x0BC) ∧
    (uniReady (demoRegion none) (.rbegin h0 (.s 127) (.s 4)) h0 127 1 ∧ (demoRegion none).cur.region ≠ none) ∧
    (ready (.rbegin h0 (.s 127) (.s 4)) h0 demoCall = true ∧ demoCall.cur.region = none ∧ demoCall.inBase = false) ∧
    (∀ s ∈ [demo, demoRegion none, demoRegion (some 0x126)], ready (.rcommit h0) h0 s = true ∧ lanesOn (.rcommit h0) h0 s ≠ 0 ∧ s.inBase = true ∧ s.regionBusy s.cur.id = false) ∧
    (match areaTargets (demoRegion (some 0x126)) false 0x1000 274 with
      | .ok ts => decide (ts.length = 274)
      | _ => false) = true :=
  ⟨⟨uniReady_of (by decide +kernel) rfl, by decide +kernel⟩, ⟨uniReady_of (by decide +kernel) rfl, by decide +kernel⟩, ⟨uniReady_of (by decide +kernel) rfl, by decide +kernel⟩,
   by decide +kernel, by decide +kernel, by decide +kernel⟩


/-- The check of a copy at issue succeeds, and the copy moves sixteen bytes. -/
def copyPasses (i : Instr) (scatter copyg : Bool) (slot : Option (Nat × Nat)) : Bool :=
  let o := demoRecAt.opened i h0
  ready i h0 demoRecAt && demoRecAt.converged (lanesOn i h0 demoRecAt) &&
  (match copyCheck o scatter copyg (if slot.isSome then 0 else o.readUni (.s 8) 2) slot (o.readUni (.s 4) 2) (o.readUni (.s 6) 2) with
    | .ok (r, _, _) => decide ((layOf r).bytes = 16)
    | _ => false)

theorem hyps_EngineInstructionsQueueTheirWork_copies :
    copyPasses (.copy h0 false .k64 7 15 (.s 8) (.s 4) (.s 6)) false false none = true ∧ copyPasses (.copy h0 true .none 0 0 (.s 8) (.s 4) (.s 6)) true false none = true ∧
    copyPasses (.copygSlot h0 63 true .none 0 1 31 (.s 4) (.s 6)) false true (some (4096, 3968)) = true ∧
    copyPasses (.copym h0 0 false false .k16 0 2 127 (.s 4) (.s 6)) false false (some (16384, 16256)) = true ∧
    demoRecAt.copyCount demoRecAt.cur.id.core < 64 ∧ demoRecAt.mgmt.fencedBellows.getLsbD demoRecAt.cur.id.core = false ∧
    ready (.copy hoff false .none 0 0 (.s 8) (.s 4) (.s 6)) hoff demoRecAt = true ∧ demoRecAt.converged (lanesOn (.copy hoff false .none 0 0 (.s 8) (.s 4) (.s 6)) hoff demoRecAt) = false := by
  decide +kernel

/-- Row operations on 1,024 bytes: apart, overlapping, of a length that is no multiple of 1,024. -/
theorem hyps_EngineInstructionsQueueTheirWork_rows :
    (let s := setS demoRecAt 10 1024
     (∀ i ∈ [Instr.rowcpy h0 15 (.s 8) (.s 4) (.s 10), .rowzero h0 0 (.s 8) (.s 10), .rowcpy h0 15 (.s 4) (.s 4) (.s 10)], ready i h0 s = true ∧ lanesOn i h0 s ≠ 0) ∧
     ((s.opened (.rowzero h0 0 (.s 8) (.s 10)) h0).readUni (.s 10) 1).toNat = 1024 ∧ rowWindow 0x8000 = true ∧ rowWindow 0x1000 = true ∧
     okIs (rowRange (s.opened (.rowzero h0 0 (.s 8) (.s 10)) h0) 1 0x8000 4) ((List.range 4).map (fun j => hbmLoc 0 (0x208000 + 256 * j))) = true ∧
     okIs (rowRange (s.opened (.rowzero h0 0 (.s 8) (.s 10)) h0) 0 0x1000 4) ((List.range 4).map (fun j => hbmLoc 0 (0x201000 + 256 * j))) = true ∧
     (List.range 4).all (fun j => !((List.range 4).map (fun j => hbmLoc 0 (0x208000 + 256 * j))).contains (hbmLoc 0 (0x201000 + 256 * j))) = true) ∧
    ready (.rowzero h0 15 (.s 4) (.s 10)) h0 (setS demoRecAt 10 1023) = true := by decide +kernel

/-- TGEN of 1 expert, of none, of 4,097. -/
theorem hyps_EngineInstructionsQueueTheirWork_tgen :
    [(1 : Word), 0, 4097].all (fun n => ready (.tgen h0 128 15 (.s 8) (.s 4) (.s 12) (.s 10)) h0 (setS demoRecAt 10 n) &&
      (((setS demoRecAt 10 n).opened (.tgen h0 128 15 (.s 8) (.s 4) (.s 12) (.s 10)) h0).readUni (.s 10) 2).toNat % 2 ^ 32 == n.toNat) = true ∧
    (let o := (setS demoRecAt 10 1).opened (.tgen h0 128 15 (.s 8) (.s 4) (.s 12) (.s 10)) h0
     okIs (spanCheck o 0 4 0x1000 4) 0 = true ∧ okIs (spanCheck o 1 4 0x8000 32) 0 = true ∧ okIs (spanCheck o 1 8 0 0) 0 = true) := by decide +kernel

theorem hyps_EngineInstructionsQueueTheirWork_counts : ready (.waitk h0 0xFFFF) h0 demo = true ∧ (∀ j : Fin 16, demo.cur.k[j] = 0) ∧
    (demo.modCur (fun w => { w with k := w.k.setIfInBounds 15 1 })).cur.k[15] ≠ 0 ∧ ready (.waitk h0 0x8000) h0 (demo.modCur (fun w => { w with k := w.k.setIfInBounds 15 1 })) = true ∧
    [(0 : Word), 0x7FFFFFFF, 0xFFFFFFFF].all (fun x => ready (.kadd h0 15 (.s 0)) h0 (setS demo 0 x)) = true ∧ ready (.kaddImm h0 0 0x80000) h0 demo = true := by decide +kernel

theorem hyps_EngineInstructionsQueueTheirWork_route : vecReady demo (.route h0 30 (.v 238) (.v 0) (.s 2) (.v 239)) h0 238 2 ∧
    certain (demo.opened (.route h0 30 (.v 238) (.v 0) (.s 2) (.v 239)) h0) (.p 30) := ⟨vecReady_of (by decide +kernel) rfl (by decide), certain_of _ _ _ demo_pend⟩

/-- A COPYM with an MMA in the next slot of its line, on a workgroup whose format slot 0 is bf16 × bf16 and whose tile 15 is live. -/
def demoAnvil : State := { demoRecAt with wg := { demoRecAt.wg with fs := demoRecAt.wg.fs.setIfInBounds 0 0x88, live := [15] } }
def followDemo : State := demoAnvil.modCur (fun w => w.modPath (fun p => { p with line := some (0x40000,
  List.replicate 12 0 ++ leBytes 12 (encode (.mma h0 true false .none 0 15 62 60 0)) ++ List.replicate 40 0) }))

theorem hyps_EngineInstructionsQueueTheirWork_follow :
    (let i : Instr := .copym h0 0 false true .none 0 15 0 (.s 4) (.s 6)
     ready i h0 followDemo = true ∧ followDemo.converged (lanesOn i h0 followDemo) = true ∧
     excIs (followCheck (followDemo.opened i h0)) { sparse := false, z := true, sg := 0, fs := 0, t := 15, oa := 62, ob := 60, om := 0, k := none } = true ∧
     followDemo.eng.cmds = []) := by decide +kernel

/-- RANK of one row of four f32 elements at 0x1000, the best two to 0x8000. -/
def rankRec : List Byte := [0x30, 2, 0, 0, 0, 0, 0, 0, 4, 0, 0, 0, 1, 0, 0, 0] ++ List.replicate 8 0 ++ [4, 0, 0, 0, 0, 0, 0, 0, 16] ++ List.replicate 31 0

theorem hyps_EngineInstructionsQueueTheirWork_rank :
    (let s : State := { demoRecAt with mem := { demoRecAt.mem with mem := Store.setN demoRecAt.mem.mem (hbmLoc 0 0x202000) rankRec } }
     let i : Instr := .rank h0 .f32 2 15 (.s 8) (.s 4) (.s 6)
     ready i h0 s = true ∧ lanesOn i h0 s ≠ 0 ∧ (match readRecord (s.opened i h0) 0x2000 with
       | .ok (r, u) => decide (r = rankRec) && rankRecordOk 0 r && okIs (patternCheck u 0 (layOf r) 0x1000) 0 && okIs (spanCheck u 1 8 0x8000 16) 0 &&
           (List.range 16).all (fun m => !notHbm u (0x1000 + BitVec.ofNat 64 m))
       | _ => false) = true ∧ rowWindow 0x1000 = true) := by decide +kernel

/-- Ready forms of every class 6 instruction on the boundary slot and tile; a full queue; a dead tile; an offset past the data area. -/
theorem hyps_AnvilInstructionsQueueTheirWork : demoAnvil.anvilFenced = false ∧
    [Instr.claimo h0 63 0, .claimo h0 0 63, .relo h0 63 0, .claima h0 15 0, .claima h0 0 15, .rela h0 15 0, .mma h0 true true .k16 0 15 62 60 15, .accz h0 15, .accld h0 15 15 (.s 10) (.s 4), .accst h0 15 0 (.s 10) (.s 4),
      .accred h0 false true 15 15 (.s 10) (.s 4), .accred h0 true false 15 15 (.s 12) (.s 4), .accrd h0 15 15 (.v 224) (.s 0), .slotrd h0 true 63 (.v 239) (.s 0),
      .slotwr h0 false 63 (.v 239) (.s 0)].all (fun i => ready i h0 demoAnvil && decide (lanesOn i h0 demoAnvil ≠ 0)) = true ∧
    demoAnvil.wg.order = [] ∧ demoAnvil.wg.live = [15] ∧ mmaFault demoAnvil false 0 15 62 60 0 = none ∧ demoAnvil.anvilCount demoAnvil.cur.id.core = 0 ∧
    mmaFault { demoAnvil with wg := { demoAnvil.wg with fs := demoAnvil.wg.fs.setIfInBounds 7 0x100088 } } true 7 15 60 58 63 = none ∧
    (let s := { demoAnvil with eng := { demoAnvil.eng with anvil := List.replicate 16 ⟨0, 0, 1, ⟨0, 0⟩, 15, .accz, [], false, false, 0, false, 0, 0⟩ } }
     ready (.accz h0 15) h0 s = true ∧ 16 ≤ s.anvilCount s.cur.id.core) ∧
    (let s := setS (setS demoAnvil 12 512) 13 0x20001
     ready (.accred h0 true false 15 15 (.s 12) (.s 4)) h0 s = true ∧ window 0x1000 = .glob 0x1000 ∧ okIs (rangeCheck s 2 64 0x1000 0x1000 (tileEnd 0x1000 512)) 0 = true ∧
       tileSpace 0 0x1000 = none ∧ tileSpace 1 0x1000 = none ∧ okIs (rangeCheck s 0 64 0x1000 0x1000 (tileEnd 0x1000 0)) 0 = true) ∧
    (slotFits Mask.full true 3584 = true ∧ slotFits Mask.full true 3588 = false ∧ slotFits Mask.full false 15872 = true ∧ slotFits Mask.full false 2 = false) ∧
    ready (.accz h0 0) h0 demoAnvil = true := by decide +kernel

/-! ## The example "order inside the anvil" -/

theorem test_anvil_order :
    let row := fun (a n : Nat) (b : Byte) => (List.range n).map (fun i => (a + i, b))
    let g : Wgroup := { Wgroup.blank with slots := row 0 64 0x30 ++ row 40960 32 0x89 ++ [(57344, 0), (57345, 0x30), (57346, 0), (57347, 0x30), (59392, 0x88)] }
    g.mmaElem { af := 1, bf := 6, gs := 0, sk := 2, sl := 0, zw := 1, spn := 0, spo := 0 } 0 0 2 0 0 0 0x4B800000 = 0x4B800000 := by decide +kernel

/-! ## Events -/

/-- The next state of an instruction or event. -/
def nx (i : Instr) (s : State) : State := match exec i s with
  | .next t => t
  | _ => s

/-- The demonstration warp with a second one beside it in its quadrant, on slot 15. -/
def demoTwo : State := { demoWg with warps := [{ demoWg.cur with id := ⟨0, 15⟩, index := 1, hold := .sleep 0 9 false }], clk := 1 }

/-- Quadrants with a warp and without; the choice of R241 at its bounds; a latency; a counted result; holds that are over; a slot that can be freed; pending faults. -/
theorem hyps_WarpEvents :
    ((demo.issue exec 0 0).2 = some (.nop ⟨0, false, 0, 0, 0, false⟩) ∧ (State.reset.issue exec 191 3).2 = none ∧ State.reset.quadWarps 191 3 = []) ∧
    ([(0, 239, 7), (15, 240, 0)] ≠ ([] : List (Nat × Nat × Nat)) ∧ (∀ x ∈ [(0, 239, 7), (15, 240, 0)], x.1 < 16) ∧ (([(0, 239, 7), (15, 240, 0)] : List (Nat × Nat × Nat)).map (fun x => x.1)).Nodup) ∧
    (demoPend.warpAt ⟨0, 0⟩ = some demoPend.cur ∧ demoPend.cur.pend[1]? = some { reg := .s 5, old := Vector.replicate 128 7, mask := 1, lat := .fixed 0 0 4, path := 0, epc := 0 }) ∧
    (let w := (demo.modCur (fun w => { w with sb := w.sb.setIfInBounds 6 1 })).cur
     w.sb.getD (7 - 1) 0 = 1 ∧ demo.countedOut w 7 < 1) ∧
    ((demoTwo.warpAt ⟨0, 15⟩).map (fun w => w.hold) = some (.sleep 0 9 false) ∧ 0 < demoTwo.clk) ∧
    (let s := demo.modCur (fun w => { w with hold := .yield 0 [] })
     s.warpAt ⟨0, 0⟩ = some s.cur ∧ 0 ≤ s.clk) ∧
    (let s := demo.modCur (fun w => { w with status := .ended })
     s.warpAt ⟨0, 0⟩ = some s.cur ∧ s.warpBusy s.cur = false) ∧
    ((demoWg.wgOf demoWg.cur.wg).isSome = true ∧ demoWg.cur.status = .running ∧ demoWg.cur.stack = [] ∧ demoWg.cur.spilled = 0 ∧ demoWg.cur.hold = .none ∧ demoWg.cur.trapMode = false ∧
      demoWg.wg.kern.handler ≠ 0 ∧ demoWg.cur.pendFaults.length < 8) ∧
    (let s := demoTrap.modCur (fun w => { w with pendFaults := [⟨0x141, 20480, 0x100, 0, 0, false⟩] })
     s.cur.pendFaults[0]? = some ⟨0x141, 20480, 0x100, 0, 0, false⟩ ∧ s.cur.trapMode = true ∧ 0 + 1000000 ≤ ({ s with time := 1000000 } : State).time) ∧
    (let s := { demoAnvil with eng := { demoAnvil.eng with anvil := [⟨5, 0, 1, ⟨0, 0⟩, 15, .accz, [], true, false, 0, false, 0, 0⟩] } }
     (s.eng.anvil.find? (fun a => a.id == 5 && a.started && a.warp == ⟨0, 0⟩ && a.wg == s.wg.key)).isSome = true) ∧
    ((demoRegion (some 0x126)).regionBusy ⟨0, 0⟩ = false ∧ excIs (walk demo 0 0x1000) ⟨0x20001F, 21, hbmLoc 0 0x4000⟩ = true) := by decide +kernel

/-- A copy of sixteen bytes under way; its block fetched. -/
def copyDemo : State := nx (.copy h0 false .none 0 15 (.s 8) (.s 4) (.s 6)) demoRecAt
def copyFetched : State := nx (.copyBlockFetch 1 0) copyDemo

/-- A command's block can be fetched; its piece can land, on 16 bytes of plain memory; a follow-on can be handed over. -/
theorem hyps_EngineEvents_copy :
    (copyDemo.eng.cmds.map (fun c => (c.id, c.todo, c.k))) = [(1, [0], 15)] ∧ (copyDemo.eng.cmds.all (fun c => (copyDemo.wgOf c.wg).isSome && canFetch (copyDemo.viewOf c) c 0)) = true ∧
    (copyFetched.eng.cmds.all (fun c => let u := copyFetched.viewOf c
      c.pieces.length == 1 && c.pieces.all (fun p => u.fenced c && !u.pieceWaits c p && u.slotsReady c p && (u.pieceOwner c p.mem == some (⟨0, 0⟩, 15)) &&
        (match landTargets u c.pins p.bytes with
          | .ok (ts, rs) => decide (ts.length = 16) && rs.isEmpty && ts.all (fun x => match x.1 with
              | .loc l m => decide (m = 0 ∧ l < cwBase)
              | _ => false)
          | _ => false) && decide (p.drop ≤ (copyFetched.cur.k.getD 15 0).toNat)))) = true ∧
    (let f := nx (.copym h0 0 false true .none 0 15 0 (.s 4) (.s 6)) followDemo
     let t := nx (.engineWriteLands 1 0) (nx (.copyBlockFetch 1 0) f)
     (t.eng.cmds.all (fun c => c.follow.isSome && (t.viewOf c).cmdIdle c)) = true ∧ t.anvilCount 0 < 16) := by decide +kernel

/-- A row copy and a row clearing under way. -/
def rowDemo (zero : Bool) : State := nx (if zero then .rowzero h0 15 (.s 8) (.s 10) else .rowcpy h0 15 (.s 8) (.s 4) (.s 10)) (setS demoRecAt 10 1024)

theorem hyps_EngineEvents_rows : [true, false].all (fun z => let s := if z then rowDemo z else nx (.rowSourceWriteback 1) (rowDemo z)
    s.eng.cmds.all (fun c => c.todo == [0] && c.copyg.isNone && c.follow.isNone && c.refused.isNone && (s.viewOf c).fenced c && (c.k == 15) && decide (1024 ≤ (s.cur.k.getD 15 0).toNat) &&
      (c.wroteBack || z) && (match c.kind with
        | .rowcpy src dst _ _ => decide (src.length = 4 ∧ dst.length = 4 ∧ dst.Nodup) && dst.all (fun d => d % 256 == 0) && src.all (fun f => dst.all (fun d => decide (f + 256 ≤ d ∨ d + 256 ≤ f)))
        | .rowzero dst _ => decide (dst.length = 4 ∧ dst.Nodup) && dst.all (fun d => d % 256 == 0)
        | _ => false))) = true ∧ (rowDemo false).eng.cmds.length = 1 ∧ (rowDemo true).eng.cmds.length = 1 := by decide +kernel

/-- "Worked example: a padded window shared by two members" (R293, R294): the words of its two inner blocks; a position of padding has no address. -/
theorem test_padded_window :
    let rec_ : List Byte := [0x32, 3, 0, 0, 5, 0, 2, 0, 1, 0, 0, 0, 5, 0, 0, 0, 4, 0, 0, 0, 0, 0, 0, 0, 4, 0, 0, 0, 0, 0, 0, 0, 4, 0, 0, 0, 0, 0, 0, 0, 12, 0, 0, 0, 0, 0, 0, 0] ++
      List.replicate 8 0 ++ [0x63, 0, 0, 0, 1, 1, 1, 1]
    let l := layOf rec_
    recordOk rec_ = true ∧ l.blocks = 2 ∧ (List.range 20).map (fun j => (l.elem 0x600000 j).map (fun e => e.1.toNat - 0x600000)) =
      [none, none, none, none, none, none, some 0, some 4, some 8, none, none, some 12, some 16, some 20, none, none, none, none, none, none] := by decide +kernel

/-- The best two of [1, NaN, 3, 3] in f32 (R213): NaN ranks last and the lower index first. -/
theorem test_rank_out : rankOut .f32 2 [0x3F800000, 0x7FC00000, 0x40400000, 0x40400000] = leBytes 4 0x40400000 ++ leBytes 4 2 ++ leBytes 4 0x40400000 ++ leBytes 4 3 := by
  decide +kernel

/-- A tile operation of each kind may start, and is complete. -/
def anvilDemo (i : Instr) : State := nx i (setS (setS demoAnvil 12 512) 10 512)

theorem hyps_AnvilEvents : [(Instr.mma h0 true true .none 0 15 62 60 15, AnvilKind.array), (.accz h0 15, .accum), (.accst h0 15 0 (.s 10) (.s 4), .accum), (.accred h0 false true 15 15 (.s 12) (.s 4), .accum),
      (.accrd h0 15 15 (.v 224) (.s 0), .accum), (.slotrd h0 true 63 (.v 239) (.s 0), .slot)].all (fun x => let s := anvilDemo x.1
        decide (s.eng.anvil.length = 1) && s.eng.anvil.all (fun a => !a.started && (a.op.kind == x.2) && s.mayStart a && decide (s.cur.wg = a.wg) && (s.wgOf a.wg).isSome &&
          ((nx (.anvilOpStart 0 x.2) s).eng.anvil.all (fun b => b.started && (b.id == a.id))))) = true := by decide +kernel

/-- Contributions: one not ordered; one ordered, the first of two, that has come and is held. -/
def contrib (ord : Option (Nat × Nat)) : Contrib := { id := 1, idx := 0, words := (List.range 16).map (fun j => (hbmLoc 0 0x200100 + 4 * j, 0x100, 0x3F800000)), isI32 := false, ord := ord, warp := ⟨0, 0⟩, wg := 1, launch := 7, k := 0, epc := 0, pid := 0, slice := 0, noRoom := false, held := false }

theorem hyps_AnvilEvents_contributions : (contrib none).ord = none ∧ demoWg.mem.poisonOf (64 * (contrib none).line) = none ∧ ((contrib none).words.map (fun x => x.1)).Nodup ∧
    (∀ x ∈ (contrib none).words, x.1 % 4 = 0 ∧ x.1 < cwBase ∧ (demoWg.mem.homeLine (x.1 / 64)).budget = none) ∧ demoWg.heldLines 0 < 16384 ∧
    (let s := { demoWg with eng := { demoWg.eng with contribs := [contrib (some (0, 2))] } }
     s.eng.contribs.find? (fun c => c.id == 1 && c.idx == 0 && !c.held && !c.noRoom) = some (contrib (some (0, 2))) ∧ s.eng.contribs.filter (fun x => x.held && x.line == (contrib none).line) = [] ∧
       (s.eng.contribs.filter (fun x => (x.held || decide (x.id = 1 ∧ x.idx = 0)) && x.line == (contrib none).line)).length < 2) := by decide +kernel

/-- Port 0 may prefetch its last element; entries pending, installed, thawing with an owner; a push of one beat. -/
theorem hyps_StreamAndFreezeEvents :
    (demoPorts.warpAt ⟨0, 0⟩ = some demoPorts.cur ∧ demoPorts.cur.ports.getD 0 none = some (demoPort .inp) ∧ 3 < (demoPort .inp).len ∧ (layOf (demoPort .inp).record).elem (demoPort .inp).base 3 = some (0x100C, 4, 0)) ∧
    (let t := nx (.mov h0 .b32 (.q 1) .vlane) demoPorts
     t.eng.cmds.all (fun c => (match c.kind with
       | .push w => w == 4
       | _ => false) && c.pieces.all (fun p => p.bytes.all (fun b => b.1 == .addr)))) = true ∧
    (let e : FrzEntry := { frozenEntry with owner := some (⟨0, 0⟩, 1, 15), acks := [0, 1] }
     let s : State := demoWg.modCur (fun w => { w with k := w.k.setIfInBounds 15 64 })
     s.warpAt ⟨0, 0⟩ = some s.cur ∧ s.cur.wg = 1 ∧ 64 ≤ (s.cur.k.getD 15 0).toNat ∧ s.freezeReleased { e with state := .pending } = true ∧ s.mgmt.selfRank ∈ e.acks ∧ (1 : Nat) ∈ e.acks ∧
       ({ e with state := .thawing } : FrzEntry).overdue = false ∧ 2 ^ 32 < ({ s with clk := 2 ^ 32 + 1 } : State).clk - e.since) ∧
    (1 : Nat) ≠ demoWg.mgmt.selfRank := by decide +kernel

/-- A launch record: one workgroup of one warp with the kernel descriptor at address 0; with a join counter at 0x100 or without one. -/
def demoRec1 (join : Bool) : Rec := { addr := 0x500, bytes := leBytes 8 0 ++ leBytes 8 0x40 ++ leBytes 4 1 ++ leBytes 4 1 ++ leBytes 4 1 ++ [1, 1, 0, 0] ++ List.replicate 72 0 ++ leBytes 8 (if join then 0x100 else 0) ++ leBytes 4 (if join then 3 else 0) ++ List.replicate 140 0 }

/-- Queue 255 holds a record; its descriptor stands at address 0: entry 20480, eight vector and eight uniform registers. -/
def demoSched (r : Rec) : State :=
  let m := Store.setN demo.mem.mem (hbmLoc 0 0x200000) (leBytes 8 20480 ++ [1, 1])
  { demo with mem := { demo.mem with mem := m }, sched := { demo.sched with queues := [(255, [r])] }, mgmt := { demo.mgmt with queues := demo.mgmt.queues.setIfInBounds 255 { QReg.blank with isOpen := true, depth := 4, prio := 7 }, parts := demo.mgmt.parts.setIfInBounds 0 { demo.part 0 with cores := 1, tlimit := 1 } } }

/-- A launch of workgroup 1's key 7 that counts its ends at address 0x200, has waited 2^20 cycles and began a millisecond ago. -/
def demoLaunch : Launch := { key := 7, record := { demoRec1 false with bytes := (demoRec1 false).bytes.take 160 ++ leBytes 8 0x200 ++ List.replicate 88 0 }, queue := 255, part := 0, prio := 7, kern := Kernel.blank, next := 1, total := 1, redo := [], done := 0, cancelled := false, cause := 0, started := some 0, pooled := false, waiting := some 0 }
def demoLaunched : State := { demo with clk := 2 ^ 20, time := 1000000, sched := { demo.sched with launches := [demoLaunch] },
                                        mgmt := { demo.mgmt with parts := demo.mgmt.parts.setIfInBounds 0 { demo.part 0 with tlimit := 1 } } }
/-- Its workgroup has ended, and its warp slot is free. -/
def demoEnded : State := { demoLaunched with wg := { demo.wg with key := 1, launch := 7, status := .ended }, cur := { demo.cur with wg := 1, status := .free } }
/-- Its workgroup is stopping, its one warp standing at the end of an instruction; the same saved. -/
def demoStop (idem : Bool) : State := { demoLaunched with wg := { demo.wg with key := 1, launch := 7, status := .stopping, idem := idem, wgsize := 1, gangSize := 1, kern := { Kernel.blank with vregs := 8 } }, cur := { demo.cur with wg := 1 } }
def demoSaved : State :=
  let g := (demoStop false).wg
  { demoLaunched with wg := Wgroup.blank, cur := { Warp.blank with id := demo.cur.id }, sched := { demoLaunched.sched with saved := [({ g with status := .saved }, [(demoStop false).cur])] }, mgmt := { demo.mgmt with parts := demo.mgmt.parts.setIfInBounds 0 { demo.part 0 with cores := 1 } } }

/-- Records before a queue with and without a join counter, rejected and not; dispatch of one workgroup of one warp, and a rejection. -/
theorem hyps_SchedulingEvents_queues :
    [(demoRec1 true), { demoRec1 true with bytes := (demoRec1 true).bytes.set 28 0 }].all (fun r => let s := demoSched r
      !s.mgmt.recovery && (s.held 255 == [r]) && (r.f 104 8 != 0) && (s.placing 255).isNone && (s.queuePart 255 == 0)) = true ∧
    recordFault { demoRec1 true with bytes := (demoRec1 true).bytes.set 28 0 } = some 0x164 ∧ recordFault (demoRec1 true) = none ∧ (demoSched (demoRec1 true)).sched.pool = [] ∧
    ((demoSched (demoRec1 true)).ctlTargets 0 0 (BitVec.ofNat 64 ((demoRec1 true).f 104 8)) 4).any (fun ts => ts.all (fun t => match t with
        | .loc l m => decide (m = 0 ∧ l < cwBase)
        | _ => false) && decide (leNat (ts.map (fun tg => ((tg.cells 1).map (demoSched (demoRec1 true)).cell).headD 0)) ≤ (demoRec1 true).f 112 4)) = true ∧
    (let r := demoRec1 false
     let s := demoSched r
     let u := s.setHeld 255 ((s.held 255).drop 1)
     (s.part (s.queuePart 255)).enable = true ∧ (s.mgmt.queues.getD 255 QReg.blank).prio < 8 ∧ s.sched.pool = [] ∧ s.sched.launches = [] ∧
     (match s.candsOf 255 with
       | [.front x] => x == r
       | _ => false) = true ∧
     (match u.checkRecord 0 r with
       | .ok (r', k, v) => r' == r && decide (r'.grid = 1 ∧ r'.gangSize = 1 ∧ r'.wgw = 1) && !r'.coResident && v.sched.reserve.isEmpty &&
           ((placeGangs (v.claims ++ v.keptSlots 0) (v.part 0).cores (openHearths (v.part 0).cores) k r'.wgw 1 1).map (fun x => x.map (fun y => y.map (fun c => c.core))) == some [[0]]) &&
           decide (0 < (v.freeSlots 0 0 0).length)
       | .fault _ _ => false
       | .wait _ _ => false) = true) ∧
    (match (demoSched { demoRec1 false with bytes := (demoRec1 false).bytes.set 28 17 }).checkRecord 0 { demoRec1 false with bytes := (demoRec1 false).bytes.set 28 17 } with
      | .fault c _ => c == 0x164
      | .ok _ => false
      | .wait _ _ => false) = true := by decide +kernel

/-- No other queue has a candidate, at queue 0 and beyond the last. -/
theorem hyps_SchedulingEvents_candidates : ∀ q', q' ≠ 255 → (demoSched (demoRec1 false)).candsOf q' = [] := by
  intro q h
  have hq : (255 == q) = false := by simpa using fun e => h e.symm
  have l : (demoSched (demoRec1 false)).sched.launches = [] := rfl
  have p : (demoSched (demoRec1 false)).sched.pool = [] := rfl
  have r : (demoSched (demoRec1 false)).sched.queues = [(255, [demoRec1 false])] := rfl
  simp [State.candsOf, State.placing, State.unplaced, State.held, l, p, r, hq]

/-- A reservation, an end that is counted, a completion, an expiry, requests, a context saved, one discarded, one restored. -/
theorem hyps_SchedulingEvents_ends :
    (demoLaunched.sched.launches.find? (fun l => l.queue == 255 && !l.cancelled && (match l.waiting with
      | some t => decide (2 ^ 20 ≤ demoLaunched.clk - t)
      | none => false) && !(demoLaunched.sched.reserve.any (fun r => r.2.2 == l.key)))) = some demoLaunch ∧
    ((demoEnded.wgOf 1).isSome = true ∧ demoEnded.wgDone demoEnded.wg = true ∧ demoEnded.sched.launches.find? (fun x => x.key == demoEnded.wg.launch) = some demoLaunch ∧
      demoLaunch.record.f 160 8 = 0x200 ∧ demoEnded.ctlTargets 0 2 (BitVec.ofNat 64 0x200) 8 = some ((List.range 8).map (fun i => .loc (hbmLoc 0 0x200200 + i) 0)) ∧ hbmLoc 0 0x200200 % 8 = 0) ∧
    demoLaunched.launchDone demoLaunch = true ∧ (demoLaunched.part 0).tlimit ≠ 0 ∧ (demoLaunched.part 0).tlimit.toNat * 1000000 ≤ demoLaunched.time ∧
    [false, true].all (fun i => let s := demoStop i
      ((s.wgOf 1).any (fun g => g == s.wg)) && decide (s.wg.status = .stopping) && (s.stoppingGang s.wg).all (fun x => s.drained x && !x.idend && (x.idem == i)) && decide ((s.stoppingGang s.wg).length = s.wg.gangSize)) = true ∧
    (demoSaved.sched.saved.all (fun p => (p.1.key == 1) && (demoSaved.savedGang p.1).all (fun x => !(demoSaved.mgmt.fencedCore.getLsbD x.1.core) && decide ((x.2.map (fun w => w.id)).Nodup) &&
      x.2.all (fun w => demoSaved.allWarps.all (fun y => decide (y.id = w.id → y.status = .free)))) && (reclaim demoSaved.claims (demoSaved.part 0).cores (demoSaved.savedGang p.1)).isSome)) = true ∧
    demoSaved.sched.saved.length = 1 := by decide +kernel

theorem demoEnded_counts : demoEnded.plain (.loc (hbmLoc 0 0x200200) 0) ∧ demoEnded.mem = demo.mem := ⟨plain_loc rfl rfl rfl _ (by decide +kernel), rfl⟩

/-- The demonstration warp in SYSCALL n with its block at 0x40; the service ring as given; a service under way, for two milliseconds. -/
def demoSys (n : Nat) (ring : DWord) (fwd : List Service) : State :=
  { demoWg with cur := { demoWg.cur with hold := .syscall 127 0 }, wg := { demoWg.wg with sys := [⟨n, 0x40, 0, 127⟩] }, mgmt := { demo.mgmt with svcRing := ring, svcto := 1 }, host := { demo.host with services := fwd }, time := 2000000 }

theorem demoSys_warp (n : Nat) (ring : DWord) (fwd : List Service) : (demoSys n ring fwd).warpAt ⟨0, 0⟩ = some (demoSys n ring fwd).cur := rfl

/-- Services of each kind, forwarded and refused; one answered, and one that has timed out. -/
theorem hyps_HostEvents_services :
    [(0, 0x8000000000000000), (1, 0x8000000000000000), (2, 0), (3, 0), (0x7FFF, 0x8000000000000000), (0x8000, 0), (0xFFFF, 0x8000000000000000)].all (fun x => let s := demoSys x.1 (BitVec.ofNat 64 x.2) []
      decide (s.cur.wg = 1 ∧ s.cur.status = .running ∧ s.cur.hold = .syscall 127 0 ∧ s.cur.pend = []) &&
      (s.wgOf 1).any (fun g => s.sysReady g && decide (g.sys ≠ []) && g.sys.all (fun y => y.n == x.1 && y.a == 0x40))) = true ∧
    (match (demoSys 0 0 []).argBlock 0 0x40 with
      | .ok _ => true
      | _ => false) = true ∧
    bits (demoSys 0x8000 0 []).mgmt.svcRing.toNat 63 63 = 0 ∧ bits (demoSys 0xFFFF 0x8000000000000000 []).mgmt.svcRing.toNat 63 63 = 1 ∧
    (0 < 2 ^ bits (demoSys 0xFFFF 0x8000000000000000 []).mgmt.svcRing.toNat 27 24) ∧
    (let s := demoSys 0x8000 0x8000000000000000 [⟨5, 1, 0⟩]
     s.host.services.find? (fun y => y.seq == 5) = some ⟨5, 1, 0⟩ ∧ s.mgmt.svcto * 1000000 ≤ s.time - 0 ∧ (s.allWarps.map (fun w => w.id)).Nodup ∧
       s.allWarps.all (fun v => decide (v.pendFaults.length < 8)) = true ∧ s.sched.saved = []) := by decide +kernel

/-- No page table stands. -/
def demoBare : State := { demo with mgmt := { demo.mgmt with parts := Vector.replicate 8 Part.blank }, mem := { demo.mem with mem := [] } }

/-- The command ring at the coherent window's offset 0, with an entry of a code. -/
def demoCmd (code : Nat) : State := { demoBare with mem := { demoBare.mem with mem := Store.setN demoBare.mem.mem (cwBase + 8) (leBytes 2 code) }, mgmt := { demoBare.mgmt with cmdRing := 0x8000000000000000 } }

theorem demoCmd_wf : ∀ c ∈ [0, 1, 2, 3, 4, 0xFFFF], Memory.wf (demoCmd c).mem := by unfold Memory.wf; decide +kernel

/-- Commands of each code, with operands at their bounds. -/
theorem hyps_HostEvents_commands :
    [0, 1, 2, 3, 4, 0xFFFF].all (fun c => ((demoCmd c).cmdEntry == some 0) && (leNat ((demoCmd c).cwRead (0 + 8) 2) == c)) = true ∧
    [0, 63].all (fun i => (hdm i == some (0, i)) && decide (i % 64 + 1 ≤ 64) && ((demoCmd 4).leafAt 0 i).isNone && decide (hdmLoc 0 i none + 1 ≤ cwBase) && !(demoCmd 4).mem.frozen (hdmLoc 0 i none)) = true ∧
    (0xFFFF : Nat) < 2 ^ 16 := by decide +kernel

/-- The bounds of the HDM range; lines that a leaf maps and that none maps; the coherent window; regions of each kind. -/
theorem hyps_HostEvents_accesses :
    hdm (2 ^ 39 + 2 ^ 40 + 2 ^ 22) = none ∧ [(0, 0), (2 ^ 39 - 1, 0), (2 ^ 39, 1), (2 ^ 39 + 2 ^ 40 - 1, 1)].all (fun x => ((hdm x.1).map (fun y => y.1) == some x.2) && (((demoBare.leafAt x.2 ((hdm x.1).getD (0, 0)).2)).isNone)) = true ∧
    ((demo.leafAt 0 0x200100).any (fun x => x.2.2.own == 0 && x.2.2.rmode == 0)) = true ∧ demo.mem.hostLines = [] ∧
    (let l := hbmLoc 0 0x4000
     let own := fun (t : Option Nat) (w : List OwnReq) => ({ demoOwn 1 with host := { demo.host with linkUp := true }, mem := { (demoOwn 1).mem with own := [⟨l, t, 0, 0, w, false, [], false, 0, 0, 0⟩] } } : State)
     let r : OwnReq := { warp := ⟨0, 0⟩, wg := 0, k := 0, want := 2, epc := 20480, pid := 0, addr := 0 }
     [own (some 2) [], own (some 1) [], own none [], own none [r], own (some 2) [r]].all (fun s => (s.mem.own.find? (fun x => x.leafLoc == l)).isSome && s.fab.held.isEmpty && (s.host.linkUp == true) && decide (l % 8 = 0 ∧ l < cwBase) &&
       s.mem.own.all (fun o => decide (o.tenure ≤ s.time) && !o.stuck)) = true ∧
     ((own (some 2) [r]).warpAt ⟨0, 0⟩).isSome = true ∧ (own (some 2) [r]).cur.wg = 0 ∧ (own (some 2) [r]).cur.status = .running ∧ (own (some 2) [r]).cur.pendFaults = []) ∧
    Memory.wf (demoOwn 1).mem := by unfold Memory.wf; decide +kernel

/-- Flits in order: one of a bad CRC; one of no slots; one that writes four bytes at the end of region 15. -/
def demoFlit (seq : Nat) (ts : List Txn) : Flit := mkFlit seq 0 0 0xFFFF ts

theorem demoFlit_good {seq : Nat} {ts : List Txn} (q : seq < 65536) (n : ts.length < 4) (f : ts.all txnFits = true) : flitGood (demoFlit seq ts) = true := by
  have b (z : List Byte) (h : z.length = 240) : ((ts.flatMap slotBytes ++ z).take 240).length = 240 := by
    rw [List.length_take, List.length_append]; omega
  simp only [flitGood, demoFlit, mkFlit, f, b _ List.length_replicate, q, n, flitHead, Nat.zero_lt_succ, and_self, decide_true, beq_self_eq_true, Bool.and_self]

def demoFab : State := { demo with mgmt := { demo.mgmt with regions := demo.mgmt.regions.setIfInBounds 15 { base := 0, len := 0x104, part := 0, valid := true } } }
def demoBytes : List (Option Byte) := [some 1, none, some 3, some 4]

theorem hyps_FabricEvents_flits :
    flitGood { demoFlit 0 [] with typ := 16 } = false ∧ flitGood (demoFlit 0 []) = true ∧ (demoFlit 0 []).seq = (demoFab.peer 143).expected ∧
    (demoFab.peer 143).early = [] ∧ 143 ≠ demoFab.selfSlot ∧ demoFab.mem.home = [] ∧
    (let f := demoFlit 0 [.req ⟨1, 5, 15, 0x100, .write demoBytes⟩]
     flitGood f = true ∧ f.typ = 0 ∧ f.seq = (demoFab.peer 143).expected) ∧
    (let g := demoFab.mgmt.regions.getD 15 { base := 0, len := 0, part := 0, valid := false }
     g.valid = true ∧ 0x100 + demoBytes.length ≤ g.len ∧ translatePerm demoFab g.part 1 ⟨false, true, false⟩ (g.base.toNat + 0x100) = .ok (.loc (hbmLoc 0 0x200100) 0) ∧
       demoFab.mem.poisonOf (hbmLoc 0 0x200100) = none ∧ [0, 1, 2, 3].all (fun i => decide (hbmLoc 0 0x200100 + i < cwBase) && !demoFab.mem.frozen (hbmLoc 0 0x200100 + i)) = true) :=
  ⟨by decide +kernel, demoFlit_good (by decide) (by decide) (by decide), by decide +kernel, rfl, by decide +kernel, rfl,
   ⟨demoFlit_good (by decide) (by decide) (by decide +kernel), rfl, by decide +kernel⟩, by decide +kernel⟩

/-- A peer with four transactions to send, an acknowledgement due, a gap, and flits sent once and eight times. -/
def demoPeer : Peer := { Peer.blank 143 with waiting := [.retired 0, .retired 1, .retired 2, .retired 3], ackDue := some 0, gapSince := some 0,
                                             unacked := [⟨demoFlit 0 [], 0, 1, 0⟩, ⟨demoFlit 65535 [], 15, 8, 0⟩] }
def demoLink : State := { demo with time := 10000, fab := { demo.fab with peers := [demoPeer] } }

theorem hyps_FabricEvents_timers :
    demoPeer.waiting ≠ [] ∧ demoPeer.unacked.length < 4096 ∧ (demoLink.peer 143).slot = 143 ∧ demoLink.livePlanes demoPeer = List.range 16 ∧ demoPeer.ackDue = some 0 ∧ 0 + 512 ≤ demoLink.time ∧
    [0, 65535].all (fun q => (demoPeer.unacked.find? (fun x => x.flit.seq == q)).any (fun u => decide (u.flit.seq = q ∧ u.at_ + 4000 ≤ demoLink.time ∧ (u.sends < 8 ↔ q = 0)))) = true ∧
    demoLink.fab.dark = 0 ∧ demoLink.fab.summaryAt + 10000 ≤ demoLink.time ∧ demoLink.fab.ports.contains 7 = true := by decide +kernel

theorem hyps_FabricEvents_groups (g : Nat) : demoLink.groupFull g = false := by
  have h : demoLink.fab.peers = [demoPeer] := rfl
  simp only [State.groupFull, State.groupHeld, h, List.foldl_cons, List.foldl_nil, decide_eq_false_iff_not]
  have := List.length_filter_le (fun u : Unacked => u.plane / 4 == g) demoPeer.unacked
  have : demoPeer.unacked.length = 2 := rfl
  omega

/-- A rank table of one level-1 and one level-2 table: ranks 0 and 1 are this device and its pod peer in slot 143. -/
def demoRanks : State := { demoLink with mem := { demoLink.mem with mem := Store.setN (Store.setN demoLink.mem.mem (hbmLoc 0 0x10000) (leBytes 8 0x10801)) (hbmLoc 0 0x10800) (leBytes 8 1 ++ leBytes 8 (0x8F001)) },
                                         mgmt := { demo.mgmt with rtBase := 0x10000, nRank := 2, selfRank := 0 } }
theorem hyps_FabricEvents_summary : rankEntry demoRanks 1 = some 0x8F001 ∧ (1 : Nat) < demoRanks.mgmt.nRank ∧ bits 0x8F001 11 2 = bits ((rankEntry demoRanks demoRanks.mgmt.selfRank).getD 0) 11 2 ∧
    bits 0x8F001 19 12 ≠ demoRanks.selfSlot ∧ demoRanks.livePlanes (demoRanks.peer (bits 0x8F001 19 12)) ≠ [] := by decide +kernel

/-- A packet in time and one too late; operations at job scope to complete; packets to resend and to give up. -/
def demoPkt (win : Nat) : JobPacket := { init := 1, tag := 9, gen := 0, idx := 0, count := 1, win := win, logW := 10, entropy := 0, region := 15, off := 0x100, op := .write demoBytes }
def demoRemOp (op : RemOp) : RemoteOp := { tag := 9, group := 0, warp := ⟨0, 0⟩, wg := 0, launch := 0, rank := 1, region := 15, off := 0x100, op := op, job := true, coord := 0, nent := 1, dst := .uni 127 1, addr := 0, epc := 0, pid := 0, sb := 0, sx := 0, kind := 0, inRegion := false, fills := 0, held := false, k := 0, drop := 0, lines := [], via := none, answered := none, refused := [], complete := none }
def demoJob (op : RemOp) (sends : Nat) : State := { demo with time := 10000, fab := { demo.fab with ops := [demoRemOp op], sent := [⟨demoPkt 9, 5, 3, sends, 0, 0, false⟩] }, mgmt := { demo.mgmt with retxt := 10000 } }

theorem hyps_FabricEvents_packets :
    pktDeadline (demoPkt 7) < demoLink.time ∧ demoLink.time ≤ pktDeadline (demoPkt 9) ∧ demoLink.fab.landings = [] ∧
    [RemOp.read 4, .write demoBytes].all (fun op => let s := demoJob op 8
      (s.fab.ops.find? (fun x => x.tag == 9 && x.job && x.answered.isNone && !x.held) == some (demoRemOp op)) && s.fab.ops.all (fun x => !x.held) && (s.warpAt ⟨0, 0⟩).isSome && decide (s.cur.wg = 0)) = true ∧
    [1, 8].all (fun n => let s := demoJob (.read 4) n
      (s.fab.sent.find? (fun y => y.pkt.tag == 9 && y.pkt.idx == 0 && !y.accepted)).any (fun x => decide (x.at_ + s.mgmt.retxt ≤ s.time ∧ x.sends = n)) && !s.fab.ports.isEmpty) = true := by decide +kernel

/-! ## Clauses at their bounds -/

/-- Lane 7's record lies in plain memory; a launch that the warp's workgroup belongs to. -/
theorem hyps_LaunchAndCancel_record (n : Nat) : ∀ j < 4, (demoQueue n).plain (.loc (hbmLoc 0 0x201000 + 64 * j) 0) ∧ (demoQueue n).mem.copies = [] ∧
    hbmLoc 0 0x201000 % 64 = 0 := by
  intro j hj
  have h : hbmLoc 0 0x201000 + 256 < cwBase ∧ hbmLoc 0 0x201000 % 64 = 0 := by decide +kernel
  exact ⟨plain_loc rfl rfl rfl _ (by omega), rfl, h.2⟩

theorem hyps_LaunchAndCancel_units :
    let s := { demoWg with wg := { demoWg.wg with launch := 7 }, sched := { demoWg.sched with launches := [demoLaunch] } }
    (∀ lv ∈ [Level.graph, .phase, .job], ready (.cancel h0 lv) h0 s = true ∧ lanesOn (.cancel h0 lv) h0 s ≠ 0) ∧ s.cur.wg = s.wg.key ∧ s.wg.here = true ∧
      s.sched.launches.find? (fun x => x.key == s.wg.launch) = some demoLaunch ∧ demoLaunch.part = s.wg.part ∧ demoLaunch.cancelled = false := by decide +kernel

/-- Queue 5 is open to another partition, or closed: lane 7 is the lowest lane that meets it. -/
theorem hyps_LaunchAndCancel_closed :
    let g := (demoQueue 15).mgmt.queues
    [QReg.mk 4 3 1 true false, QReg.mk 4 3 0 false false].all (fun x =>
      let s := { demoQueue 15 with mgmt := { (demoQueue 15).mgmt with queues := g.setIfInBounds 5 x } }
      let i : Instr := .launch h0 6 (.v 2) (.v 4)
      ready i h0 s && decide (Mask.lanes (lanesOn i h0 s) = [7]) &&
      okIs (launchTargets (s.opened i h0) (fun l => laneSrc s i h0 (.v 2) 2 l) [7]) [(7, .loc (hbmLoc 0 0x201000) 0)] &&
      !((s.mgmt.queues.getD 5 QReg.blank).isOpen && (s.mgmt.queues.getD 5 QReg.blank).part == s.wg.part)) = true := by decide +kernel

/-- The host link down: a load, a uniform load and an atomic at .host. -/
theorem hyps_linkDown :
    let s : State := { demo1 with host := { demo1.host with linkUp := false } }
    (∀ i ∈ [Instr.ld h0 .glob .w32 .host 0 false 0 (.v 2) (.s 4), .atom h0 .add .glob .w32 .host 0 (.v 8) (.s 4) (.v 9), .ldu h0 .glob .w32 .host 0 0 (.s 6) (.s 4)],
      ready i h0 s = true ∧ lanesOn i h0 s ≠ 0) ∧ s.cur.status = .running ∧ s.cur.pendFaults.length < 8 ∧ s.cur.pend = [] ∧
    okIs (checkLanes (s.opened (.ld h0 .glob .w32 .host 0 false 0 (.v 2) (.s 4)) h0) (plainAccess false .glob .w32 false) (laneAddr s (.ld h0 .glob .w32 .host 0 false 0 (.v 2) (.s 4)) h0 (.s 4) 0) [0])
      [(0, .loc (hbmLoc 0 0x200100) 0)] = true ∧
    okIs (checkLanes (s.opened (.atom h0 .add .glob .w32 .host 0 (.v 8) (.s 4) (.v 9)) h0) (atomAccess .glob .w32 .host) (laneAddr s (.atom h0 .add .glob .w32 .host 0 (.v 8) (.s 4) (.v 9)) h0 (.s 4) 0) [0])
      [(0, .loc (hbmLoc 0 0x200100) 0)] = true ∧ s.frozenRange 4 (.loc (hbmLoc 0 0x200100) 0) = false := by decide +kernel

/-- PREF of one line of this device; SPFE of no line; an offset inside SCRATCH that is no multiple of 128. -/
theorem hyps_CacheOperationsMoveNoData_pref : resolve (demo1.opened (.pref h0 .glob 7 true 0 (.s 4)) h0) (cacheAccess .glob false false) 0 0x100 = .ok (.loc (hbmLoc 0 0x200100) 0) ∧
    demo1.fab.ops = [] ∧ demo1.eng.cmds = [] := by
  refine ⟨?_, rfl, rfl⟩
  exact of_decide_eq_true (by decide +kernel)

theorem hyps_GangWindowsAndFullBits_bounds :
    allReady [.spfe h0 .test 0 (.s 127) (.s 0), .spfe h0 .full 0 (.v 0) (.s 0)] h0 demoWg = true ∧ 127 + 128 * 1 ≤ demoWg.wg.kern.scratch ∧ (127 : Nat) % 128 ≠ 0 := by decide +kernel

/-- OWNREQ of a page without R. -/
theorem hyps_OwnershipRequests_unreadable : ∀ own ∈ [1, 2],
    let s : State := { demo1 with mem := { demo1.mem with mem := Store.setN demo1.mem.mem (hbmLoc 0 0x4000) (leBytes 8 (0x20001B + 64 * own)) } }
    ready (.ownreq h0 true 15 (.s 4)) h0 s = true ∧ excIs (walk s s.wg.part 0x100) ⟨0x20001B + 64 * own, 21, hbmLoc 0 0x4000⟩ = true ∧ bits (0x20001B + 64 * own) 2 2 = 0 := by
  decide +kernel

/-- A restored output port whose record can no longer be read. -/
theorem hyps_PortsBindReportAndClose_reread :
    let s := demo.modCur (fun w => w.setPort 3 (some { demoPort .out with reread := true, recAddr := 0x10000000000 }))
    ready (.strflush h0 3) h0 s = true ∧ lanesOn (.strflush h0 3) h0 s ≠ 0 ∧ (match readRecord (s.opened (.strflush h0 3) h0) 0x10000000000 with
      | .fault c _ => c == 0x084 || c == 0x0A4 || c / 8 == 0x080 / 8
      | _ => false) = true := by decide +kernel

/-- FRZ of the last page of window 0x00 and one more; THAW of an entry of another job; of its own. -/
theorem hyps_FreezingAndThawing_bounds :
    (let s := setS (setS (setS (setS demo1 6 0xFFFFF000) 7 0x00FFFFFF) 8 0x2000) 9 0
     let i : Instr := .frz h0 .dev 15 (.s 127) (.s 6) (.s 8)
     ready i h0 s = true ∧ (s.opened i h0).readUni (.s 6) 2 = 0x00FFFFFFFFFFF000 ∧ window 0x00FFFFFFFFFFF000 = .glob 0x00FFFFFFFFFFF000 ∧ 2 ^ 56 < 0x00FFFFFFFFFFF000 + 0x2000) ∧
    frozenEntry.job = demo1.wg.job demo1 ∧ (99 : Nat) ≠ demo1.wg.job demo1 := by decide +kernel

theorem hyps_RemoteRegions_copies : demo.mem.copies = [] ∧ (demoRegion (some 0x126)).mem.copies = [] := ⟨rfl, rfl⟩

/-- KADD of the most negative number to 0; one past the range. -/
theorem hyps_EngineInstructionsQueueTheirWork_bounds : [(0x80000000 : Word), 0x80000001].all (fun x => ready (.kadd h0 15 (.s 0)) h0 (setS demo 0 x) &&
    (((setS demo 0 x).opened (.kadd h0 15 (.s 0)) h0).readUni (.s 0) 1 == x.setWidth 64)) = true ∧ demo.cur.k = Vector.replicate 16 0 := by decide +kernel

/-- SLOTWR past the data area; behind a read of its slot, and behind a write of it. -/
theorem hyps_AnvilInstructionsQueueTheirWork_order :
    (ready (.slotwr h0 false 63 (.v 239) (.s 0)) h0 (setS demoAnvil 0 2) = true ∧ ((setS demoAnvil 0 2).opened (.slotwr h0 false 63 (.v 239) (.s 0)) h0).readUni (.s 0) 1 = 2) ∧
    [true, false].all (fun w => let s := { demoAnvil with wg := { demoAnvil.wg with order := [{ seq := 1, slot := 63, write := w, needRelo := false, lo := 0, hi := 16384, over_ := [], lost := false }] } }
      ready (.slotwr h0 false 63 (.v 239) (.s 0)) h0 s && s.wg.order.all (fun x => x.slot == 63 && (x.write == w) && !x.needRelo)) = true := by decide +kernel

/-- Hardware faults that may strike: a decode error, a source register's error, a residue of the first unit, a core's own slot. -/
theorem hyps_WarpEvents_strikes :
    [(0x017 : Nat), 0x02E].all (fun c => ((demoWg.focusOn ⟨0, 0⟩).modCur (fun x => { x with issuing := 0 })).mayStrike c) = true ∧
    demoWg.wg.status = .resident ∧
    (let s := demoWg.modCur (fun w => { w with pend := [{ reg := .v 3, old := Vector.replicate 128 7, mask := 1, lat := .fixed 0 0 4, path := 0, epc := placeSlot }], last := .restored })
     s.cur.pend[0]?.isSome = true ∧ (s.focusOn ⟨0, 0⟩).unitAt placeSlot = some .v ∧ (0x040 - 0x040) / 4 = 0 / 16 ∧ 0x030 - 0x030 = 0 % 16 ∧ s.cur.last = .restored) := by decide +kernel

/-- Row operations find their channels free; an MMA that a pre-emption has stopped behind its first granule. -/
theorem hyps_EngineEvents_channels : [true, false].all (fun z => (rowDemo z).eng.cmds.all (fun c => match c.kind with
    | .rowzero dst _ => (List.range 4).all (fun i => !c.wrote 0 i && !((rowDemo z).viewOf c).channelBusy c (channelOf (dst.getD i 0)))
    | .rowcpy _ dst _ _ => (List.range 4).all (fun i => !c.wrote 0 i && !((rowDemo z).viewOf c).channelBusy c (channelOf (dst.getD i 0)))
    | _ => false)) = true := by decide +kernel

theorem hyps_AnvilEvents_step :
    let t := nx (.anvilOpStart 0 .array) (anvilDemo (.mma h0 true true .none 0 15 62 60 15))
    let s : State := { t with eng := { t.eng with anvil := t.eng.anvil.map (fun a => { a with step := 1 }) } }
    s.eng.anvil.all (fun a => a.started && (s.eng.anvil.find? (fun x => x.id == a.id && x.started)).isSome && (s.wgOf a.wg).isSome && (s.warpAt a.warp).isSome && decide (a.step ≠ 0)) = true ∧
      s.eng.anvil.length = 1 := by decide +kernel

/-- A service with the host link down. -/
theorem hyps_HostEvents_linkDown :
    let s : State := { demoSys 1 0 [] with host := { (demoSys 1 0 []).host with linkUp := false } }
    s.mgmt.recovery = false ∧ s.host.linkUp = false ∧ (s.wgOf 1).any (fun g => s.sysReady g && decide (g.sys ≠ []) && g.sys.all (fun y => y.n == 1 && y.a == 0x40)) = true ∧
      (s.allWarps.map (fun w => w.id)).Nodup ∧ s.allWarps.all (fun v => decide (v.pendFaults.length < 8)) = true ∧ s.sched.saved = [] ∧ (demoSys 1 0 []).host.linkUp = true := by decide +kernel

/-- Host accesses to a region of the accelerator's, and of the processor's; nothing waits. -/
theorem hyps_HostEvents_owned : [1, 2].all (fun n => let s := demoOwn n
    !s.mgmt.recovery && (hdm 0x200100 == some (0, 0x200100)) && (s.leafAt 0 0x200100).any (fun x => x.2.2.own == n && (s.mem.ownOf x.2.2.at_).isNone) && s.host.waiting.isEmpty && s.sched.ctl.isEmpty) = true ∧
    (demoCmd 4).mem.home = [] ∧ (demoCmd 4).mem.hostLines = [] ∧ (demoCmd 4).host.waiting = [] ∧ (demoCmd 4).mgmt.recovery = false ∧ demoLink.mem.home = [] ∧ (demoOwn 1).mem.home = [] := by
  refine ⟨by decide +kernel, rfl, rfl, rfl, rfl, rfl, rfl⟩

/-! ## Management -/

/-- Counters on; partition 7 disabled with a core; queue 255 open in partition 0, its record at 0x100. -/
def demoMgmt (held : List Rec) : State :=
  { demo with time := 10000000, mgmt := { demo.mgmt with cntCtl := 1, warm := some 0, parts := demo.mgmt.parts.setIfInBounds 7 { demo.part 7 with cores := 1#192 <<< 191, enable := false }, queues := demo.mgmt.queues.setIfInBounds 255 { QReg.blank with isOpen := true, depth := 4 } }, sched := { demo.sched with queues := [(255, held)] } }

theorem hyps_ManagementEvents :
    (let s := demoMgmt []
     s.mgmt.cntCtl.getLsbD 0 = true ∧ s.logs.snapshotAt + 10000 ≤ s.time ∧ s.mgmt.warm = some 0 ∧ 0 + 10000000 ≤ s.time ∧ demo.mgmt.warm = none ∧ demo.mem.frz.toList.all (fun e => decide (e.state = .free)) = true ∧
       (s.allWarps.map (fun w => w.id)).Nodup ∧ s.mgmt.recovery = false ∧ s.host.waiting = [] ∧ s.fab.held = [] ∧ s.sched.ctl = [] ∧ (s.part 7).enable = false ∧ ((s.part 7).cores &&& s.mgmt.fencedCore = 0)) ∧
    -- PCTL values: refused, and one that enables, with and without a clash
    (bits (0xC00 : Nat) 11 10 = 3 ∧ bits (1 : Nat) 23 16 = 0 ∧ bits (0x10001 : Nat) 11 10 ≠ 3 ∧ bits (0x10001 : Nat) 23 16 ≠ 0 ∧ (0x10001 : DWord).getLsbD 1 = false ∧ (0x10001 : DWord).getLsbD 0 = true ∧
      ((demoMgmt []).part 0).enable = true ∧ ((demoMgmt []).part 0).cores &&& ((demoMgmt []).part 7).cores = 0) ∧
    -- LOGRING values at the limits
    (bits (11 * 2 ^ 24 : Nat) 28 24 = 11 ∧ bits (21 * 2 ^ 24 : Nat) 28 24 = 21 ∧ bits (20 * 2 ^ 24 : Nat) 28 24 = 20 ∧ 64 * bits (2 ^ 63 + 12 * 2 ^ 24 + (2 ^ 22 - 2 ^ 12) : Nat) 21 6 + 2 ^ 12 = 2 ^ 22 ∧
      2 ^ 22 < 64 * bits (2 ^ 63 + 12 * 2 ^ 24 + (2 ^ 22 - 2 ^ 12 + 64) : Nat) 21 6 + 2 ^ 12 ∧ (BitVec.ofNat 64 (2 ^ 63 + 12 * 2 ^ 24) : DWord).getLsbD 63 = true ∧ ((demoMgmt []).part 0).logRing.getLsbD 63 = false) ∧
    -- RTINV and QCFG values; queues open, closed, full
    ((0x80000000 : DWord).toNat % 2 ^ 17 = 0 ∧ (0x80000000 : DWord).getLsbD 31 = true ∧ (0x1FFFF : DWord).getLsbD 31 = false ∧ (0x804 : DWord).toNat % 16 = 4 ∧ (0x804 : DWord).getLsbD 11 = true ∧ (0xC : DWord).toNat % 16 = 12 ∧ (0xD : DWord).toNat % 16 = 13) ∧
    ((demoMgmt []).mgmt.queues.getD 254 QReg.blank).isOpen = false ∧
    [demoMgmt [], demoMgmt (List.replicate 16 (demoRec1 false))].all (fun s => (s.mgmt.queues.getD 255 QReg.blank).isOpen && decide ((s.held 255).length < 2 ^ (s.mgmt.queues.getD 255 QReg.blank).depth ∨ 16 ≤ (s.held 255).length)) = true := by decide +kernel

theorem hyps_ManagementEvents_record : ((demoMgmt []).ctlRead 0 0x100 256).isSome = true ∧ (0x100 : DWord).toNat % 256 = 0 := by
  have h : ((demoMgmt []).ctlTargets 0 0 0x100 256).isSome = true := by decide +kernel
  exact ⟨by simpa [State.ctlRead] using h, by decide⟩

/-- An image that verifies at its fused minimum, one that does not verify, and one below the minimum. -/
def demoImages (third : BootImage) : BootOutcome := ⟨[⟨true, 5, 5⟩, ⟨true, 6, 5⟩, third, ⟨true, 0, 0⟩], 0xFFFF, [], true⟩
theorem hyps_ManagementEvents_boot : [(demoImages ⟨true, 5, 5⟩, true), (demoImages ⟨false, 5, 5⟩, false), (demoImages ⟨true, 4, 5⟩, false)].all (fun x =>
    x.1.failed.isEmpty && ((List.range 4).all (fun i => bootPasses x.1 i) == x.2) && ((List.range 3).any (fun i => !bootPasses x.1 i) == !x.2)) = true := by decide +kernel

/-- The identification, the power cap and the retransmission time as they read after cold reset (R420), and a queue register (R423). -/
theorem test_registers_after_reset : [0x00, 0x50, 0x68, 0x2000].map State.reset.readReg = [0x00B00D54, 3600, 5000, 4] := by decide +kernel

/-! ## More clauses at their bounds -/

/-- A launch that stands, of the warp's workgroup, with a handler and without one. -/
theorem hyps_TrapWithoutHandlerOrTwiceEndsTheWarp_launch :
    let s := { demoWg with wg := { demoWg.wg with launch := 7 }, sched := { demoWg.sched with launches := [demoLaunch] } }
    s.cur.wg = s.wg.key ∧ s.wg.here = true ∧ demoLaunch.key = s.wg.launch ∧ demoLaunch.cancelled = false ∧ s.wg.kern.handler ≠ 0 ∧
      (s.modCur (fun w => { w with trapMode := true })).cur.trapMode = true ∧ s.sched.saved = [] ∧
      ({ s with wg := { s.wg with kern := { s.wg.kern with handler := 0 } } } : State).wg.kern.handler = 0 := by decide +kernel

/-- Port 0 on four elements, with end predicate p30: popped by lane 0 alone, and by every lane, so that all but four find its end. -/
def demoPop (m : Mask) (endP : Nat) : State := (lanes demo m).modCur (fun w => w.setPort 0 (some { demoPort .inp with endP := endP }))

theorem hyps_VectorComputationsOnPorts_layout :
    let i : Instr := .mov h0 .b32 (.v 2) (.q 0)
    (∃ q, vecShape i = some q ∧ q.srcs = [] ++ (.q 0, 1) :: [] ∧ q.d = .v 2 ∧ q.n = 1) ∧
    (let s := demoPop 1 31
     let o := s.opened i h0
     clears i h0 s ∧ lanesOn i h0 s ≠ 0 ∧ o.port 0 = some (demoPort .inp) ∧ certain o (.v 2) ∧ certain o (.p 31) ∧ (demoPort .inp).len = 4 ∧
       (∀ l ∈ Mask.lanes (lanesOn i h0 s), decide (0 + ((Mask.lanes (lanesOn i h0 s)).filter (fun k => decide (k < l))).length < 4) = true) ∧
       ((demoPort .inp).pre = [] ∧ (layOf demoRec).elem 0x1000 0 = some (0x1000, 4, 0) ∧
         engTargets o 0 0x1000 4 = .ok ((List.range 4).map (fun j => .loc (hbmLoc 0 0x201000 + j) 0)) ∧
         ∀ x ∈ (List.range 4).map (fun j => Target.loc (hbmLoc 0 0x201000 + j) 0), o.plain x)) ∧
    (let s := demoPop Mask.full 30
     clears i h0 s ∧ (∃ l ∈ Mask.lanes (lanesOn i h0 s), decide (0 + ((Mask.lanes (lanesOn i h0 s)).filter (fun k => decide (k < l))).length < 4) = false) ∧
       certain (s.opened i h0) (.p 30)) ∧
    (clears i h0 (demoPop Mask.full 31) ∧ (demoPop Mask.full 31).port 0 = some (demoPort .inp)) :=
  ⟨⟨_, rfl, rfl, rfl, rfl⟩,
   ⟨clears_of (by decide +kernel), by decide +kernel, by decide +kernel, certain_of _ _ _ rfl, certain_of _ _ _ rfl, by decide +kernel, by decide +kernel, rfl, by decide +kernel, okIs_eq (by decide +kernel), by
     intro x hx
     obtain ⟨j, hj, rfl⟩ := List.mem_map.mp hx
     have b : hbmLoc 0 0x201000 + 4 < cwBase := by decide +kernel
     exact plain_loc rfl rfl rfl _ (by have := List.mem_range.mp hj; omega)⟩,
   ⟨clears_of (by decide +kernel), by decide +kernel, certain_of _ _ _ rfl⟩, clears_of (by decide +kernel), by decide +kernel⟩

/-- A queue of two elements popped by two lanes, by three while its producer goes on, has closed, or has left. -/
theorem hyps_VectorComputationsOnPorts_queue :
    let i : Instr := .mov h0 .b32 (.v 2) (.q 0)
    let q := fun (closed gone : Bool) (e : Nat) => { demoPort .qin with queue := [5, 6], closed := closed, gone := gone, endP := e }
    [(3, false, false, 31), (7, false, false, 31), (7, false, true, 31), (7, true, false, 31), (7, true, false, 30)].all (fun (x : Nat × Bool × Bool × Nat) =>
      let s := (lanes demo (BitVec.ofNat 128 x.1)).modCur (fun w => w.setPort 0 (some (q x.2.1 x.2.2.1 x.2.2.2)))
      ready i h0 s && ((s.opened i h0).port 0 == some (q x.2.1 x.2.2.1 x.2.2.2)) && ((s.opened i h0).joined (s.opened i h0).cur 0).isNone) = true := by decide +kernel

def floatForms (ty : Ty) : List Instr := [.fadd h0 ty .rn true true false (.v 238) (.v 0) (.s 2), .faddImm h0 ty .rz false (.v 238) (.v 0) 1, .fmul h0 ty .ru false false true (.v 238) (.v 0) (.v 2),
  .fmulImm h0 ty .rd true (.v 238) (.v 0) 1, .fmin h0 ty true false (.v 238) (.v 0) (.v 2), .fminImm h0 ty (.v 238) (.v 0) 1, .fmax h0 ty false false (.v 238) (.v 0) .vz,
  .fmaxImm h0 ty (.v 238) (.v 0) 1, .ffma h0 ty .rn true true false true (.v 238) (.v 0) (.v 2) (.v 4), .ffmaImm h0 ty .rn false (.v 238) (.v 0) 1]
def floatTests (ty : Ty) : List Instr := [.fcmp h0 ty .lt true false 30 (.v 0) (.v 2), .fcmpImm h0 ty .ne 30 (.v 0) 1, .fclassTest h0 ty 30 (.v 0) (.s 4)]
def floatScalars (ty : Ty) : List Instr := [.fclass h0 ty (.v 238) (.v 0), .frnd h0 ty .rz (.v 238) (.v 0), .ffrac h0 ty (.v 238) (.v 0), .fscale h0 ty .rn true (.v 238) (.v 0) (.v 2),
  .rcp h0 ty true (.v 238) (.v 0), .rsq h0 ty false (.v 238) (.v 0), .sqrt h0 ty .ru true (.v 238) (.v 0), .exp2 h0 ty false (.v 238) (.v 0), .log2 h0 ty true (.v 238) (.v 0),
  .sinr h0 ty false (.v 238) (.v 0), .cosr h0 ty true (.v 238) (.v 0)]

theorem hyps_FloatResultsFollowTheRules :
    [Ty.f64, .f32, .f16, .bf16, .f16x2, .bf16x2].all (fun ty => ty.isFloat && allReady (floatForms ty) h0 demo) = true ∧
    [Ty.f64, .f32, .f16, .bf16].all (fun ty => ty.isScalarFloat && allReady (floatTests ty ++ floatScalars ty) h0 demo) = true ∧
    (allReady (floatForms .f64) h0 demo = true ∧ ∀ i ∈ floatForms .f64, vecReady demo i h0 238 (tyRegs .f64)) ∧
    allReady [.cvtq h0 .e4m3b .f32 .rn false (.v 238) (.v 0) (.v 2) (.v 4), .dq h0 .bf16 .e4m3b .ru true (.v 238) (.v 0) (.v 2) (.v 4)] h0 demo = true ∧
    certain (demo.opened (.fcmp h0 .f64 .lt true false 30 (.v 0) (.v 2)) h0) (.p 30) := by
  have a : allReady (floatForms .f64) h0 demo = true := by decide +kernel
  exact ⟨by decide +kernel, by decide +kernel, ⟨a, fun i m => allReady_vec a m demo_pend (by decide)⟩, by decide +kernel, certain_of _ _ _ demo_pend⟩

/-- The forms of the integer statements that stand in no list above: immediates, halves, pairs, and bitwise operations. -/
def moreForms : List Instr := [.iaddImm h0 .b8 true (.v 238) (.v 1) 255, .isubImm h0 .i16 false (.v 238) (.v 1) 1, .imulImm h0 .b64 true (.v 238) (.v 0) 3, .imadImm h0 .i32 false (.v 238) (.v 1) 7,
  .imulh h0 .i64 (.v 238) (.v 0) (.v 2), .imulhImm h0 .b32 (.v 238) (.v 1) 9, .imin h0 .i8 (.v 238) (.v 1) (.v 2), .iminImm h0 .b16 (.v 238) (.v 1) 1, .imax h0 .i64 (.v 238) (.v 0) .vlane,
  .imaxImm h0 .i32 (.v 238) (.v 1) 1, .iabs h0 .i8 true (.v 238) (.v 1), .iabsImm h0 .i64 false (.v 238) 1, .imadw h0 .i32 true (.v 238) (.v 0) (.v 1) (.v 2), .imadwImm h0 .b32 false (.v 238) (.v 0) 5,
  .idot4 h0 .i32 true true false (.v 238) (.v 0) (.v 1) (.v 2), .shlImm h0 .i32 true (.v 238) (.v 1) 40, .shrImm h0 .b64 (.v 238) (.v 0) 63, .sarImm h0 .i8 (.v 238) (.v 1) 8,
  .bfeImm h0 .i64 (.v 238) (.v 0) 0xFFFF, .bfiImm h0 .b32 (.v 238) (.v 1) 0x2004, .and h0 .b64 true false (.v 238) (.v 0) (.v 2), .andImm h0 .i8 (.v 238) (.v 1) 1, .or h0 .b32 false true (.v 238) (.v 0) (.s 2),
  .orImm h0 .i64 (.v 238) (.v 0) 1, .xor h0 .i16 true true (.v 238) (.v 0) (.v 2), .xorImm h0 .b16 (.v 238) (.v 0) 1, .lut3 h0 .b64 0xCA (.v 238) (.v 0) (.v 2) (.v 4), .lut3Imm h0 .b32 0x0A 6 (.v 238) (.v 0) 1,
  .lea h0 .i64 7 (.v 238) (.v 0) (.v 2), .leaImm h0 .b32 0 (.v 238) (.v 0) 1]

theorem hyps_IntegerForms : allReady moreForms h0 demo = true ∧ (∀ i ∈ moreForms, ∀ n, n ≤ 2 → vecReady demo i h0 238 n) ∧ Ty.isWord .i64 = true ∧ Ty.is32 .b32 = true := by
  have a : allReady moreForms h0 demo = true := by decide +kernel
  exact ⟨a, fun i m n hn => allReady_vec a m demo_pend (by omega), rfl, rfl⟩

/-- On the fall-through path of a split warp: a branch to its reconvergence slot, one from the slot before it, and one with no room for its entries. -/
theorem hyps_BranchesSplitAndRejoin_shortCuts :
    let s := demoSplit.modCur (fun w => { w with p := w.p.setIfInBounds 2 0xF0 })
    let at_ := s.modCur (fun w => w.modPath (fun p => { p with pc := 20488 }))
    let full := { s with wg := { s.wg with kern := { s.wg.kern with dspill := 0 } } }.modCur (fun w => { w with spilled := 29 })
    (let i : Instr := .bra h0 false 2 false 8 8
     ready i h0 s = true ∧ s.cur.issuing = 0 ∧ lanesOn i h0 s &&& (s.opened i h0).readP 2 ≠ 0 ∧ s.cur.em &&& ~~~(0xF0#128) ≠ 0 ∧
       s.pc + (8 : BitVec 16).signExtend 64 = s.cur.path.rpc ∧ s.pc + (8 : BitVec 24).signExtend 64 = s.cur.path.rpc) ∧
    (let i : Instr := .bra h0 false 2 false 5 1
     ready i h0 at_ = true ∧ lanesOn i h0 at_ &&& (at_.opened i h0).readP 2 = 0xF0 ∧ at_.pc + 1 = at_.cur.path.rpc ∧
       at_.pc + (5 : BitVec 24).signExtend 64 ≠ at_.cur.path.rpc) ∧
    (let i : Instr := .bra h0 false 2 false 5 9
     ready i h0 full = true ∧ full.cur.stack ≠ [] ∧ full.roomFor 2 = false ∧ full.pc + (9 : BitVec 16).signExtend 64 ≠ full.cur.path.rpc) := by decide +kernel

theorem hyps_BarriersArriveAndWait_modes :
    [Scope.wg, .gang, .dev].all (fun sc => [BarMode.sync, .arrive, .wait].all (fun m => ready (.bar h0 m sc 0 0) h0 demoWg)) = true ∧
    [Scope.gang, .dev].all (fun sc => [BarMode.sync, .arrive, .wait].all (fun m => ready (.barg h0 m sc 7) h0 demoWg && demoWg.converged (lanesOn (.barg h0 m sc 7) h0 demoWg))) = true ∧
    [some 0, none].all (fun r => let s := demoWg.modCur (fun w => { w with barRec := w.barRec.setIfInBounds 0 r, bargRec := w.bargRec.setIfInBounds 7 r })
      ready (.bar h0 .wait .wg 0 0) h0 s && (s.cur.barRec.getD 0 none == r) && ready (.barg h0 .wait .gang 7) h0 s && (s.cur.bargRec.getD 7 none == r) &&
      ((s.wg.bars.getD 0 Barrier.blank).phase == 0) && ((s.gangBar 7).phase == 0)) = true ∧
    demoWg.aliveIn demoWg.wg.key ≤ 0 + 1 ∧ ¬ (2 ≤ (demoWg.wg.bars.getD 0 Barrier.blank).count + 1) := by decide +kernel

theorem hyps_LaunchAndCancel_keys : (demoWg.allWgs.map (·.key)).Nodup ∧ demoWg.cur.wg = demoWg.wg.key ∧ demoWg.wg.here = true := by decide +kernel

/-- A store of two lanes of which the first meets a frozen byte. -/
def demoHalfFrozen : State := setV (setV (lanes demoFrozen 3) 4 (fun l => BitVec.ofNat 32 (0x100 + 0x1000 * l))) 5 (fun _ => 0)

theorem hyps_StoresWriteTheirBytes_frozen :
    let i : Instr := .st h0 .glob .w32 0 false 0 (.v 4) (.v 1)
    let ts : List (Nat × Target) := [(0, .loc (hbmLoc 0 0x200100) 0), (1, .loc (hbmLoc 0 0x201100) 0)]
    clears i h0 demoHalfFrozen ∧ checkLanes (demoHalfFrozen.opened i h0) (plainAccess true .glob .w32 false) (laneAddr demoHalfFrozen i h0 (.v 4) 0) (Mask.lanes (lanesOn i h0 demoHalfFrozen)) = .ok ts ∧
    demoHalfFrozen.cur.status = .running ∧ demoHalfFrozen.cur.pendFaults.length < 8 ∧ ts.find? (fun q => demoHalfFrozen.frozenRange 4 q.2) = some (0, .loc (hbmLoc 0 0x200100) 0) ∧
    (∀ q ∈ ts, q.2.isRemote = false) ∧ demoHalfFrozen.frozenRange 4 (.loc (hbmLoc 0 0x201100) 0) = false ∧ (Target.cells 4 (.loc (hbmLoc 0 0x201100) 0)).Nodup ∧
    demoHalfFrozen.mem.home = [] ∧ (∀ i < 64, demoHalfFrozen.mem.frozen (hbmLoc 0 0x201100 / 64 * 64 + i) = false) :=
  ⟨clears_of (by decide +kernel), okIs_eq (by decide +kernel), by decide +kernel⟩

/-- An address that entries 62 and 63 cover, the one installed for the device, the other thawing and for the job. -/
theorem hyps_FreezingAndThawing_several :
    let s : State := { demoFrozen with mem := { demoFrozen.mem with frz := demoFrozen.mem.frz.setIfInBounds 62 { frozenEntry with state := .thawing, sc := 4 } } }
    let cov := fun (j : Fin 64) => s.mem.frz[j].active && s.mem.frz[j].covers (hbmLoc 0 0x200100)
    ready (.frzq h0 (.s 126) (.s 4)) h0 s = true ∧
    resolve (s.opened (.frzq h0 (.s 126) (.s 4)) h0) frzqAccess 0 ((s.opened (.frzq h0 (.s 126) (.s 4)) h0).readUni (.s 4) 2) = .ok (.loc (hbmLoc 0 0x200100) 0) ∧
    cov 62 = true ∧ cov 63 = true ∧ (∀ x : Fin 64, x < 62 → cov x = false) ∧ ∀ x : Fin 64, cov x = true → s.mem.frz[x].sc ≤ s.mem.frz[(62 : Fin 64)].sc := by decide +kernel

/-- A killed warp whose tile clearing still runs, and one with nothing left. -/
theorem hyps_WarpEvents_killed :
    let s := demoWg.modCur (fun w => { w with status := .killed })
    let t := { s with eng := { s.eng with anvil := [⟨5, 0, 1, ⟨0, 0⟩, 15, .accz, [], true, false, 0, false, 0, 0⟩] } }
    (t.dropDoomed t.cur).workLeft t.cur = true ∧ (s.dropDoomed s.cur).workLeft s.cur = false ∧ t.warpAt ⟨0, 0⟩ = some t.cur := by decide +kernel

/-- Started operations whose slots and tiles hold no uncorrectable error. -/
theorem hyps_AnvilEvents_sound : [(Instr.mma h0 true true .none 0 15 62 60 15, AnvilKind.array), (.accst h0 15 0 (.s 10) (.s 4), .accum), (.accred h0 false true 15 15 (.s 12) (.s 4), .accum),
      (.accrd h0 15 15 (.v 224) (.s 0), .accum), (.slotrd h0 true 63 (.v 239) (.s 0), .slot)].all (fun x => let s := nx (.anvilOpStart 0 x.2) (anvilDemo x.1)
        s.wg.bad.isEmpty && s.sched.launches.isEmpty && s.eng.anvil.all (fun a => a.started && ((s.wgOf a.wg) == some s.wg) && !s.wg.badTile a.tile && (match a.op with
          | .mma d _ _ _ oa ob om _ => !s.wg.badSlots ((fslotOf d).reads oa ob om)
          | _ => true))) = true := by decide +kernel

theorem hyps_AnvilEvents_plain : ∀ x ∈ (contrib none).words, demoWg.mem.frozenN x.1 4 = false := by decide +kernel

/-- An acknowledgement that nothing waits for. -/
theorem hyps_StreamAndFreezeEvents_unexpected : demo.mem.frz[(0 : Fin 64)].state ≠ .thawing := by decide +kernel

/-- The members of the gang whose context is saved are of one partition, whose area is aligned; no context stands. -/
theorem hyps_SchedulingEvents_context : [false, true].all (fun i => let s := demoStop i
    (s.stoppingGang s.wg).all (fun x => x.part == s.wg.part) && (s.stoppingGang s.wg == [s.wg]) && s.sched.saved.isEmpty && s.mem.home.isEmpty &&
      ((s.part s.wg.part).ctxBase.toNat % 64 == 0) && ((s.stoppingGang s.wg).all (fun x => s.eng.anvil.all (fun a => a.wg != x.key)))) = true := by decide +kernel

/-- A region of the accelerator's whose tenure has run out, with a copy that still waits and with none; a region that a device access asked for. -/
theorem hyps_HostEvents_due :
    let l := hbmLoc 0 0x4000
    let own := fun (n : Nat) (t : Option Nat) (due : List Waiter) (asked : Bool) (s : State) =>
      ({ s with mem := { s.mem with mem := Store.setN s.mem.mem l (leBytes 8 (0x20001F + 64 * n)), own := [⟨l, t, 0, 0, [], asked, due, false, 0, 0, 0⟩] }, time := 10000000 } : State)
    let a := own 2 none [.cmd 1] true copyDemo
    let b := own 2 none [.cmd 2] true copyDemo
    let c := own 1 (some 2) [] false copyDemo
    bits (a.mem.dword l) 7 6 = 2 ∧ [Waiter.cmd 1].any a.waiterStands = true ∧ [Waiter.cmd 2].any b.waiterStands = false ∧ 0 ≤ b.time ∧
      (c.mem.own.map (fun o => (o.target, o.stuck, o.asked, o.since))) = [(some 2, false, false, 0)] ∧ 0 + 10000000 ≤ c.time ∧
      a.fab.held = [] ∧ a.host.waiting = [] ∧ a.sched.ctl = [] := by decide +kernel

/-- A poisoned line of the coherent window, of which the host stores a part. -/
theorem hyps_HostEvents_poisoned :
    let s : State := { demo with mem := { demo.mem with poison := [(cwBase / 64, 0)] } }
    (s.mem.poisonOf (64 * ((cwBase + 0) / 64))).isSome = true ∧ (4 : Nat) < 64 ∧ s.mem.hostLines = [] ∧ s.mgmt.recovery = false := by decide +kernel

/-- The pair of slot 143 has lost every plane; slot 1, in the same pod, lists it. -/
def demoRelay : State :=
  let p := { demoPeer with dark := List.range 16 }
  { demoRanks with fab := { demoRanks.fab with peers := [p, { Peer.blank 1 with summary := [143] }] } }

theorem hyps_FabricEvents_relay : demoRelay.livePlanes (demoRelay.peer 143) = [] ∧ (demoRelay.relayOf 143).isSome = true ∧ (143 : Nat) ≠ demoRelay.selfSlot ∧
    rankEntry demoRelay 1 = some 0x8F001 ∧ bits 0x8F001 19 12 = 143 ∧ demoRelay.fab.summaryAt + 10000 ≤ demoRelay.time := by decide +kernel

/-- A message of which a packet has been refused, and one whose refusal has yet to come; a device that was synchronised a second ago, and one that was not. -/
theorem hyps_FabricEvents_refusals :
    let s := fun (r : List Nat) => ({ demoJob (.write demoBytes) 1 with fab := { (demoJob (.write demoBytes) 1).fab with ops := [{ demoRemOp (.write demoBytes) with refused := r }] } } : State)
    [[], [3]].all (fun r => ((s r).fab.ops.find? (fun x => x.tag == 9 && x.answered.isNone)) == some { demoRemOp (.write demoBytes) with refused := r }) = true ∧
    (1 ≤ [3].length ∧ ([] : List Nat).length < 1) ∧ demo.mgmt.timeHeld = true ∧
    demo.fab.syncAt + 1000000000 ≤ ({ demo with time := 1000000000 } : State).time ∧ demo.time < demo.fab.syncAt + 1000000000 := by decide +kernel

/-- Temperatures and powers at the limits; images, planes and locks of each outcome; a device in recovery. -/
theorem hyps_ManagementEvents_bounds :
    (demo.mgmt.pcap < 3601 ∨ ∃ t ∈ ([] : List Nat), 95 < t) ∧ (∃ t ∈ [95, 96], 95 < t) ∧ ¬ (demo.mgmt.pcap < 3600 ∨ ∃ t ∈ [95], 95 < t) ∧
    ((demoImages ⟨true, 5, 5⟩).ptp = true ∧ (demoImages ⟨true, 5, 5⟩).planes = 0xFFFF ∧ (demoImages ⟨true, 5, 5⟩).failed = []) ∧
    ((List.range 3).all (fun i => bootPasses { demoImages ⟨true, 5, 5⟩ with images := [⟨true, 5, 5⟩, ⟨true, 6, 5⟩, ⟨true, 0, 0⟩, ⟨false, 0, 0⟩], planes := 0x7FFF, ptp := false } i) = true) ∧
    ({ demo with mgmt := { demo.mgmt with recovery := true } } : State).mgmt.recovery = true ∧ demo.mgmt.recovery = false ∧
    [demoSched (demoRec1 false)].all (fun s => ((s.sched.launches.filter (fun l => l.queue == 255 && !l.cancelled && l.started.isNone && !l.pooled)).length + (s.held 255).length == 1)) = true := by decide +kernel
end Sys2Proof.Tests
end

section
/-! The predicate p31 (R41): how the model's accesses to predicates behave at number 31, and the masks of guards that name it. -/
namespace Sys2Proof

theorem Mask.and_full (x : Mask) : x &&& Mask.full = x := BitVec.and_allOnes

theorem Mask.not_full : ~~~Mask.full = 0 := BitVec.not_allOnes

end Sys2Proof

namespace Sys2Proof.Machine

variable (s : State)

@[simp] theorem State.readP_thirtyOne : s.readP 31 = Mask.full := rfl

@[simp] theorem State.writeP_thirtyOne (m x : Mask) (lat : Lat) : s.writeP 31 m x lat = s := rfl

/-- A guard of p31 with PN clear is the unguarded form. -/
theorem State.active_of_guard_thirtyOne {h : Hdr} (hpg : h.pg = 31) (hpn : h.pn = false) : s.active h = s.cur.em := by
  simp [State.active, hpg, hpn, Mask.and_full]

/-- A guard of p31 with PN set disables every lane. -/
theorem State.active_of_negated_guard_thirtyOne {h : Hdr} (hpg : h.pg = 31) (hpn : h.pn = true) : s.active h = 0 := by
  simp [State.active, hpg, hpn, Mask.not_full]

end Sys2Proof.Machine
end

section
open Sys2Proof Sys2Proof.Machine

/-- Settles O12, from the rules for reads, writes and guards of p31. -/
theorem predicateThirtyOneIsTrue : Obligations.PredicateThirtyOneIsTrue := by
  unfold Obligations.PredicateThirtyOneIsTrue
  intro s
  refine ⟨s.readP_thirtyOne, s.writeP_thirtyOne, fun h hpg => ?_⟩
  cases hpn : h.pn with
  | false => simpa using s.active_of_guard_thirtyOne hpg hpn
  | true => simpa using s.active_of_negated_guard_thirtyOne hpg hpn

end

section
/-! Opcodes outside the map (R97): what decoding answers for them, and that keeping the fetched line leaves the slot in place. -/
namespace Sys2Proof.Machine

/-- An opcode in one of the ranges that R97 lists, the whole of class 7 among them. -/
def UnlistedOpcode (op : Nat) : Prop :=
  0x01C ≤ op ∧ op ≤ 0x040 ∨ 0x053 ≤ op ∧ op ≤ 0x054 ∨ 0x05B ≤ op ∧ op ≤ 0x07F ∨ 0x08F ≤ op ∧ op ≤ 0x09F ∨
  0x0AF ≤ op ∧ op ≤ 0x0BF ∨ 0x0CA ≤ op ∧ op ≤ 0x0FF ∨ 0x114 ≤ op ∧ op ≤ 0x13F ∨ 0x146 ≤ op ∧ op ≤ 0x17F ∨
  0x194 ≤ op ∧ op ≤ 0x1FF ∨ 0x219 ≤ op ∧ op ≤ 0x27F ∨ 0x28A ≤ op ∧ op ≤ 0x2FF ∨ 0x30D ≤ op

/-- What is left of a choice whose condition fails. The instance is left to unification, which finds it in the goal. -/
theorem dite_eq_of_neg {α : Type} {c : Prop} {_ : Decidable c} {t : c → α} {e : ¬ c → α} {x : α} (hc : ¬ c) (he : e hc = x) :
    dite c t e = x :=
  (dif_neg hc).trans he

set_option smartUnfolding false in
/-- The arms of `decodeWord` that give an instruction are of opcodes in none of the ranges: each is passed, and the last one is reached.
(Without smart unfolding the match is seen as what it is, a choice for each opcode in turn.) -/
theorem decodeWord_of_unlistedOpcode {w : Nat} (hw : UnlistedOpcode (w % 1024)) : decodeWord w = .error 0x000 := by
  unfold UnlistedOpcode at hw
  unfold decodeWord
  generalize w % 1024 = op at hw ⊢
  repeat refine dite_eq_of_neg (by omega) ?_
  rfl

theorem Warp.path_of_stack_nil {w : Warp} (hst : w.stack = []) : w.path = w.base := by
  simp only [Warp.path, hst]

theorem Warp.path_of_stack_cons {w : Warp} {a : Path} {r : List Path} (hst : w.stack = a :: r) : w.path = (a :: r).getD w.issuing a := by
  simp only [Warp.path, hst]

/-- Changing the issuing path changes what is read as the issuing path; with no stack entry at `issuing` both take the topmost. -/
@[simp] theorem Warp.modPath_path (w : Warp) (f : Path → Path) : (w.modPath f).path = f w.path := by
  have hmod := w.modPath_stack f
  cases hst : w.stack with
  | nil =>
    rw [hst] at hmod
    simp only [Warp.path_of_stack_nil hmod, Warp.path_of_stack_nil hst, Warp.modPath_base, hst]
  | cons a r =>
    simp only [hst] at hmod
    rw [Warp.path_of_stack_cons hst]
    by_cases hlt : w.issuing < (a :: r).length
    · rw [if_pos hlt] at hmod
      cases hi : w.issuing with
      | zero =>
        rw [hi, List.modify_zero_cons] at hmod
        simp only [Warp.path_of_stack_cons hmod, Warp.modPath_issuing, hi, List.getD_cons_zero]
      | succ n =>
        have hn : n < r.length := by rw [hi] at hlt; exact Nat.lt_of_succ_lt_succ hlt
        rw [hi, List.modify_succ_cons] at hmod
        simp only [Warp.path_of_stack_cons hmod, Warp.modPath_issuing, hi, List.getD_eq_getElem?_getD, List.getElem?_cons_succ,
          List.getElem?_modify_eq, List.getElem?_eq_getElem hn, Option.map_eq_map, Option.map_some, Option.getD_some]
    · have hle : (a :: r).length ≤ w.issuing := Nat.le_of_not_lt hlt
      have hle' : (f a :: r).length ≤ w.issuing := hle
      rw [if_neg hlt, List.modify_zero_cons] at hmod
      rw [Warp.path_of_stack_cons hmod, Warp.modPath_issuing]
      simp only [List.getD_eq_getElem?_getD, List.getElem?_eq_none hle, List.getElem?_eq_none hle', Option.getD_none]

/-- A slot whose word does not decode ends in a precise trap with the cause that decoding gives. -/
theorem State.decodeSlot_of_decodeWord_error (s : State) (a : Nat) {bs : List Byte} {c : Nat}
    (hc : decodeWord (slotWord bs (s.pc.toNat % 5)) = .error c) :
    s.decodeSlot a bs = .act
      ((s.modCur (fun v => v.modPath (fun p => { p with line := some (a, bs), arr := none, refilled := false }))).precise c 0) := by
  have hpc : (s.modCur (fun v => v.modPath (fun p => { p with line := some (a, bs), arr := none, refilled := false }))).pc = s.pc := by
    simp only [State.pc, State.modCur_cur, Warp.modPath_path]
  simp only [State.decodeSlot, hpc, hc]

end Sys2Proof.Machine
end

section
open Sys2Proof Sys2Proof.Machine

/-- Settles O4: the opcode reaches the last arm of decoding, and the slot raises the cause that decoding gives. -/
theorem unlistedOpcodesTrap : Obligations.UnlistedOpcodesTrap := by
  unfold Obligations.UnlistedOpcodesTrap
  intro s a bs w op hop
  have hw : decodeWord w = .error 0x000 := decodeWord_of_unlistedOpcode hop
  exact ⟨hw, s.decodeSlot_of_decodeWord_error a hw⟩

end

section
/-! Results in registers: which part of the state a register write changes, what the written registers hold afterwards, and what an
instruction whose effect is such a write comes to. -/
namespace Sys2Proof.Machine

variable {s t u o : State}

/-! ## Frames -/

/-- The two states differ only in the warp's registers and in the record of results that are not yet certain. -/
def onlyRegs (u t : State) : Prop :=
  t = { u with cur := { u.cur with v := t.cur.v, s := t.cur.s, p := t.cur.p, pend := t.cur.pend } }

theorem onlyRegs.refl (u : State) : onlyRegs u u := rfl

theorem onlyRegs.trans (hut : onlyRegs u t) (hto : onlyRegs t o) : onlyRegs u o := by
  unfold onlyRegs at hut hto
  rw [hut] at hto
  exact hto

theorem onlyRegs_writeV (s : State) (n : Nat) (m : Mask) (x : VReg) (lat : Lat) : onlyRegs s (s.writeV n m x lat) := rfl

theorem onlyRegs_writeS (s : State) (n : Nat) (x : Word) (lat : Lat) : onlyRegs s (s.writeS n x lat) := rfl

theorem onlyRegs_writeP (s : State) (n : Nat) (m x : Mask) (lat : Lat) : onlyRegs s (s.writeP n m x lat) := by
  unfold State.writeP; split <;> rfl

/-- Closing over an effect that is register writes leaves the stepped state with those registers. -/
theorem onlyRegs_closed {i : Instr} {h : Hdr} (ht : onlyRegs (s.opened i h) t) : onlyRegs (s.stepped h) (s.closed h t) := by
  have hc := closed_regs s t i h ht
  unfold onlyRegs
  rw [closed_v, closed_s, closed_p]
  exact hc

@[simp] theorem stepped_v (s : State) (h : Hdr) : (s.stepped h).cur.v = s.cur.v := by simp [State.stepped]
@[simp] theorem stepped_s (s : State) (h : Hdr) : (s.stepped h).cur.s = s.cur.s := by simp [State.stepped]
@[simp] theorem stepped_p (s : State) (h : Hdr) : (s.stepped h).cur.p = s.cur.p := by simp [State.stepped]

theorem onlyRegs.onlyV (ht : onlyRegs u t) (hs : t.cur.s = u.cur.s) (hp : t.cur.p = u.cur.p) : onlyV u t := by
  unfold onlyRegs at ht
  rw [hs, hp] at ht
  exact ht

theorem onlyRegs.onlyS (ht : onlyRegs u t) (hv : t.cur.v = u.cur.v) (hp : t.cur.p = u.cur.p) : onlyS u t := by
  unfold onlyRegs at ht
  rw [hv, hp] at ht
  exact ht

theorem onlyRegs.onlyP (ht : onlyRegs u t) (hv : t.cur.v = u.cur.v) (hs : t.cur.s = u.cur.s) : onlyP u t := by
  unfold onlyRegs at ht
  rw [hv, hs] at ht
  exact ht

theorem onlyRegs.onlyVP (ht : onlyRegs u t) (hs : t.cur.s = u.cur.s) : onlyVP u t := by
  unfold onlyRegs at ht
  rw [hs] at ht
  exact ht

theorem onlyRegs.onlyPend (ht : onlyRegs u t) (hv : t.cur.v = u.cur.v) (hs : t.cur.s = u.cur.s) (hp : t.cur.p = u.cur.p) : onlyPend u t := by
  unfold onlyRegs at ht
  rw [hv, hs, hp] at ht
  exact ht

/-! ## Certainty across writes to other registers -/

theorem certain_writeV {r : PReg} {n : Nat} {m : Mask} {x : VReg} {lat : Lat} (hr : PReg.v n ≠ r) (hc : certain s r) :
    certain (s.writeV n m x lat) r := by
  intro p hp hreg
  obtain rfl | hp := List.mem_cons.mp hp
  · exact absurd hreg hr
  · exact hc p hp hreg

theorem certain_writeS {r : PReg} {n : Nat} {x : Word} {lat : Lat} (hr : PReg.s n ≠ r) (hc : certain s r) :
    certain (s.writeS n x lat) r := by
  intro p hp hreg
  obtain rfl | hp := List.mem_cons.mp hp
  · exact absurd hreg hr
  · exact hc p hp hreg

/-! ## What a written register holds -/

/-- With nothing earlier uncertain in the register, a write puts its new value in the lanes of the mask (R81). -/
theorem settleWrite_certain {r : PReg} (hc : certain s r) (ctr : Nat) (cur new : VReg) (m : Mask) (l : Fin 128) :
    (settleWrite s.cur ctr r cur new m)[l] = if m.getLsbD l then new[l] else cur[l] := by
  simp [settleWrite, certain_filter s r hc]

theorem writeS_get {n : Nat} (x : Word) (lat : Lat) (hc : certain s (.s n)) (r : Fin 128) :
    (s.writeS n x lat).cur.s[r] = if (r : Nat) = n then x else s.cur.s[r] := by
  have hnew := settleWrite_certain hc s.freeCtr (Vector.replicate 128 (s.cur.s.getD n 0)) (Vector.replicate 128 x) Mask.full 0
  have hfull : Mask.full.getLsbD (0 : Fin 128) = true := rfl
  rw [if_pos hfull] at hnew
  have hget : (settleWrite s.cur s.freeCtr (.s n) (Vector.replicate 128 (s.cur.s.getD n 0)) (Vector.replicate 128 x) Mask.full).getD 0 0 = x := by
    simpa [Vector.getD] using hnew
  simp only [State.writeS, State.modCur, hget, Fin.getElem_fin, Vector.getElem_setIfInBounds, eq_comm]

theorem any_uncertain_of_certain {r : PReg} (hc : certain s r) : s.cur.pend.any (fun q => q.reg == r && q.uncertain) = false := by
  simpa using fun q hq hreg => hc q hq hreg

theorem writeP_get {n : Nat} (m x : Mask) (lat : Lat) (hc : certain s (.p n)) (r : Fin 31) (l : Fin 128) :
    (s.writeP n m x lat).cur.p[r].getLsbD l = if m.getLsbD l ∧ (r : Nat) = n then x.getLsbD l else s.cur.p[r].getLsbD l := by
  have hr := r.isLt
  have hl := l.isLt
  by_cases hn : n = 31
  · subst hn
    rw [State.writeP_thirtyOne, if_neg (by omega)]
  simp only [State.writeP, if_neg hn, State.modCur, any_uncertain_of_certain hc, Fin.getElem_fin, Vector.getElem_setIfInBounds]
  by_cases hrn : (r : Nat) = n
  · subst hrn
    cases hm : m.getLsbD l <;> simp [hm, hl, -BitVec.getLsbD_eq_getElem, Vector.getD]
  · simp [hrn, Ne.symm hrn]

/-! ## Written destinations -/

/-- A bit of a union is a bit of one of the terms that were taken. -/
theorem getLsbD_foldl_or {w : Nat} (p : Nat → Bool) (g : Nat → BitVec w) (ls : List Nat) (x : BitVec w) (k : Nat) :
    (ls.foldl (fun y j => if p j then y ||| g j else y) x).getLsbD k = (x.getLsbD k || ls.any (fun j => p j && (g j).getLsbD k)) := by
  induction ls generalizing x with
  | nil => simp
  | cons j ls ih =>
    rw [List.foldl_cons, ih, List.any_cons]
    cases p j <;> simp [Bool.or_assoc]

theorem getLsbD_maskOf (f : Nat → Bool) (l : Fin 128) : (maskOf f).getLsbD l = f l := by
  have hbit : ∀ k < 128, (1#128 <<< k).getLsbD l = decide ((l : Nat) = k) := by
    intro k _
    have hl := l.isLt
    rw [BitVec.getLsbD_shiftLeft, BitVec.getLsbD_one, Bool.eq_iff_iff]
    simp only [Bool.and_eq_true, Bool.not_eq_true', decide_eq_true_eq, decide_eq_false_iff_not]
    omega
  rw [maskOf, getLsbD_foldl_or, Bool.eq_iff_iff]
  simp only [BitVec.ofNat_eq_ofNat, BitVec.getLsbD_zero, Bool.false_or, List.any_eq_true, List.mem_range, Bool.and_eq_true]
  constructor
  · rintro ⟨k, hk, hf, hlk⟩
    rw [hbit k hk, decide_eq_true_eq] at hlk
    rwa [hlk]
  · exact fun hf => ⟨l, l.isLt, hf, by rw [hbit l l.isLt, decide_eq_true rfl]⟩

/-- The state in which a destination of `n` vector registers from `r` holds a value in the lanes of a mask. -/
def State.writeVec (s : State) (r n : Nat) (m : Mask) (x : Lanes) (lat : Lat) : State :=
  let t := s.writeV r m (x.map (fun (y : DWord) => y.setWidth 32)) lat
  if n = 2 then t.writeV (r + 1) m (x.map (fun (y : DWord) => (y >>> 32).setWidth 32)) lat else t

theorem putVec_v (s : State) (r n : Nat) (m : Mask) (x : Lanes) (lat : Lat) :
    s.putVec (.v r) n m x lat = .ok (s.writeVec r n m x lat) := rfl

theorem onlyRegs_writeVec (s : State) (r n : Nat) (m : Mask) (x : Lanes) (lat : Lat) : onlyRegs s (s.writeVec r n m x lat) := by
  unfold State.writeVec; split <;> rfl

@[simp] theorem writeVec_s (s : State) (r n : Nat) (m : Mask) (x : Lanes) (lat : Lat) : (s.writeVec r n m x lat).cur.s = s.cur.s := by
  unfold State.writeVec; split <;> rfl

@[simp] theorem writeVec_p (s : State) (r n : Nat) (m : Mask) (x : Lanes) (lat : Lat) : (s.writeVec r n m x lat).cur.p = s.cur.p := by
  unfold State.writeVec; split <;> rfl

theorem certain_writeVec {k r n : Nat} {m : Mask} {x : Lanes} {lat : Lat} (hc : certain s (.p k)) :
    certain (s.writeVec r n m x lat) (.p k) := by
  unfold State.writeVec
  split
  · exact certain_writeV nofun (certain_writeV nofun hc)
  · exact certain_writeV nofun hc

theorem wroteV_writeVec {r n : Nat} (m : Mask) (x : Lanes) (lat : Lat) (hc : certain s (.v r)) (hc2 : n = 2 → certain s (.v (r + 1))) :
    wroteV s (s.writeVec r n m x lat) r n m (fun l => x.getD l 0) := by
  intro k l
  unfold State.writeVec
  split
  next hn =>
    rw [writeV_get _ _ _ _ _ (certain_writeV (by simp) (hc2 hn)), writeV_get _ _ _ _ _ hc]
    by_cases hk : (k : Nat) = r
    · simp [hk, Vector.getD]
    · simp [hk, hn, Vector.getD]
  next hn =>
    rw [writeV_get _ _ _ _ _ hc]
    simp [hn, Vector.getD]

/-- A uniform destination takes its value, and nothing else changes. -/
theorem putUni_regs (r n : Nat) (x : DWord) (lat : Lat) (hc : certain s (.s r)) (hc2 : n = 2 → certain s (.s (r + 1))) :
    onlyRegs s (s.putUni (.s r) n x lat) ∧ (s.putUni (.s r) n x lat).cur.v = s.cur.v ∧ (s.putUni (.s r) n x lat).cur.p = s.cur.p ∧
      wroteS s (s.putUni (.s r) n x lat) r n x := by
  by_cases hn : n = 2
  · have hc' : certain (s.writeS r (x.setWidth 32) lat) (.s (r + 1)) := certain_writeS (by simp) (hc2 hn)
    simp only [State.putUni, if_pos hn, State.writeS2]
    refine ⟨(onlyRegs_writeS _ _ _ _).trans (onlyRegs_writeS _ _ _ _), rfl, rfl, fun k => ?_⟩
    rw [writeS_get _ _ hc', writeS_get _ _ hc]
    by_cases hk : (k : Nat) = r
    · simp [hk]
    · simp [hk, hn]
  · simp only [State.putUni, if_neg hn]
    refine ⟨onlyRegs_writeS _ _ _ _, rfl, rfl, fun k => ?_⟩
    rw [writeS_get _ _ hc]
    simp [hn]

/-! ## What an instruction comes to -/

theorem wroteV_closed {i : Instr} {h : Hdr} {r n : Nat} {m : Mask} {x : Nat → DWord} (ht : wroteV (s.opened i h) t r n m x) :
    wroteV s (s.closed h t) r n m x := by
  intro k l
  simpa only [closed_v, opened_v] using ht k l

theorem wroteP_closed {i : Instr} {h : Hdr} {k : Nat} {m : Mask} {f : Nat → Bool} (ht : wroteP (s.opened i h) t k m f) :
    wroteP s (s.closed h t) k m f := by
  intro j l
  simpa only [closed_p, opened_p] using ht j l

theorem wroteS_closed {i : Instr} {h : Hdr} {r n : Nat} {x : DWord} (ht : wroteS (s.opened i h) t r n x) :
    wroteS s (s.closed h t) r n x := by
  intro k
  simpa only [closed_s, opened_s] using ht k

theorem wroteP_writeP {k : Nat} (m : Mask) (f : Nat → Bool) (lat : Lat) (hc : certain s (.p k)) :
    wroteP s (s.writeP k m (maskOf f) lat) k m f := by
  intro j l
  rw [writeP_get m _ lat hc, getLsbD_maskOf]

/-- Which lane values were written matters in the 128 lanes only. -/
theorem wroteV.congr {r n : Nat} {m : Mask} {x y : Nat → DWord} (hw : wroteV s t r n m x) (hxy : ∀ l < 128, x l = y l) :
    wroteV s t r n m y := by
  intro k l
  rw [hw k l, hxy l l.isLt]

theorem wroteP.congr {k : Nat} {m : Mask} {f g : Nat → Bool} (hw : wroteP s t k m f) (hfg : ∀ l < 128, f l = g l) : wroteP s t k m g := by
  intro j l
  rw [hw j l, hfg l l.isLt]

theorem getD_lane {α : Type} (x : Vector α 128) (d : α) {l : Nat} (hl : l < 128) : x.getD l d = x[(⟨l, hl⟩ : Fin 128)] := by
  simp [Vector.getD, hl]

theorem getD_ofFn {α : Type} (g : Fin 128 → α) (d : α) {l : Nat} (hl : l < 128) : (Vector.ofFn g).getD l d = g ⟨l, hl⟩ := by
  simp [Vector.getD, hl]

/-- An instruction that writes one vector result. -/
theorem run_writeVec {i : Instr} {h : Hdr} {eff : State → Mask → Eff} {r n : Nat} {x : Lanes} {lat : Lat} (hready : vecReady s i h r n)
    (heff : eff (s.opened i h) (lanesOn i h s) = .ok ((s.opened i h).writeVec r n (lanesOn i h s) x lat)) :
    ∃ t, run i h eff s = .next t ∧ onlyV (s.stepped h) t ∧ wroteV s t r n (lanesOn i h s) (fun l => x.getD l 0) := by
  obtain ⟨⟨_, hclear⟩, hc, hc2, _⟩ := hready
  exact ⟨_, run_ok i h eff s _ hclear heff, (onlyRegs_closed (onlyRegs_writeVec _ _ _ _ _ _)).onlyV (by simp) (by simp),
    wroteV_closed (wroteV_writeVec _ _ _ hc hc2)⟩

/-- A vector computation on registers takes the lane values of its sources, as they stood when it opened. -/
theorem run_vecOp {i : Instr} {h : Hdr} {srcs : List (Opd × Nat)} {r n lat : Nat} {f : Nat → List DWord → DWord}
    (hsrcs : ∀ x ∈ srcs, isReg x.1 = true) (hready : vecReady s i h r n) :
    ∃ t, run i h (vecOp srcs (.v r) n lat f) s = .next t ∧ onlyV (s.stepped h) t ∧
      wroteV s t r n (lanesOn i h s) (fun l => f l (srcs.map (fun x => laneSrc s i h x.1 x.2 l))) := by
  obtain ⟨t, hrun, hframe, hw⟩ := run_writeVec hready ((vecOp_regs srcs r n lat f _ _ hsrcs).trans (putVec_v _ _ _ _ _ _))
  refine ⟨t, hrun, hframe, hw.congr fun l hl => ?_⟩
  simp only [getD_ofFn _ _ hl, laneSrc, getD_lane _ _ hl]

theorem laneVal_one {r : Nat} (hr : r < 240) (l : Fin 128) : t.laneVal r 1 l = (t.cur.v[r][l]).setWidth 64 := by
  have hreg : (t.cur.v.getD r (Vector.replicate 128 0)).getD l 0 = t.cur.v[r][l] := by simp [Vector.getD, hr]
  rw [← hreg]
  rfl

theorem laneVal_two {r : Nat} (hr : r + 1 < 240) (l : Fin 128) : t.laneVal r 2 l = t.cur.v[r + 1][l] ++ t.cur.v[r][l] := by
  have hlow : (t.cur.v.getD r (Vector.replicate 128 0)).getD l 0 = t.cur.v[r][l] := by simp [Vector.getD, Nat.lt_of_succ_lt hr]
  have hhigh : (t.cur.v.getD (r + 1) (Vector.replicate 128 0)).getD l 0 = t.cur.v[r + 1][l] := by simp [Vector.getD, hr]
  rw [← hlow, ← hhigh]
  rfl

theorem setWidth_word_of_lt {x : DWord} (hx : x.toNat < 2 ^ 32) : (x.setWidth 32).setWidth 64 = x := by
  apply BitVec.eq_of_toNat_eq
  rw [BitVec.toNat_setWidth, BitVec.toNat_setWidth, Nat.mod_eq_of_lt hx, Nat.mod_eq_of_lt x.isLt]

theorem append_halves (x : DWord) : (x >>> 32).setWidth 32 ++ x.setWidth 32 = x := by
  apply BitVec.eq_of_getLsbD_eq
  intro k hk
  refine BitVec.getLsbD_append.trans ?_
  by_cases hlow : k < 32
  · simp [hlow]
  · simp [hlow, show k - 32 < 32 by omega, show 32 + (k - 32) = k by omega]

/-- The value of a destination in the file is what was written there, where that fits its registers. -/
theorem laneVal_of_wroteV {r n : Nat} {m : Mask} {x : Nat → DWord} (hw : wroteV s t r n m x) (hr : r + n ≤ 240) (hn : n = 1 ∨ n = 2)
    (l : Fin 128) (hl : m.getLsbD l = true) (hfit : (x l).toNat < 2 ^ (32 * n)) : t.laneVal r n l = x l := by
  have hlow : t.cur.v[r][l] = (x l).setWidth 32 := (hw ⟨r, by omega⟩ l).trans (if_pos ⟨hl, rfl⟩)
  obtain rfl | rfl := hn
  · rw [laneVal_one (by omega), hlow, setWidth_word_of_lt hfit]
  · have hhigh : t.cur.v[r + 1][l] = (x l >>> 32).setWidth 32 :=
      (hw ⟨r + 1, by omega⟩ l).trans ((if_neg (by simp)).trans (if_pos ⟨hl, rfl, rfl⟩))
    rw [laneVal_two (by omega), hlow, hhigh, append_halves]

/-- Outside the written registers, and in the lanes off the mask, every register is what it was. -/
theorem wroteV_frame {r n : Nat} {m : Mask} {x : Nat → DWord} (hw : wroteV s t r n m x) (hn : n = 1 ∨ n = 2) (k : Fin 240) (l : Fin 128)
    (hkl : (k : Nat) < r ∨ r + n ≤ k ∨ m.getLsbD l = false) : t.cur.v[k][l] = s.cur.v[k][l] := by
  rw [hw k l, if_neg, if_neg]
  · rintro ⟨hl, rfl, hk⟩
    simp only [hl, Bool.true_eq_false, or_false] at hkl
    omega
  · rintro ⟨hl, hk⟩
    simp only [hl, Bool.true_eq_false, or_false] at hkl
    omega

/-- A vector computation whose value fits its destination, and meets `P` in every active lane. -/
theorem computes_of_vecOp {i : Instr} {h : Hdr} {srcs : List (Opd × Nat)} {r n lat : Nat} {f : Nat → List DWord → DWord}
    {P : Nat → DWord → Prop} (hexec : exec i s = run i h (vecOp srcs (.v r) n lat f) s) (hsrcs : ∀ x ∈ srcs, isReg x.1 = true)
    (hn : n = 1 ∨ n = 2) (hready : vecReady s i h r n) (hfit : ∀ l xs, (f l xs).toNat < 2 ^ (32 * n))
    (hP : ∀ l, P l (f l (srcs.map (fun x => laneSrc s i h x.1 x.2 l)))) : computes s i h r n P := by
  obtain ⟨t, hrun, hframe, hw⟩ := run_vecOp (lat := lat) (f := f) hsrcs hready
  refine ⟨t, hexec.trans hrun, hframe, fun l hl => ?_, wroteV_frame hw hn⟩
  rw [laneVal_of_wroteV hw hready.2.2.2 hn l hl (hfit _ _)]
  exact hP l

end Sys2Proof.Machine
end

section
/-! Results of the integer instructions, bit by bit (R15, R99, R105 to R110). -/
namespace Sys2Proof.Machine

/-! ## Bits of exact integers -/

/-- Bit `k` of an integer in two's complement: a negative number has the complements of the bits of −x − 1. -/
def intBit : Int → Nat → Bool
  | .ofNat n, k => n.testBit k
  | .negSucc n, k => !n.testBit k

theorem intBit_natCast (n k : Nat) : intBit (n : Int) k = n.testBit k := rfl

theorem intBit_negSucc (n k : Nat) : intBit (Int.negSucc n) k = !n.testBit k := rfl

theorem two_pow_pos_int (n : Nat) : (0 : Int) < 2 ^ n := Int.pow_pos (by decide)

theorem natCast_two_pow (n : Nat) : ((2 ^ n : Nat) : Int) = 2 ^ n := Int.natCast_pow 2 n

theorem intBit_ediv_two_pow (x : Int) (p k : Nat) : intBit (x / 2 ^ p) k = intBit x (p + k) := by
  rw [← natCast_two_pow]
  cases x with
  | ofNat n =>
    show (n / 2 ^ p).testBit k = n.testBit (p + k)
    rw [Nat.testBit_div_two_pow, Nat.add_comm]
  | negSucc n =>
    have hdiv : Int.negSucc n / ((2 ^ p : Nat) : Int) = Int.negSucc (n / 2 ^ p) := by
      rw [Int.negSucc_ediv n (by rw [natCast_two_pow]; exact two_pow_pos_int p), Int.negSucc_eq]
      rfl
    rw [hdiv, intBit_negSucc, intBit_negSucc, Nat.testBit_div_two_pow, Nat.add_comm]

theorem testBit_toNat_emod_two_pow (x : Int) (n k : Nat) : (x % 2 ^ n).toNat.testBit k = (decide (k < n) && intBit x k) := by
  rw [← natCast_two_pow]
  cases x with
  | ofNat m =>
    show (m % 2 ^ n).testBit k = (decide (k < n) && m.testBit k)
    rw [Nat.testBit_mod_two_pow]
  | negSucc m =>
    have hlt := Nat.mod_lt m (Nat.two_pow_pos n)
    have hmod : (Int.negSucc m % ((2 ^ n : Nat) : Int)).toNat = 2 ^ n - (m % 2 ^ n + 1) := by
      rw [Int.negSucc_emod m (by rw [natCast_two_pow]; exact two_pow_pos_int n), ← Int.natCast_emod]
      generalize m % 2 ^ n = r at hlt ⊢
      generalize 2 ^ n = w at hlt ⊢
      omega
    rw [hmod, Nat.testBit_two_pow_sub_succ hlt, Nat.testBit_mod_two_pow, intBit_negSucc]
    cases decide (k < n) <;> rfl

theorem testBit_top {w n : Nat} (hw : 0 < w) (hn : n < 2 ^ w) : n.testBit (w - 1) = decide (2 ^ (w - 1) ≤ n) := by
  have htwo : 2 ^ w = 2 ^ (w - 1) * 2 := by rw [← Nat.pow_succ, Nat.succ_eq_add_one, Nat.sub_add_cancel hw]
  have hq : n / 2 ^ (w - 1) < 2 := Nat.div_lt_of_lt_mul (by omega)
  have hle : 1 ≤ n / 2 ^ (w - 1) ↔ 1 * 2 ^ (w - 1) ≤ n := Nat.le_div_iff_mul_le (Nat.two_pow_pos _)
  rw [Nat.one_mul] at hle
  rw [Nat.testBit_eq_decide_div_mod_eq, Nat.mod_eq_of_lt hq, decide_eq_decide, ← hle]
  omega

/-- A pattern read as signed repeats its top bit for ever. -/
theorem intBit_signedPat {w n : Nat} (hw : 0 < w) (hn : n < 2 ^ w) (k : Nat) :
    intBit (signedPat w n) k = n.testBit (if k < w then k else w - 1) := by
  have htop : n.testBit (w - 1) = decide (2 ^ (w - 1) ≤ n) := testBit_top hw hn
  unfold signedPat
  split
  next hlt =>
    rw [intBit_natCast]
    split
    next => rfl
    next hk =>
      rw [htop, decide_eq_false (Nat.not_le.mpr hlt)]
      exact Nat.testBit_lt_two_pow (Nat.lt_of_lt_of_le hlt (Nat.pow_le_pow_right (by decide) (by omega)))
  next hge =>
    have hneg : (n : Int) - 2 ^ w = Int.negSucc (2 ^ w - (n + 1)) := by
      rw [Int.negSucc_eq, ← natCast_two_pow]
      omega
    rw [hneg, intBit_negSucc, Nat.testBit_two_pow_sub_succ hn]
    split
    next hk => rw [decide_eq_true hk, Bool.true_and, Bool.not_not]
    next hk => rw [htop, decide_eq_false hk, decide_eq_true (Nat.not_lt.mp hge), Bool.false_and, Bool.not_false]

/-! ## Patterns of a type -/

theorem testBit_pat (w : Nat) (x : DWord) (k : Nat) : (pat w x).testBit k = (decide (k < w) && x.getLsbD k) := by
  rw [pat, Nat.testBit_mod_two_pow, BitVec.testBit_toNat]

theorem pat_lt (w : Nat) (x : DWord) : pat w x < 2 ^ w := Nat.mod_lt _ (Nat.two_pow_pos w)

theorem tyBits_pos (ty : Ty) : 0 < tyBits ty := by cases ty <;> decide

theorem tyBits_le (ty : Ty) : tyBits ty ≤ 32 * tyRegs ty := by cases ty <;> decide

theorem tyBits_le_64 (ty : Ty) : tyBits ty ≤ 64 := by cases ty <;> decide

theorem tyRegs_cases (ty : Ty) : tyRegs ty = 1 ∨ tyRegs ty = 2 := by cases ty <;> decide

/-- The integer that an operand is read as, bit by bit (R15, R99): above the pattern come zeros, or copies of its top bit. -/
theorem intBit_intVal (ty : Ty) (x : DWord) (k : Nat) :
    intBit (intVal ty x) k = if k < tyBits ty then x.getLsbD k else tySigned ty && x.getLsbD (tyBits ty - 1) := by
  have hpos := tyBits_pos ty
  simp only [intVal]
  cases hs : tySigned ty with
  | false =>
    rw [if_neg Bool.false_ne_true, intBit_natCast, testBit_pat]
    split
    next hk => rw [decide_eq_true hk, Bool.true_and]
    next hk => rw [decide_eq_false hk, Bool.false_and, Bool.false_and]
  | true =>
    rw [if_pos rfl, intBit_signedPat hpos (pat_lt _ _), testBit_pat]
    split
    next hk => rw [decide_eq_true hk, Bool.true_and]
    next => rw [decide_eq_true (Nat.sub_lt hpos Nat.one_pos)]

/-! ## Values as they stand in a destination -/

/-- The value is a pattern of the type extended to its destination's registers (R99). -/
def Extended (ty : Ty) (y : DWord) : Prop := y = extend ty (pat (tyBits ty) y)

/-- A narrow pattern with its top bit set gains the bits above it up to bit 31 under an i type; any other stands as it is. -/
theorem toNat_extend (ty : Ty) {n : Nat} (hn : n < 2 ^ tyBits ty) :
    (extend ty n).toNat = n ∨ tyBits ty < 32 ∧ (extend ty n).toNat = n + (2 ^ 32 - 2 ^ tyBits ty) := by
  unfold extend
  split
  next hneg =>
    have hw : tyBits ty < 32 := by simp only [Bool.and_eq_true, decide_eq_true_eq] at hneg; omega
    have hpow : 2 ^ tyBits ty ≤ 2 ^ 32 := Nat.pow_le_pow_right (by decide) (Nat.le_of_lt hw)
    refine .inr ⟨hw, ?_⟩
    rw [BitVec.toNat_ofNat, Nat.mod_eq_of_lt (by omega)]
    omega
  next =>
    have hpow : 2 ^ tyBits ty ≤ 2 ^ 64 := Nat.pow_le_pow_right (by decide) (tyBits_le_64 ty)
    exact .inl (Nat.mod_eq_of_lt (by omega))

theorem pat_extend (ty : Ty) {n : Nat} (hn : n < 2 ^ tyBits ty) : pat (tyBits ty) (extend ty n) = n := by
  unfold pat
  obtain h | ⟨hw, h⟩ := toNat_extend ty hn
  · rw [h, Nat.mod_eq_of_lt hn]
  · have hdvd : 2 ^ tyBits ty ∣ 2 ^ 32 - 2 ^ tyBits ty := Nat.dvd_sub (Nat.pow_dvd_pow 2 (Nat.le_of_lt hw)) (Nat.dvd_refl _)
    rw [h, Nat.add_mod, Nat.mod_eq_zero_of_dvd hdvd, Nat.add_zero, Nat.mod_mod, Nat.mod_eq_of_lt hn]

theorem extended_extend (ty : Ty) {n : Nat} (hn : n < 2 ^ tyBits ty) : Extended ty (extend ty n) := by
  rw [Extended, pat_extend ty hn]

theorem toNat_extend_lt (ty : Ty) {n : Nat} (hn : n < 2 ^ tyBits ty) : (extend ty n).toNat < 2 ^ (32 * tyRegs ty) := by
  have hregs : 2 ^ tyBits ty ≤ 2 ^ (32 * tyRegs ty) := Nat.pow_le_pow_right (by decide) (tyBits_le ty)
  have hword : 2 ^ 32 ≤ 2 ^ (32 * tyRegs ty) := Nat.pow_le_pow_right (by decide) (by obtain h | h := tyRegs_cases ty <;> omega)
  obtain h | ⟨hw, h⟩ := toNat_extend ty hn
  · omega
  · have hpow : 2 ^ tyBits ty ≤ 2 ^ 32 := Nat.pow_le_pow_right (by decide) (Nat.le_of_lt hw)
    omega

theorem Extended.lt {ty : Ty} {y : DWord} (hy : Extended ty y) : y.toNat < 2 ^ (32 * tyRegs ty) := by
  rw [hy]
  exact toNat_extend_lt ty (pat_lt _ _)

theorem getLsbD_extend (ty : Ty) {n k : Nat} (hn : n < 2 ^ tyBits ty) (hk : k < tyBits ty) : (extend ty n).getLsbD k = n.testBit k := by
  have hbit := testBit_pat (tyBits ty) (extend ty n) k
  rw [pat_extend ty hn] at hbit
  simpa [hk] using hbit.symm

theorem extend_zero (ty : Ty) : extend ty 0 = 0 := by
  simp [extend]

theorem toNat_emod_lt (x : Int) (w : Nat) : (x % 2 ^ w).toNat < 2 ^ w := by
  have hlt := Int.emod_lt_of_pos x (two_pow_pos_int w)
  have hcast := natCast_two_pow w
  omega

theorem extended_intRes (ty : Ty) (sat : Bool) (x : Int) : Extended ty (intRes ty sat x) := extended_extend ty (toNat_emod_lt _ _)

theorem getLsbD_intRes (ty : Ty) (x : Int) {k : Nat} (hk : k < tyBits ty) : (intRes ty false x).getLsbD k = intBit x k := by
  have h := getLsbD_extend ty (toNat_emod_lt x (tyBits ty)) hk
  rw [testBit_toNat_emod_two_pow, decide_eq_true hk, Bool.true_and] at h
  exact h

/-! ## The bitwise operations (R105) -/

theorem extended_aluBit (op : BitOp) (ty : Ty) (na nb : Bool) (a b : DWord) : Extended ty (aluBit op ty na nb a b) :=
  extended_extend ty (pat_lt _ _)

theorem getLsbD_extend_pat (ty : Ty) (x : DWord) {k : Nat} (hk : k < tyBits ty) : (extend ty (pat (tyBits ty) x)).getLsbD k = x.getLsbD k := by
  rw [getLsbD_extend ty (pat_lt _ _) hk, testBit_pat, decide_eq_true hk, Bool.true_and]

/-- A source that is complemented on request. -/
theorem getLsbD_complemented (neg : Bool) (x : DWord) {k : Nat} (hk : k < 64) :
    (if neg then ~~~x else x).getLsbD k = (x.getLsbD k != neg) := by
  cases neg <;> simp [hk]

theorem getLsbD_aluBit (op : BitOp) (ty : Ty) (na nb : Bool) (a b : DWord) {k : Nat} (hk : k < tyBits ty) :
    (aluBit op ty na nb a b).getLsbD k =
      let x := a.getLsbD k != na
      let y := b.getLsbD k != nb
      match op with
      | .and => x && y
      | .or => x || y
      | .xor => x != y := by
  have hk64 : k < 64 := Nat.lt_of_lt_of_le hk (tyBits_le_64 ty)
  refine (getLsbD_extend_pat ty _ hk).trans ?_
  cases op with
  | and => simp only [BitVec.getLsbD_and, getLsbD_complemented _ _ hk64]
  | or => simp only [BitVec.getLsbD_or, getLsbD_complemented _ _ hk64]
  | xor => simp only [BitVec.getLsbD_xor, getLsbD_complemented _ _ hk64]

/-- Without complements, as in the immediate forms. -/
theorem getLsbD_aluBit_plain (op : BitOp) (ty : Ty) (a b : DWord) {k : Nat} (hk : k < tyBits ty) :
    (aluBit op ty false false a b).getLsbD k =
      match op with
      | .and => a.getLsbD k && b.getLsbD k
      | .or => a.getLsbD k || b.getLsbD k
      | .xor => a.getLsbD k != b.getLsbD k := by
  rw [getLsbD_aluBit op ty false false a b hk]
  simp only [Bool.bne_false]

theorem extended_aluLut (lut : BitVec 8) (ty : Ty) (a b c : DWord) : Extended ty (aluLut lut ty a b c) := extended_extend ty (pat_lt _ _)

theorem getLsbD_literal {w k : Nat} (x : BitVec w) (hk : k < w) (c : Prop) [Decidable c] :
    (if c then x else ~~~x).getLsbD k = (x.getLsbD k == decide c) := by
  by_cases hc : c <;> simp [hc, hk]

/-- The table has one term for each entry that is set, and the bits of the sources leave the term of one entry (R105). -/
theorem getLsbD_lutBits {w : Nat} (lut : BitVec 8) (a b c : BitVec w) {k : Nat} (hk : k < w) :
    (lutBits lut a b c).getLsbD k = lut.getLsbD (4 * (a.getLsbD k).toNat + 2 * (b.getLsbD k).toNat + (c.getLsbD k).toNat) := by
  rw [lutBits, getLsbD_foldl_or]
  simp only [BitVec.getLsbD_and, getLsbD_literal _ hk]
  generalize a.getLsbD k = x
  generalize b.getLsbD k = y
  generalize c.getLsbD k = z
  -- with the three bits known, one term of eight is left
  cases x <;> cases y <;> cases z <;> simp [List.range, List.range.loop]

theorem getLsbD_aluLut (lut : BitVec 8) (ty : Ty) (a b c : DWord) {k : Nat} (hk : k < tyBits ty) :
    (aluLut lut ty a b c).getLsbD k = lut.getLsbD (4 * (a.getLsbD k).toNat + 2 * (b.getLsbD k).toNat + (c.getLsbD k).toNat) := by
  rw [aluLut, getLsbD_extend_pat ty _ hk, getLsbD_lutBits lut a b c (Nat.lt_of_lt_of_le hk (tyBits_le_64 ty))]

/-! ## The shifts (R107) -/

theorem extended_aluShl (ty : Ty) (sat : Bool) (a b : DWord) : Extended ty (aluShl ty sat a b) := by
  unfold aluShl
  dsimp only
  split
  · exact extended_intRes _ _ _
  · split
    · rw [← extend_zero ty]
      exact extended_extend ty (Nat.two_pow_pos _)
    · exact extended_extend ty (Nat.mod_lt _ (Nat.two_pow_pos _))

theorem getLsbD_aluShl (ty : Ty) (a b : DWord) {k : Nat} (hk : k < tyBits ty) :
    (aluShl ty false a b).getLsbD k =
      (decide (b.toNat % 2 ^ 32 < tyBits ty) && decide (b.toNat % 2 ^ 32 ≤ k) && a.getLsbD (k - b.toNat % 2 ^ 32)) := by
  unfold aluShl
  generalize b.toNat % 2 ^ 32 = c
  simp only [Bool.false_eq_true, if_false]
  split
  next hc => simp [Nat.not_lt.mpr hc]
  next hc =>
    rw [getLsbD_extend ty (Nat.mod_lt _ (Nat.two_pow_pos _)) hk, Nat.testBit_mod_two_pow, Nat.testBit_mul_two_pow, testBit_pat]
    simp [hk, Nat.not_le.mp hc, show k - c < tyBits ty by omega]

theorem extended_aluShr (ty : Ty) (a b : DWord) : Extended ty (aluShr ty a b) := by
  unfold aluShr
  dsimp only
  split
  · rw [← extend_zero ty]
    exact extended_extend ty (Nat.two_pow_pos _)
  · exact extended_extend ty (Nat.lt_of_le_of_lt (Nat.div_le_self _ _) (pat_lt _ _))

theorem getLsbD_aluShr (ty : Ty) (a b : DWord) {k : Nat} (hk : k < tyBits ty) :
    (aluShr ty a b).getLsbD k = (decide (k + b.toNat % 2 ^ 32 < tyBits ty) && a.getLsbD (k + b.toNat % 2 ^ 32)) := by
  unfold aluShr
  generalize b.toNat % 2 ^ 32 = c
  dsimp only
  split
  next hc => simp [show ¬ k + c < tyBits ty by omega]
  next hc => rw [getLsbD_extend ty (Nat.lt_of_le_of_lt (Nat.div_le_self _ _) (pat_lt _ _)) hk, Nat.testBit_div_two_pow, testBit_pat]

theorem extended_aluSar (ty : Ty) (a b : DWord) : Extended ty (aluSar ty a b) := extended_extend ty (toNat_emod_lt _ _)

theorem getLsbD_aluSar (ty : Ty) (a b : DWord) {k : Nat} (hk : k < tyBits ty) :
    (aluSar ty a b).getLsbD k =
      a.getLsbD (if k + b.toNat % 2 ^ 32 < tyBits ty then k + b.toNat % 2 ^ 32 else tyBits ty - 1) := by
  unfold aluSar
  generalize b.toNat % 2 ^ 32 = c
  dsimp only
  rw [getLsbD_extend ty (toNat_emod_lt _ _) hk, testBit_toNat_emod_two_pow, decide_eq_true hk, Bool.true_and, intBit_ediv_two_pow,
    intBit_signedPat (tyBits_pos ty) (pat_lt _ _), testBit_pat]
  have hidx : (if min c (tyBits ty - 1) + k < tyBits ty then min c (tyBits ty - 1) + k else tyBits ty - 1) =
      if k + c < tyBits ty then k + c else tyBits ty - 1 := by
    split <;> split <;> omega
  have hlt : (if k + c < tyBits ty then k + c else tyBits ty - 1) < tyBits ty := by split <;> omega
  rw [hidx, decide_eq_true hlt, Bool.true_and]

/-! ## SHL under SAT (R16, R107) -/

/-- The range of a type holds no value of 65 bits or more. -/
theorem tyRange_bounds (ty : Ty) : -2 ^ 64 < (tyRange ty).1 ∧ (tyRange ty).1 ≤ (tyRange ty).2 ∧ (tyRange ty).2 < 2 ^ 64 := by
  cases ty <;> decide

theorem two_pow_tyBits (ty : Ty) : (2 : Int) ^ tyBits ty = 2 * 2 ^ (tyBits ty - 1) := by
  rw [Int.mul_comm, ← Int.pow_succ, Nat.succ_eq_add_one, Nat.sub_add_cancel (tyBits_pos ty)]

/-- A value in the range of its type is read back from its pattern. -/
theorem intVal_extend_emod (ty : Ty) {x : Int} (hlo : (tyRange ty).1 ≤ x) (hhi : x ≤ (tyRange ty).2) :
    intVal ty (extend ty (x % 2 ^ tyBits ty).toNat) = x := by
  have hpow := two_pow_tyBits ty
  simp only [intVal, pat_extend ty (toNat_emod_lt _ _)]
  cases hs : tySigned ty with
  | false =>
    simp only [tyRange, hs, Bool.false_eq_true, if_false] at hlo hhi ⊢
    rw [Int.emod_eq_of_lt hlo (by omega), Int.toNat_of_nonneg hlo]
  | true =>
    simp only [tyRange, hs, if_true] at hlo hhi ⊢
    have hcast := natCast_two_pow (tyBits ty - 1)
    unfold signedPat
    by_cases hneg : x < 0
    · have hmod : x % 2 ^ tyBits ty = x + 2 ^ tyBits ty := by
        rw [← Int.add_emod_right, Int.emod_eq_of_lt (by omega) (by omega)]
      rw [hmod, if_neg (by omega)]
      omega
    · rw [Int.emod_eq_of_lt (by omega) (by omega), if_pos (by omega)]
      omega

theorem intVal_intRes_sat (ty : Ty) (x : Int) : intVal ty (intRes ty true x) = max (tyRange ty).1 (min (tyRange ty).2 x) := by
  have hle := (tyRange_bounds ty).2.1
  exact intVal_extend_emod ty (Int.le_max_left _ _) (Int.max_le.mpr ⟨hle, Int.min_le_left _ _⟩)

/-- Beyond 65 places a value clamps as it does at 65: a value other than 0 has left the range of every type. -/
theorem clamp_shift_min (ty : Ty) (x : Int) (c : Nat) :
    max (tyRange ty).1 (min (tyRange ty).2 (x * 2 ^ min c 65)) = max (tyRange ty).1 (min (tyRange ty).2 (x * 2 ^ c)) := by
  obtain ⟨hlo, hle, hhi⟩ := tyRange_bounds ty
  obtain hc | hc := Nat.le_total c 65
  · rw [Nat.min_eq_left hc]
  · rw [Nat.min_eq_right hc]
    have hpow : (2 : Int) ^ 65 ≤ 2 ^ c := by
      rw [← natCast_two_pow, ← natCast_two_pow]
      exact Int.ofNat_le.mpr (Nat.pow_le_pow_right (by decide) hc)
    obtain hx | rfl | hx := Int.lt_trichotomy x 0
    · have hc65 : x * 2 ^ c ≤ x * 2 ^ 65 := Int.mul_le_mul_of_nonpos_left (Int.le_of_lt hx) hpow
      omega
    · rw [Int.zero_mul, Int.zero_mul]
    · have hc65 : x * 2 ^ 65 ≤ x * 2 ^ c := Int.mul_le_mul_of_nonneg_left hpow (Int.le_of_lt hx)
      omega

theorem intVal_aluShl_sat (ty : Ty) (a b : DWord) : intVal ty (aluShl ty true a b) =
    max (tyRange ty).1 (min (tyRange ty).2 (intVal ty a * 2 ^ (b.toNat % 2 ^ 32))) := by
  have h := intVal_intRes_sat ty (intVal ty a * 2 ^ min (b.toNat % 2 ^ 32) 65)
  rw [clamp_shift_min] at h
  exact h

end Sys2Proof.Machine
end

section
/-! Counts, fields and byte picks, from the model's results to bits and bytes (R108, R109, R110). -/
namespace Sys2Proof.Machine

variable {s : State} {i : Instr} {h : Hdr} {srcs : List (Opd × Nat)} {r lat : Nat} {f : Nat → List DWord → DWord}

/-- A vector computation whose value is a pattern of the type, extended to the destination. -/
theorem computes_extended {ty : Ty} {P : Nat → DWord → Prop}
    (hexec : exec i s = run i h (vecOp srcs (.v r) (tyRegs ty) lat f) s) (hsrcs : ∀ x ∈ srcs, isReg x.1 = true)
    (hready : vecReady s i h r (tyRegs ty)) (hext : ∀ l xs, Extended ty (f l xs))
    (hP : ∀ l, P l (f l (srcs.map (fun x => laneSrc s i h x.1 x.2 l)))) :
    computes s i h r (tyRegs ty) (fun l y => y = extend ty (pat (tyBits ty) y) ∧ P l y) :=
  computes_of_vecOp hexec hsrcs (tyRegs_cases ty) hready (fun l xs => (hext l xs).lt) (fun l => ⟨hext _ _, hP l⟩)

@[simp] theorem isReg_v (k : Nat) : isReg (.v k) = true := rfl

/-- A count or a field in an immediate is the immediate. -/
theorem toNat_immVal32 (imm : BitVec 32) : (immVal32 imm).toNat = imm.toNat :=
  (BitVec.toNat_setWidth 64 imm).trans (Nat.mod_eq_of_lt (by omega))

/-! ## POPC and CLZ (R108) -/

/-- The ones of the pattern, of which there are no more than its bits. -/
theorem toNat_aluPopc (ty : Ty) (a : DWord) :
    (aluPopc ty a).toNat = ((List.range (tyBits ty)).filter (fun k => a.getLsbD k)).length ∧ (aluPopc ty a).toNat ≤ tyBits ty := by
  have hle : ((List.range (tyBits ty)).filter (fun k => a.getLsbD k)).length ≤ tyBits ty :=
    Nat.le_trans (List.length_filter_le _ _) (Nat.le_of_eq List.length_range)
  have hbits := tyBits_le_64 ty
  have h : (aluPopc ty a).toNat = ((List.range (tyBits ty)).filter (fun k => a.getLsbD k)).length := Nat.mod_eq_of_lt (by omega)
  exact ⟨h, Nat.le_trans (Nat.le_of_eq h) hle⟩

theorem toNat_aluClz (ty : Ty) (a : DWord) :
    (aluClz ty a).toNat = if pat (tyBits ty) a = 0 then tyBits ty else tyBits ty - 1 - Nat.log2 (pat (tyBits ty) a) := by
  have hbits := tyBits_le_64 ty
  refine Nat.mod_eq_of_lt ?_
  split <;> omega

/-- The highest one of the pattern stands right below the zeros that CLZ counts. -/
theorem aluClz_counts (ty : Ty) (a : DWord) :
    (aluClz ty a).toNat ≤ tyBits ty ∧
    (∀ k, tyBits ty - (aluClz ty a).toNat ≤ k → k < tyBits ty → a.getLsbD k = false) ∧
    ((aluClz ty a).toNat < tyBits ty → a.getLsbD (tyBits ty - 1 - (aluClz ty a).toNat) = true) := by
  have hbit : ∀ k < tyBits ty, a.getLsbD k = (pat (tyBits ty) a).testBit k := by
    intro k hk
    rw [testBit_pat, decide_eq_true hk, Bool.true_and]
  have hlt := pat_lt (tyBits ty) a
  rw [toNat_aluClz]
  generalize pat (tyBits ty) a = n at hbit hlt
  split
  next hzero =>
    subst hzero
    refine ⟨Nat.le_refl _, fun k _ hk => ?_, fun h => absurd h (Nat.lt_irrefl _)⟩
    rw [hbit k hk, Nat.zero_testBit]
  next hne =>
    have hlog : n.log2 < tyBits ty := (Nat.log2_lt hne).mpr hlt
    refine ⟨by omega, fun k hlow hk => ?_, fun _ => ?_⟩
    · rw [hbit k hk]
      exact Nat.testBit_lt_two_pow (Nat.lt_of_lt_of_le Nat.lt_log2_self (Nat.pow_le_pow_right (by decide) (by omega)))
    · rw [show tyBits ty - 1 - (tyBits ty - 1 - n.log2) = n.log2 by omega, hbit _ hlog]
      exact Nat.testBit_log2 hne

/-! ## BFE and BFI (R109) -/

theorem extended_aluBfe (ty : Ty) (a b : DWord) : Extended ty (aluBfe ty a b) := by
  unfold aluBfe
  dsimp only
  split
  · rw [← extend_zero ty]
    exact extended_extend ty (Nat.two_pow_pos _)
  · exact extended_intRes _ _ _

/-- The field of BFE lies in the operand read as an integer; above its last bit come zeros, or copies of it under an i type. -/
theorem getLsbD_aluBfe_intVal (ty : Ty) (a b : DWord) {k : Nat} (hk : k < tyBits ty) :
    let p := (fieldOf ty b).1
    let len := (fieldOf ty b).2
    (aluBfe ty a b).getLsbD k =
      if k < len then intBit (intVal ty a) (p + k) else decide (0 < len) && tySigned ty && intBit (intVal ty a) (p + len - 1) := by
  intro p len
  have hfield : ∀ j, ((intVal ty a / 2 ^ p) % 2 ^ len).toNat.testBit j = (decide (j < len) && intBit (intVal ty a) (p + j)) := by
    intro j
    rw [testBit_toNat_emod_two_pow, intBit_ediv_two_pow]
  have hlt : ((intVal ty a / 2 ^ p) % 2 ^ len).toNat < 2 ^ len := toNat_emod_lt _ _
  have halu : aluBfe ty a b = if len = 0 then 0 else intRes ty false (if tySigned ty then
      signedPat len ((intVal ty a / 2 ^ p) % 2 ^ len).toNat else ((intVal ty a / 2 ^ p) % 2 ^ len).toNat) := rfl
  rw [halu]
  generalize ((intVal ty a / 2 ^ p) % 2 ^ len).toNat = x at hfield hlt
  by_cases hlen : len = 0
  · simp [hlen]
  have hpos : 0 < len := Nat.pos_of_ne_zero hlen
  rw [if_neg hlen, getLsbD_intRes ty _ hk]
  cases hs : tySigned ty with
  | false =>
    rw [if_neg Bool.false_ne_true, intBit_natCast, hfield]
    split
    next hkl => rw [decide_eq_true hkl, Bool.true_and]
    next hkl => rw [decide_eq_false hkl, Bool.false_and, Bool.and_false, Bool.false_and]
  | true =>
    rw [if_pos rfl, intBit_signedPat hpos hlt, hfield]
    split
    next hkl => rw [decide_eq_true hkl, Bool.true_and]
    next =>
      have hidx : p + len - 1 = p + (len - 1) := by omega
      rw [decide_eq_true (Nat.sub_lt hpos Nat.one_pos), decide_eq_true hpos, hidx, Bool.true_and, Bool.true_and, Bool.true_and]

theorem getLsbD_aluBfe (ty : Ty) (a b : DWord) {k : Nat} (hk : k < tyBits ty) :
    let p := (fieldOf ty b).1
    let len := (fieldOf ty b).2
    let bit := fun j => if j < tyBits ty then a.getLsbD j else tySigned ty && a.getLsbD (tyBits ty - 1)
    (aluBfe ty a b).getLsbD k = if k < len then bit (p + k) else decide (0 < len) && tySigned ty && bit (p + len - 1) := by
  intro p len bit
  have h := getLsbD_aluBfe_intVal ty a b hk
  simp only [intBit_intVal] at h
  exact h

theorem extended_aluBfi (ty : Ty) (a b c : DWord) : Extended ty (aluBfi ty a b c) := extended_extend ty (pat_lt _ _)

/-- The mask of BFI's field. -/
theorem getLsbD_fieldMask (p len : Nat) {k : Nat} (hk : k < 64) :
    (BitVec.ofNat 64 ((2 ^ len - 1) * 2 ^ p)).getLsbD k = decide (p ≤ k ∧ k < p + len) := by
  rw [BitVec.getLsbD_ofNat, Nat.testBit_mul_two_pow, Nat.testBit_two_pow_sub_one, decide_eq_true hk, Bool.true_and, Bool.eq_iff_iff]
  simp only [Bool.and_eq_true, decide_eq_true_eq]
  omega

theorem getLsbD_aluBfi (ty : Ty) (a b c : DWord) {k : Nat} (hk : k < tyBits ty) :
    let p := (fieldOf ty b).1
    let len := (fieldOf ty b).2
    (aluBfi ty a b c).getLsbD k = if p ≤ k ∧ k < p + len then a.getLsbD (k - p) else c.getLsbD k := by
  intro p len
  have hk64 : k < 64 := Nat.lt_of_lt_of_le hk (tyBits_le_64 ty)
  have halu : aluBfi ty a b c =
    let m : DWord := BitVec.ofNat 64 ((2 ^ len - 1) * 2 ^ p)
    extend ty (pat (tyBits ty) ((c &&& ~~~m) ||| (BitVec.ofNat 64 (a.toNat * 2 ^ p) &&& m))) := rfl
  have hmoved : p ≤ k → (BitVec.ofNat 64 (a.toNat * 2 ^ p)).getLsbD k = a.getLsbD (k - p) := by
    intro hp
    rw [BitVec.getLsbD_ofNat, Nat.testBit_mul_two_pow, BitVec.testBit_toNat, decide_eq_true hk64, decide_eq_true hp, Bool.true_and, Bool.true_and]
  rw [halu, getLsbD_extend_pat ty _ hk, BitVec.getLsbD_or, BitVec.getLsbD_and, BitVec.getLsbD_and, BitVec.getLsbD_not, getLsbD_fieldMask p len hk64,
    decide_eq_true hk64]
  by_cases hin : p ≤ k ∧ k < p + len
  · rw [if_pos hin, decide_eq_true hin, hmoved hin.1]
    simp
  · rw [if_neg hin, decide_eq_false hin]
    simp

/-! ## BPICK (R110) -/

/-- The byte that BPICK makes of the eight bytes of `e` for a byte of the selector. -/
def pickedByte (e sel : Nat) : Nat :=
  let x := e / 256 ^ (sel % 8) % 256
  if sel / 16 % 2 = 1 then 0 else if sel / 8 % 2 = 1 then (if 128 ≤ x then 255 else 0) else x

theorem pickedByte_lt (e sel : Nat) : pickedByte e sel < 256 := by
  unfold pickedByte
  dsimp only
  split
  · omega
  · split
    · split <;> omega
    · omega

/-- The eight bytes are those of A, then those of B. -/
theorem byte_of_pair (a b : Nat) {n : Nat} (hn : n < 8) :
    (a % 2 ^ 32 + 2 ^ 32 * (b % 2 ^ 32)) / 256 ^ n % 256 = if n < 4 then a / 256 ^ n % 256 else b / 256 ^ (n - 4) % 256 := by
  obtain rfl | rfl | rfl | rfl | rfl | rfl | rfl | rfl : n = 0 ∨ n = 1 ∨ n = 2 ∨ n = 3 ∨ n = 4 ∨ n = 5 ∨ n = 6 ∨ n = 7 := by omega
  all_goals
    simp only [Nat.reducePow, Nat.reduceLT, Nat.reduceSub, if_true, if_false]
    omega

/-- BPICK's bytes as R110 describes them. -/
theorem pickedByte_pair (a b sel : Nat) :
    pickedByte (a % 2 ^ 32 + 2 ^ 32 * (b % 2 ^ 32)) sel =
      let e := if sel % 8 < 4 then a / 256 ^ (sel % 8) % 256 else b / 256 ^ (sel % 8 - 4) % 256
      if sel / 16 % 2 = 1 then 0 else if sel / 8 % 2 = 1 then (if e / 128 = 1 then 255 else 0) else e := by
  have he := byte_of_pair a b (Nat.mod_lt sel (by omega : 8 > 0))
  have hlt := Nat.mod_lt ((a % 2 ^ 32 + 2 ^ 32 * (b % 2 ^ 32)) / 256 ^ (sel % 8)) (by omega : 256 > 0)
  unfold pickedByte
  dsimp only
  rw [he] at hlt ⊢
  have htop : ∀ x < 256, 128 ≤ x ↔ x / 128 = 1 := by omega
  simp only [htop _ hlt]

/-- Four bytes put together, and taken apart again. -/
theorem bytes_of_sum (byte : Nat → Nat) (hbyte : ∀ j, byte j < 256) :
    let y := BitVec.ofNat 64 (byte 0 + 256 * byte 1 + 65536 * byte 2 + 16777216 * byte 3)
    y.toNat < 2 ^ 32 ∧ ∀ j < 4, y.toNat / 256 ^ j % 256 = byte j := by
  have h0 := hbyte 0
  have h1 := hbyte 1
  have h2 := hbyte 2
  have h3 := hbyte 3
  have hval : (BitVec.ofNat 64 (byte 0 + 256 * byte 1 + 65536 * byte 2 + 16777216 * byte 3)).toNat =
      byte 0 + 256 * byte 1 + 65536 * byte 2 + 16777216 * byte 3 := Nat.mod_eq_of_lt (by omega)
  simp only [hval]
  refine ⟨by omega, fun j hj => ?_⟩
  obtain rfl | rfl | rfl | rfl : j = 0 ∨ j = 1 ∨ j = 2 ∨ j = 3 := by omega
  all_goals
    simp only [Nat.reducePow]
    omega

/-- BPICK's result in bytes. -/
theorem byte_aluBpick (a b c : DWord) :
    (aluBpick a b c).toNat < 2 ^ 32 ∧ ∀ j < 4, (aluBpick a b c).toNat / 256 ^ j % 256 =
      pickedByte (a.toNat % 2 ^ 32 + 2 ^ 32 * (b.toNat % 2 ^ 32)) (c.toNat / 256 ^ j % 256) :=
  bytes_of_sum (fun j => pickedByte (a.toNat % 2 ^ 32 + 2 ^ 32 * (b.toNat % 2 ^ 32)) (c.toNat / 256 ^ j % 256)) (fun _ => pickedByte_lt _ _)

end Sys2Proof.Machine
end

section
open Sys2Proof Sys2Proof.Machine

/-- Settles O19: each shift gives an extended pattern, read bit by bit, and the clamped SHL the exact value in its range; a count in an
immediate is the immediate itself. -/
theorem shiftResults : Obligations.ShiftResults := by
  unfold Obligations.ShiftResults
  intro s h ty r a b imm _ ha hb
  have himm : (immVal32 imm).toNat % 2 ^ 32 = imm.toNat := by rw [toNat_immVal32, Nat.mod_eq_of_lt imm.isLt]
  dsimp only
  refine ⟨⟨fun hr => ?shl, fun hr => ?shlImm⟩, ⟨fun hr => ?shlSat, fun hr => ?shlSatImm⟩, ⟨fun hr => ?shr, fun hr => ?shrImm⟩,
    ⟨fun hr => ?sar, fun hr => ?sarImm⟩⟩
  case shl =>
    exact computes_extended rfl (by simp [ha, hb]) hr (fun _ _ => extended_aluShl _ _ _ _) (fun _ _ hk => getLsbD_aluShl ty _ _ hk)
  case shlImm =>
    exact computes_extended rfl (by simp [ha]) hr (fun _ _ => extended_aluShl _ _ _ _)
      (fun _ _ hk => himm ▸ getLsbD_aluShl ty _ (immVal32 imm) hk)
  case shlSat =>
    exact computes_extended rfl (by simp [ha, hb]) hr (fun _ _ => extended_aluShl _ _ _ _) (fun _ => intVal_aluShl_sat ty _ _)
  case shlSatImm =>
    exact computes_extended rfl (by simp [ha]) hr (fun _ _ => extended_aluShl _ _ _ _)
      (fun _ => himm ▸ intVal_aluShl_sat ty _ (immVal32 imm))
  case shr =>
    exact computes_extended rfl (by simp [ha, hb]) hr (fun _ _ => extended_aluShr _ _ _) (fun _ _ hk => getLsbD_aluShr ty _ _ hk)
  case shrImm =>
    exact computes_extended rfl (by simp [ha]) hr (fun _ _ => extended_aluShr _ _ _)
      (fun _ _ hk => himm ▸ getLsbD_aluShr ty _ (immVal32 imm) hk)
  case sar =>
    exact computes_extended rfl (by simp [ha, hb]) hr (fun _ _ => extended_aluSar _ _ _) (fun _ _ hk => getLsbD_aluSar ty _ _ hk)
  case sarImm =>
    exact computes_extended rfl (by simp [ha]) hr (fun _ _ => extended_aluSar _ _ _)
      (fun _ _ hk => himm ▸ getLsbD_aluSar ty _ (immVal32 imm) hk)

/-- Settles O20: both counts are at most the width of the type, so that they fit D, and the highest one bounds the zeros of CLZ. -/
theorem populationAndLeadingZeros : Obligations.PopulationAndLeadingZeros := by
  unfold Obligations.PopulationAndLeadingZeros
  intro s h ty r a _ ha
  have hbits := tyBits_le_64 ty
  refine ⟨fun hr => ?_, fun hr => ?_⟩
  · exact computes_of_vecOp rfl (by simp [ha]) (.inl rfl) hr (fun _ _ => Nat.lt_of_le_of_lt (Nat.le_trans (toNat_aluPopc ty _).2 hbits) (by decide))
      (fun _ => toNat_aluPopc ty _)
  · exact computes_of_vecOp rfl (by simp [ha]) (.inl rfl) hr (fun _ _ => Nat.lt_of_le_of_lt (Nat.le_trans (aluClz_counts ty _).1 hbits) (by decide))
      (fun _ => aluClz_counts ty _)

/-- Settles O22: the model's eight bytes are those of A and B, and its result is put together from the four picked bytes. -/
theorem bytePicks : Obligations.BytePicks := by
  unfold Obligations.BytePicks
  intro byte picked s h r a b c ha hb hc
  have hpicked : ∀ x y z : DWord, (aluBpick x y z).toNat < 2 ^ 32 ∧ picked x y z (aluBpick x y z) := by
    intro x y z
    refine ⟨(byte_aluBpick x y z).1, fun j hj => ?_⟩
    exact ((byte_aluBpick x y z).2 j hj).trans (pickedByte_pair _ _ _)
  refine ⟨fun hr => ?_, fun imm hr => ?_⟩
  · exact computes_of_vecOp rfl (by simp [ha, hb, hc]) (.inl rfl) hr (fun _ _ => (hpicked _ _ _).1) (fun _ => hpicked _ _ _)
  · exact computes_of_vecOp rfl (by simp [ha]) (.inl rfl) hr (fun _ _ => (hpicked _ _ _).1) (fun _ => hpicked _ _ _)

/-- Settles O21: BFE by the bits of its operand as an integer, BFI by those of its mask, the rest bit by bit; an immediate complements nothing. -/
theorem bitFields : Obligations.BitFields := by
  unfold Obligations.BitFields
  intro s h ty na nb r a b c imm _ ha hb hc
  dsimp only
  refine ⟨fun hr => ?bfe, fun hr => ?bfeImm, fun hr => ?bfi, fun hr => ?bfiImm, fun hr => ?and, fun hr => ?andImm, fun hr => ?or,
    fun hr => ?orImm, fun hr => ?xor, fun hr => ?xorImm, fun lut hr => ?lut3, fun lo hi hr => ?lut3Imm⟩
  case bfe =>
    exact computes_extended rfl (by simp [ha, hb]) hr (fun _ _ => extended_aluBfe _ _ _) (fun _ _ hk => getLsbD_aluBfe ty _ _ hk)
  case bfeImm =>
    exact computes_extended rfl (by simp [ha]) hr (fun _ _ => extended_aluBfe _ _ _)
      (fun _ _ hk => toNat_immVal32 imm ▸ getLsbD_aluBfe ty _ (immVal32 imm) hk)
  case bfi =>
    exact computes_extended rfl (by simp [ha, hb, hc]) hr (fun _ _ => extended_aluBfi _ _ _ _) (fun _ _ hk => getLsbD_aluBfi ty _ _ _ hk)
  case bfiImm =>
    exact computes_extended rfl (by simp [ha]) hr (fun _ _ => extended_aluBfi _ _ _ _)
      (fun _ _ hk => toNat_immVal32 imm ▸ getLsbD_aluBfi ty _ (immVal32 imm) _ hk)
  case and =>
    exact computes_extended rfl (by simp [ha, hb]) hr (fun _ _ => extended_aluBit _ _ _ _ _ _) (fun _ _ hk => getLsbD_aluBit .and ty na nb _ _ hk)
  case andImm =>
    exact computes_extended rfl (by simp [ha]) hr (fun _ _ => extended_aluBit _ _ _ _ _ _)
      (fun _ _ hk => getLsbD_aluBit_plain .and ty _ _ hk)
  case or =>
    exact computes_extended rfl (by simp [ha, hb]) hr (fun _ _ => extended_aluBit _ _ _ _ _ _) (fun _ _ hk => getLsbD_aluBit .or ty na nb _ _ hk)
  case orImm =>
    exact computes_extended rfl (by simp [ha]) hr (fun _ _ => extended_aluBit _ _ _ _ _ _)
      (fun _ _ hk => getLsbD_aluBit_plain .or ty _ _ hk)
  case xor =>
    exact computes_extended rfl (by simp [ha, hb]) hr (fun _ _ => extended_aluBit _ _ _ _ _ _) (fun _ _ hk => getLsbD_aluBit .xor ty na nb _ _ hk)
  case xorImm =>
    exact computes_extended rfl (by simp [ha]) hr (fun _ _ => extended_aluBit _ _ _ _ _ _)
      (fun _ _ hk => getLsbD_aluBit_plain .xor ty _ _ hk)
  case lut3 =>
    exact computes_extended rfl (by simp [ha, hb, hc]) hr (fun _ _ => extended_aluLut _ _ _ _ _) (fun _ _ hk => getLsbD_aluLut lut ty _ _ _ hk)
  case lut3Imm =>
    exact computes_extended rfl (by simp [ha]) hr (fun _ _ => extended_aluLut _ _ _ _ _) (fun _ _ hk => getLsbD_aluLut (hi ++ lo) ty _ _ _ hk)

end

section
/-! Uniform results (R112, R113, R122): the one value that an instruction with an active lane writes, and what reads of uncertain results
give; and the lanes that MATCH finds (R120). -/
namespace Sys2Proof.Machine

variable {s : State} {i : Instr} {h : Hdr}

/-- An instruction that writes one uniform value where some lane is active, and nothing otherwise. -/
theorem yields_of_putUni {eff : State → Mask → Eff} {r n : Nat} {x : DWord} {lat : Lat} (hexec : exec i s = run i h eff s)
    (hready : uniReady s i h r n) (heff : eff (s.opened i h) (lanesOn i h s) =
      if lanesOn i h s = 0 then .ok (s.opened i h) else .ok ((s.opened i h).putUni (.s r) n x lat)) :
    (lanesOn i h s = 0 → ∃ t, exec i s = .next t ∧ onlyPend (s.stepped h) t) ∧ (lanesOn i h s ≠ 0 → yields s i h r n x) := by
  obtain ⟨⟨_, hclear⟩, hc, hc2⟩ := hready
  refine ⟨fun hact => ?_, fun hact => ?_⟩
  · rw [if_pos hact] at heff
    exact ⟨_, hexec.trans (run_ok i h eff s _ hclear heff), (onlyRegs_closed (onlyRegs.refl _)).onlyPend (by simp) (by simp) (by simp)⟩
  · rw [if_neg hact] at heff
    obtain ⟨hframe, hv, hp, hw⟩ := putUni_regs r n x lat hc hc2
    exact ⟨_, hexec.trans (run_ok i h eff s _ hclear heff), (onlyRegs_closed hframe).onlyS (by simp [hv]) (by simp [hp]), wroteS_closed hw⟩

/-- A uniform computation: its effect with some lane active, and none otherwise. -/
theorem exec_uniOp {srcs : List (Opd × Nat)} {r n : Nat} {f : List DWord → DWord} (hexec : exec i s = run i h (uniOp srcs (.s r) n f) s)
    (hready : uniReady s i h r n) :
    ∃ t, exec i s = .next t ∧ onlyS (s.stepped h) t ∧
      (lanesOn i h s ≠ 0 → wroteS s t r n (f (srcs.map (fun x => (s.opened i h).readUni x.1 x.2)))) ∧
      (lanesOn i h s = 0 → t.cur.s = s.cur.s) := by
  obtain ⟨hnone, hsome⟩ := yields_of_putUni hexec hready rfl
  by_cases hact : lanesOn i h s = 0
  · obtain ⟨t, hrun, hframe⟩ := hnone hact
    have hs : t.cur.s = s.cur.s := by rw [hframe]; exact stepped_s s h
    refine ⟨t, hrun, ?_, fun h0 => absurd hact h0, fun _ => hs⟩
    rw [onlyS, hs, ← stepped_s s h]
    exact hframe
  · obtain ⟨t, hrun, hframe, hw⟩ := hsome hact
    exact ⟨t, hrun, hframe, fun _ => hw, fun h0 => absurd h0 hact⟩

/-- The mask of one outcome for every lane. -/
theorem ite_full_eq_maskOf (v : Bool) : (if v then Mask.full else 0) = maskOf (fun _ => v) := by
  refine BitVec.eq_of_getLsbD_eq fun l hl => ?_
  rw [getLsbD_maskOf _ ⟨l, hl⟩]
  cases v with
  | false => exact BitVec.getLsbD_zero
  | true => exact BitVec.getLsbD_allOnes.trans (decide_eq_true hl)

/-- A uniform test: its one outcome in every active lane. -/
theorem exec_uniTest {srcs : List (Opd × Nat)} {k : Nat} {f : List DWord → Bool} (hexec : exec i s = run i h (uniTest srcs k f) s)
    (hclears : clears i h s) (hc : certain (s.opened i h) (.p k)) :
    ∃ t, exec i s = .next t ∧
      wroteP s t k (lanesOn i h s) (fun _ => f (srcs.map (fun x => (s.opened i h).readUni x.1 x.2))) ∧ onlyP (s.stepped h) t := by
  refine ⟨_, hexec.trans (run_ok i h _ s _ hclears.2 rfl), wroteP_closed (i := i) ?_,
    (onlyRegs_closed (onlyRegs_writeP _ _ _ _ _)).onlyP (by simp) (by simp)⟩
  rw [ite_full_eq_maskOf]
  exact wroteP_writeP _ _ _ hc

/-- The table of uniform computations says what exec runs: arm by arm, the two are the same. -/
theorem exec_of_uniShape {q : UniShape} (hq : uniShape i = some q) (hh : hdrOf i = some h) :
    exec i s = run i h (uniOp q.srcs q.d q.n q.val) s := by
  unfold uniShape at hq
  split at hq <;> cases hq <;> cases hh <;> rfl

theorem exec_of_uniTestShape {q : UniTestShape} (hq : uniTestShape i = some q) (hh : hdrOf i = some h) :
    exec i s = run i h (uniTest q.srcs q.pd q.val) s := by
  unfold uniTestShape at hq
  split at hq <;> cases hq <;> cases hh <;> rfl

theorem blend_lane (ctr : Nat) (x : VReg) (p : Pend) (l : Fin 128) : (blend ctr x p)[l] = x[l] ∨ (blend ctr x p)[l] = p.old[l] := by
  simp only [blend, Fin.getElem_fin, Vector.getElem_ofFn]
  split
  · exact .inr rfl
  · exact .inl rfl

/-- A read with one uncertain result gives the old value or the new one (R81, R82). -/
theorem readS_of_uncertain (n : Fin 128) (p : Pend) (hp : s.cur.pend.filter (fun q => q.reg == .s n && q.uncertain) = [p]) :
    s.readS n = s.cur.s[n] ∨ s.readS n = p.old[0] := by
  have hs : s.cur.s.getD n 0 = s.cur.s[n] := by simp [Vector.getD]
  unfold State.readS Warp.seen
  dsimp only
  rw [hp, hs]
  split
  · simpa [Vector.getD] using blend_lane s.freeCtr (Vector.replicate 128 s.cur.s[n]) p 0
  · exact .inl rfl

/-! ## READL (R122) -/

theorem exec_readl (s : State) (h : Hdr) (ty : Ty) (d a b : Opd) : exec (.readl h ty d a b) s =
    run (.readl h ty d a b) h (fun t act => if act = 0 then .ok t else
      .ok (t.putUni d (tyRegs ty) ((t.readVec a (tyRegs ty)).getD ((t.readUni b 1).toNat % 128) 0) (varLat h))) s := rfl

theorem exec_readlFirst (s : State) (h : Hdr) (ty : Ty) (d a : Opd) : exec (.readlFirst h ty d a) s =
    run (.readlFirst h ty d a) h (fun t act => if act = 0 then .ok t else
      .ok (t.putUni d (tyRegs ty) ((t.readVec a (tyRegs ty)).getD ((Mask.lanes act).headD 0) 0) (varLat h))) s := rfl

/-! ## MATCH (R120) -/

/-- The lowest lane of a mask that meets a test. -/
theorem find_lanes_eq_some {m : Mask} {p : Nat → Bool} {j : Nat} :
    (Mask.lanes m).find? p = some j ↔ (m.getLsbD j = true ∧ p j = true) ∧ j < 128 ∧ ∀ k < j, m.getLsbD k = true → p k = false := by
  rw [Mask.lanes, List.find?_filter, List.find?_range_eq_some]
  simp only [List.mem_range, Bool.not_eq_true', decide_eq_true_eq, decide_eq_false_iff_not, not_and, Bool.not_eq_true]

/-- The lowest lane of a mask whose value is that of lane `l`. -/
def firstMatch (m : Mask) (x : Nat → DWord) (l : Nat) : Nat := ((Mask.lanes m).find? (fun j => x j == x l)).getD l

theorem firstMatch_lowest {m : Mask} (x : Nat → DWord) {l : Nat} (hl : l < 128) (hm : m.getLsbD l = true) :
    m.getLsbD (firstMatch m x l) = true ∧ x (firstMatch m x l) = x l ∧ ∀ j < firstMatch m x l, m.getLsbD j = true → x j ≠ x l := by
  unfold firstMatch
  cases hfind : (Mask.lanes m).find? (fun j => x j == x l) with
  | none =>
    have hmem : l ∈ Mask.lanes m := List.mem_filter.mpr ⟨List.mem_range.mpr hl, hm⟩
    exact absurd (beq_self_eq_true (x l)) (List.find?_eq_none.mp hfind l hmem)
  | some j =>
    obtain ⟨⟨hj, hx⟩, _, hlow⟩ := find_lanes_eq_some.mp hfind
    exact ⟨hj, eq_of_beq hx, fun k hk hmk => ne_of_beq_false (hlow k hk hmk)⟩

theorem toNat_setWidth_word_lt (x : Word) : (x.setWidth 64).toNat < 2 ^ 32 :=
  Nat.lt_of_le_of_lt (Nat.le_trans (Nat.le_of_eq (BitVec.toNat_setWidth 64 x)) (Nat.mod_le _ _)) x.isLt

/-- One register, or a code that stands for one, reads as 32 bits. -/
theorem toNat_readVec_one_lt (s : State) {o : Opd} (ho : isReg o = true) (l : Nat) : ((s.readVec o 1).getD l 0).toNat < 2 ^ 32 := by
  by_cases hl : l < 128
  · cases o with
    | v r => simpa [State.readVec, Vector.getD, hl] using toNat_setWidth_word_lt (s.readV r)[l]
    | s r => simpa [State.readVec, Vector.getD, hl] using toNat_setWidth_word_lt (s.readS r)
    | q r => exact absurd ho (by simp [isReg])
    | vz => simp [State.readVec, Vector.getD, hl]
    | vlane =>
      have hlane : (s.readVec .vlane 1).getD l 0 = BitVec.ofNat 64 l := getD_ofFn _ _ hl
      rw [hlane, BitVec.toNat_ofNat]
      omega
  · simp [Vector.getD, hl]

/-- A source of 32 bits reads with nothing above them, so that the pattern of a type of 32 or 64 bits is the whole value read. -/
theorem pat_laneSrc {o : Opd} (ho : isReg o = true) {ty : Ty} (hty : ty = .b32 ∨ ty = .b64) (l : Nat) :
    pat (tyBits ty) (laneSrc s i h o (tyRegs ty) l) = (laneSrc s i h o (tyRegs ty) l).toNat := by
  refine Nat.mod_eq_of_lt ?_
  obtain rfl | rfl := hty
  · exact toNat_readVec_one_lt _ ho l
  · exact BitVec.isLt _

/-- An instruction that writes one vector result, and an outcome to a predicate. -/
theorem exec_writeVec_writeP {eff : State → Mask → Eff} {r n k : Nat} {x : Lanes} {f : Nat → Bool} {lat lat' : Lat}
    (hexec : exec i s = run i h eff s) (hready : vecReady s i h r n) (hk : certain (s.opened i h) (.p k))
    (heff : eff (s.opened i h) (lanesOn i h s) =
      .ok (((s.opened i h).writeVec r n (lanesOn i h s) x lat).writeP k (lanesOn i h s) (maskOf f) lat')) :
    ∃ t, exec i s = .next t ∧ onlyVP (s.stepped h) t ∧ wroteV s t r n (lanesOn i h s) (fun l => x.getD l 0) ∧
      wroteP s t k (lanesOn i h s) f := by
  obtain ⟨⟨_, hclear⟩, hc, hc2, _⟩ := hready
  refine ⟨_, hexec.trans (run_ok i h eff s _ hclear heff),
    (onlyRegs_closed ((onlyRegs_writeVec _ _ _ _ _ _).trans (onlyRegs_writeP _ _ _ _ _))).onlyVP (by simp),
    wroteV_closed (i := i) fun j l => ?_, wroteP_closed (i := i) fun j l => ?_⟩
  · rw [State.writeP_cur_v]
    exact wroteV_writeVec _ _ _ hc hc2 j l
  · rw [wroteP_writeP _ _ _ (certain_writeVec hk) j l, writeVec_p]

theorem exec_matchv_eq (s : State) (h : Hdr) (ty : Ty) (k r : Nat) (a : Opd) : exec (.matchv h ty k (.v r) a) s =
    run (.matchv h ty k (.v r) a) h (fun t act =>
      let first := firstMatch act (fun j => (t.readVec a (tyRegs ty)).getD j 0)
      .ok ((t.writeVec r 1 act (Vector.ofFn (fun l : Fin 128 => BitVec.ofNat 64 (first l))) (t.fixed 10)).writeP k act
        (maskOf (fun l => first l == l)) (t.fixed 10))) s := rfl

/-- MATCH on a register destination. -/
theorem exec_matchv {ty : Ty} {r k : Nat} {a : Opd} (hready : vecReady s (.matchv h ty k (.v r) a) h r 1)
    (hk : certain (s.opened (.matchv h ty k (.v r) a) h) (.p k)) :
    let i : Instr := .matchv h ty k (.v r) a
    let first := firstMatch (lanesOn i h s) (laneSrc s i h a (tyRegs ty))
    ∃ t, exec i s = .next t ∧ onlyVP (s.stepped h) t ∧ wroteV s t r 1 (lanesOn i h s) (fun l => BitVec.ofNat 64 (first l)) ∧
      wroteP s t k (lanesOn i h s) (fun l => decide (first l = l)) := by
  intro i first
  obtain ⟨t, hrun, hframe, hv, hp⟩ := exec_writeVec_writeP (i := i) (exec_matchv_eq s h ty k r a) hready hk rfl
  exact ⟨t, hrun, hframe, hv.congr fun l hl => getD_ofFn _ _ hl, hp.congr fun l _ => rfl⟩

end Sys2Proof.Machine
end

section
open Sys2Proof Sys2Proof.Machine

/-- Settles O16: the tables give what exec runs, and its effect is one write to uniform registers, or to PD, or with no lane active none. -/
theorem uniformResults : Obligations.UniformResults := by
  unfold Obligations.UniformResults
  refine ⟨fun s i h q r hq hd hclears hc hc2 => ?_, fun s n p hp => readS_of_uncertain n p hp, fun s i h q hq hclears hc => ?_⟩
  · have hexec : exec i s = run i h (uniOp q.srcs (.s r) q.n q.val) s := hd ▸ exec_of_uniShape hq hclears.1
    exact exec_uniOp hexec ⟨hclears, hc, hc2⟩
  · exact exec_uniTest (exec_of_uniTestShape hq hclears.1) hclears hc

/-- Settles O34: both forms write one lane's value where some lane is active; they differ in the lane alone. -/
theorem readLaneToUniform : Obligations.ReadLaneToUniform := by
  unfold Obligations.ReadLaneToUniform
  intro s h ty r a b i j hi _ hready
  obtain ⟨rfl, rfl⟩ | ⟨rfl, hj⟩ | ⟨rfl | rfl, hact⟩ := hi
  · exact yields_of_putUni (exec_readl ..) hready rfl
  · have hhead : (Mask.lanes (lanesOn (.readlFirst h ty (.s r) a) h s)).headD 0 = j := by
      rw [List.headD_eq_head?_getD, hj, Option.getD_some]
    exact hhead ▸ yields_of_putUni (exec_readlFirst ..) hready rfl
  · exact ⟨(yields_of_putUni (exec_readl ..) hready rfl).1, fun hne => absurd hact hne⟩
  · exact ⟨(yields_of_putUni (exec_readlFirst ..) hready rfl).1, fun hne => absurd hact hne⟩

/-- Settles O26: the lane written is the lowest active one of equal value. -/
theorem matchGroupsLanes : Obligations.MatchGroupsLanes := by
  unfold Obligations.MatchGroupsLanes
  intro s h ty k r a ha hty i x hready hk
  have hx : ∀ j l, x j = x l ↔ laneSrc s i h a (tyRegs ty) j = laneSrc s i h a (tyRegs ty) l := by
    intro j l
    simp only [x, pat_laneSrc ha hty, BitVec.toNat_inj]
  obtain ⟨t, hrun, hframe, hv, hp⟩ := exec_matchv hready hk
  refine ⟨t, _, hrun, hframe, fun l hl hm => ?_, hv, hp⟩
  simp only [hx, ne_eq]
  exact firstMatch_lowest _ hl hm

end

section
/-! What issuing leaves of the warp and of the machine, field by field, and the marks that a wait or a trap register leaves (R46, R159). -/
namespace Sys2Proof.Machine

variable {s t u : State} {i : Instr} {h : Hdr}

/-! ## Fields across an issue -/

@[simp] theorem opened_wg (s : State) (i : Instr) (h : Hdr) : (s.opened i h).wg = s.wg := by rw [opened_onlyPend s i h]
@[simp] theorem opened_mem (s : State) (i : Instr) (h : Hdr) : (s.opened i h).mem = s.mem := by rw [opened_onlyPend s i h]
@[simp] theorem opened_clk (s : State) (i : Instr) (h : Hdr) : (s.opened i h).clk = s.clk := by rw [opened_onlyPend s i h]
@[simp] theorem opened_time (s : State) (i : Instr) (h : Hdr) : (s.opened i h).time = s.time := by rw [opened_onlyPend s i h]
@[simp] theorem opened_turn (s : State) (i : Instr) (h : Hdr) : (s.opened i h).turn = s.turn := by rw [opened_onlyPend s i h]
@[simp] theorem opened_mgmt (s : State) (i : Instr) (h : Hdr) : (s.opened i h).mgmt = s.mgmt := by rw [opened_onlyPend s i h]
@[simp] theorem opened_id (s : State) (i : Instr) (h : Hdr) : (s.opened i h).cur.id = s.cur.id := by rw [opened_onlyPend s i h]
@[simp] theorem opened_index (s : State) (i : Instr) (h : Hdr) : (s.opened i h).cur.index = s.cur.index := by rw [opened_onlyPend s i h]
@[simp] theorem opened_k (s : State) (i : Instr) (h : Hdr) : (s.opened i h).cur.k = s.cur.k := by rw [opened_onlyPend s i h]
@[simp] theorem opened_exited (s : State) (i : Instr) (h : Hdr) : (s.opened i h).cur.exited = s.cur.exited := by rw [opened_onlyPend s i h]
@[simp] theorem opened_stack (s : State) (i : Instr) (h : Hdr) : (s.opened i h).cur.stack = s.cur.stack := by rw [opened_onlyPend s i h]
@[simp] theorem opened_spilled (s : State) (i : Instr) (h : Hdr) : (s.opened i h).cur.spilled = s.cur.spilled := by rw [opened_onlyPend s i h]
@[simp] theorem opened_issuing (s : State) (i : Instr) (h : Hdr) : (s.opened i h).cur.issuing = s.cur.issuing := by rw [opened_onlyPend s i h]
@[simp] theorem opened_path (s : State) (i : Instr) (h : Hdr) : (s.opened i h).cur.path = s.cur.path := by rw [opened_onlyPend s i h]; rfl
@[simp] theorem opened_trapMode (s : State) (i : Instr) (h : Hdr) : (s.opened i h).cur.trapMode = s.cur.trapMode := by
  rw [opened_onlyPend s i h]
@[simp] theorem opened_cause (s : State) (i : Instr) (h : Hdr) : (s.opened i h).cur.cause = s.cur.cause := by rw [opened_onlyPend s i h]
@[simp] theorem opened_epc (s : State) (i : Instr) (h : Hdr) : (s.opened i h).cur.epc = s.cur.epc := by rw [opened_onlyPend s i h]
@[simp] theorem opened_fault (s : State) (i : Instr) (h : Hdr) : (s.opened i h).cur.fault = s.cur.fault := by rw [opened_onlyPend s i h]
@[simp] theorem opened_ports (s : State) (i : Instr) (h : Hdr) : (s.opened i h).cur.ports = s.cur.ports := by rw [opened_onlyPend s i h]
@[simp] theorem opened_hold (s : State) (i : Instr) (h : Hdr) : (s.opened i h).cur.hold = s.cur.hold := by rw [opened_onlyPend s i h]

@[simp] theorem stepped_wg (s : State) (h : Hdr) : (s.stepped h).wg = s.wg := rfl
@[simp] theorem stepped_hold (s : State) (h : Hdr) : (s.stepped h).cur.hold = s.cur.hold := by simp [State.stepped]
@[simp] theorem stepped_cause (s : State) (h : Hdr) : (s.stepped h).cur.cause = s.cur.cause := by simp [State.stepped]
@[simp] theorem stepped_epc (s : State) (h : Hdr) : (s.stepped h).cur.epc = s.cur.epc := by simp [State.stepped]
@[simp] theorem stepped_fault (s : State) (h : Hdr) : (s.stepped h).cur.fault = s.cur.fault := by simp [State.stepped]

@[simp] theorem closed_wg (s t : State) (h : Hdr) : (s.closed h t).wg = t.wg := rfl
@[simp] theorem closed_mem (s t : State) (h : Hdr) : (s.closed h t).mem = t.mem := rfl
@[simp] theorem closed_hold (s t : State) (h : Hdr) : (s.closed h t).cur.hold = t.cur.hold := by simp [closed_cur]
@[simp] theorem closed_cause (s t : State) (h : Hdr) : (s.closed h t).cur.cause = t.cur.cause := by simp [closed_cur]
@[simp] theorem closed_epc (s t : State) (h : Hdr) : (s.closed h t).cur.epc = t.cur.epc := by simp [closed_cur]
@[simp] theorem closed_fault (s t : State) (h : Hdr) : (s.closed h t).cur.fault = t.cur.fault := by simp [closed_cur]

/-- Counts touch no path. -/
theorem issued_pc (t : State) (h : Hdr) (pt : Bool) (pid : Nat) : (t.issued h pt pid).pc = t.pc := by
  simp [State.pc, Warp.path]

/-- The next slot. -/
theorem closed_pc (s t : State) (h : Hdr) : (s.closed h t).pc = t.pc + 1 := by
  have hpc := issued_pc t h s.ptBit s.cur.path.pid
  simp only [State.pc] at hpc ⊢
  rw [State.closed, State.advance_cur, Warp.modPath_path, hpc]

@[simp] theorem opened_pc (s : State) (i : Instr) (h : Hdr) : (s.opened i h).pc = s.pc := by simp [State.pc]

theorem opened_converged (s : State) (i : Instr) (h : Hdr) (m : Mask) : (s.opened i h).converged m = s.converged m := by
  simp [State.converged, Warp.twoLive]

/-! ## Marks -/

/-- The two states differ only in the warp's wait, its trap registers, the record of results that are not yet certain, and the workgroup. -/
def onlyMarks (u t : State) : Prop :=
  t = { u with wg := t.wg, cur := { u.cur with
    hold := t.cur.hold, cause := t.cur.cause, epc := t.cur.epc, fault := t.cur.fault, pend := t.cur.pend } }

/-- Issuing an instruction that leaves marks: the counts and the next slot are those of the warp without them. -/
theorem issue_marks (w : Warp) (x : Hold) (c : BitVec 9) (e f : DWord) (q : List Pend) (sb pid n : Nat) (g : Path → Path) :
    let m : Warp := { w with hold := x, cause := c, epc := e, fault := f, pend := q }
    ((m.countSb sb).countUp pid n).modPath g =
      { (w.countSb sb).modPath g with
        hold := x, cause := c, epc := e, fault := f, pend := (((m.countSb sb).countUp pid n).modPath g).pend } := by
  intro m
  apply Warp.ext <;> simp [m, Warp.modPath_base, Warp.modPath_stack, Warp.countSb_sb]

theorem onlyMarks_closed (ht : onlyMarks (s.opened i h) t) : onlyMarks (s.stepped h) (s.closed h t) := by
  have ho := opened_onlyPend s i h
  unfold onlyMarks at ht ⊢
  unfold onlyPend at ho
  rw [closed_wg, closed_hold, closed_cause, closed_epc, closed_fault]
  rw [ho] at ht
  have hcur := issue_marks s.cur t.cur.hold t.cur.cause t.cur.epc t.cur.fault t.cur.pend h.sb s.cur.path.pid (countOf s.ptBit h)
    (fun p => { p with pc := p.pc + 1 })
  generalize t.wg = g, t.cur.hold = x, t.cur.cause = c, t.cur.epc = e, t.cur.fault = f, t.cur.pend = q at ht hcur
  subst ht
  apply State.ext
  case cur => exact hcur
  all_goals rfl

/-- An instruction whose effect leaves marks alone: what goes on from the stepped state with the same marks. -/
theorem exec_marks {eff : State → Mask → Eff} (hexec : exec i s = run i h eff s) (hclears : clears i h s)
    (heff : eff (s.opened i h) (lanesOn i h s) = .ok t) (ht : onlyMarks (s.opened i h) t) (hu : onlyMarks (s.stepped h) u)
    (hmarks : t.wg = u.wg ∧ t.cur.hold = u.cur.hold ∧ t.cur.cause = u.cur.cause ∧ t.cur.epc = u.cur.epc ∧ t.cur.fault = u.cur.fault) :
    ∃ o, exec i s = .next o ∧ onlyPend u o := by
  refine ⟨s.closed h t, hexec.trans (run_ok i h eff s t hclears.2 heff), ?_⟩
  obtain ⟨hwg, hhold, hcause, hepc, hfault⟩ := hmarks
  have hclosed := onlyMarks_closed ht
  unfold onlyMarks at hclosed hu
  rw [closed_wg, closed_hold, closed_cause, closed_epc, closed_fault, hwg, hhold, hcause, hepc, hfault] at hclosed
  rw [onlyPend, hu]
  exact hclosed

/-- Setting the warp's wait leaves nothing else beside the issue's own marks. -/
theorem exec_hold {eff : State → Mask → Eff} {x : Hold} (hexec : exec i s = run i h eff s) (hclears : clears i h s)
    (heff : eff (s.opened i h) (lanesOn i h s) = .ok ((s.opened i h).modCur (fun w => { w with hold := x }))) :
    ∃ o, exec i s = .next o ∧ onlyPend { s.stepped h with cur := { (s.stepped h).cur with hold := x } } o :=
  exec_marks hexec hclears heff rfl rfl (by simp)

theorem exec_wg {eff : State → Mask → Eff} {g : Wgroup} (hexec : exec i s = run i h eff s) (hclears : clears i h s)
    (heff : eff (s.opened i h) (lanesOn i h s) = .ok { s.opened i h with wg := g }) :
    ∃ o, exec i s = .next o ∧ onlyPend { s.stepped h with wg := g } o :=
  exec_marks hexec hclears heff rfl rfl (by simp)

theorem exec_cause {eff : State → Mask → Eff} {c : BitVec 9} (hexec : exec i s = run i h eff s) (hclears : clears i h s)
    (heff : eff (s.opened i h) (lanesOn i h s) = .ok ((s.opened i h).modCur (fun w => { w with cause := c }))) :
    ∃ o, exec i s = .next o ∧ onlyPend { s.stepped h with cur := { (s.stepped h).cur with cause := c } } o :=
  exec_marks hexec hclears heff rfl rfl (by simp)

theorem exec_epc {eff : State → Mask → Eff} {e : DWord} (hexec : exec i s = run i h eff s) (hclears : clears i h s)
    (heff : eff (s.opened i h) (lanesOn i h s) = .ok ((s.opened i h).modCur (fun w => { w with epc := e }))) :
    ∃ o, exec i s = .next o ∧ onlyPend { s.stepped h with cur := { (s.stepped h).cur with epc := e } } o :=
  exec_marks hexec hclears heff rfl rfl (by simp)

theorem exec_fault {eff : State → Mask → Eff} {f : DWord} (hexec : exec i s = run i h eff s) (hclears : clears i h s)
    (heff : eff (s.opened i h) (lanesOn i h s) = .ok ((s.opened i h).modCur (fun w => { w with fault := f }))) :
    ∃ o, exec i s = .next o ∧ onlyPend { s.stepped h with cur := { (s.stepped h).cur with fault := f } } o :=
  exec_marks hexec hclears heff rfl rfl (by simp)

end Sys2Proof.Machine
end

section
/-! Waiting, service calls, time and the special registers (R46, R85, R159 to R162, R165, R166): what each instruction runs, and what
its own operation does. -/
namespace Sys2Proof.Machine

/-! ## What exec runs -/

variable (s : State) (h : Hdr)

theorem exec_nop : exec (.nop h) s = run (.nop h) h (fun t _ => .ok t) s := rfl

theorem exec_yieldw : exec (.yieldw h) s = run (.yieldw h) h (fun t act => if act = 0 then .ok t else .ok t.yieldNow) s := rfl

theorem exec_sleep (n : BitVec 24) : exec (.sleep h n) s =
    run (.sleep h n) h (fun t act => if act = 0 then .ok t else .ok (t.sleepFor n.toNat false)) s := rfl

theorem exec_sleepWatch (a : Opd) (n : BitVec 24) : exec (.sleepWatch h a n) s =
    run (.sleepWatch h a n) h
      (fun t act => if act = 0 then .ok t else .ok ((t.watchLine (t.readUni a 2)).sleepFor n.toNat true)) s := rfl

theorem exec_syscall (d a : Opd) (n : BitVec 16) : exec (.syscall h d a n) s =
    run (.syscall h d a n) h
      (fun t act => if t.converged act then syscallArrive t h d (t.readUni a 2) n.toNat else .trap 0x066 0) s := rfl

theorem exec_trap (n : Nat) : exec (.trap h n) s =
    run (.trap h n) h (fun t act => if act = 0 then .ok t else match t.enter (0x070 + n) (t.pc + 1) 0 with
      | .ok u => .moved u
      | .error (p, va) => .hold (t.pathWaits p va)) s := rfl

theorem exec_idend : exec (.idend h) s = run (.idend h) h
    (fun t act => if act = 0 then .ok t else .ok { t with wg := { t.wg with idend := t.wg.idend || t.wg.idem } }) s := rfl

theorem exec_time (src : TimeSrc) (d : Opd) : exec (.time h src d) s = run (.time h src d) h
    (fun t act => if act = 0 then .ok t else .ok (t.putUni d 2 (BitVec.ofNat 64 (t.timeOf src)) (varLat h))) s := rfl

theorem exec_movsr (x : Nat) (d : Opd) : exec (.movsr h x d) s = run (.movsr h x d) h
    (fun t act => if act = 0 then .ok t else .ok (t.putUni d (if x = 13 ∨ x = 14 then 2 else 1) (t.readSr x) (varLat h))) s := rfl

theorem exec_setsr (x : Nat) (a : Opd) : exec (.setsr h x a) s = run (.setsr h x a) h
    (fun t act => if act = 0 then .ok t else setSr t x (t.readUni a (if x = 13 ∨ x = 14 then 2 else 1))) s := rfl

/-! ## YIELD and SLEEP (R159) -/

theorem yieldNow_opened (i : Instr) : (s.opened i h).yieldNow = (s.opened i h).modCur (fun w => { w with
    hold := .yield (s.clk + 64) ((s.turn.elim [] (fun c => c.others)).map (fun w => w.slot)) }) := by
  rw [State.yieldNow, State.readyPeers, opened_clk, opened_turn]

theorem sleepFor_opened (i : Instr) (n : Nat) (b : Bool) :
    (s.opened i h).sleepFor n b = (s.opened i h).modCur (fun w => { w with hold := .sleep s.clk (s.clk + max 1 n) b }) := by
  rw [State.sleepFor, opened_clk]

/-! ## SLEEP.watch (R159) -/

@[simp] theorem State.watchLine_cur (a : DWord) : (s.watchLine a).cur = s.cur := by
  unfold State.watchLine; repeat' split
  all_goals rfl

@[simp] theorem State.watchLine_clk (a : DWord) : (s.watchLine a).clk = s.clk := by
  unfold State.watchLine; repeat' split
  all_goals rfl

/-- Watching a line writes no byte of memory. -/
@[simp] theorem State.watchLine_store (a : DWord) : (s.watchLine a).mem.mem = s.mem.mem := by
  unfold State.watchLine; repeat' split
  all_goals rfl

@[simp] theorem State.watchLine_pc (a : DWord) : (s.watchLine a).pc = s.pc := by simp [State.pc]

@[simp] theorem State.sleepFor_pc (n : Nat) (b : Bool) : (s.sleepFor n b).pc = s.pc := rfl

theorem State.mem_watchLine {a : DWord} {va : Nat} {l : Leaf} (hw : window a = .glob va) (hl : translate s s.wg.part va = .ok l) :
    (s.cur.id, l.loc va / 64) ∈ (s.watchLine a).mem.watch := by
  simp [State.watchLine, hw, hl]

theorem exec_sleepWatch_next {s : State} {h : Hdr} {a : Opd} {n : BitVec 24} (hc : clears (.sleepWatch h a n) h s)
    (hact : lanesOn (.sleepWatch h a n) h s ≠ 0) :
    let i : Instr := .sleepWatch h a n
    ∃ t, exec i s = .next t ∧ t.pc = s.pc + 1 ∧ t.cur.hold = .sleep s.clk (s.clk + max 1 n.toNat) true ∧ t.mem.mem = s.mem.mem ∧
      t.cur.v = s.cur.v ∧ t.cur.s = s.cur.s ∧
      (∀ va l, window ((s.opened i h).readUni a 2) = .glob va → translate (s.opened i h) s.wg.part va = .ok l →
        (s.cur.id, l.loc va / 64) ∈ t.mem.watch) := by
  intro i
  refine ⟨_, (exec_sleepWatch s h a n).trans (run_ok _ _ _ _ _ hc.2 (if_neg hact)), ?_, ?_, ?_, ?_, ?_, fun va l hw hl => ?_⟩
  · simp [closed_pc]
  all_goals simp only [closed_hold, closed_mem, closed_v, closed_s, State.sleepFor, State.modCur_cur, State.modCur_mem, State.watchLine_cur,
    State.watchLine_clk, State.watchLine_store, opened_v, opened_s, opened_clk, opened_mem]
  have hwatch := State.mem_watchLine _ hw hl
  rwa [opened_id] at hwatch

/-! ## SYSCALL (R153, R160) -/

variable {s} {h}

theorem State.stopAt_of_ne {c : Nat} (a : DWord) (hc : ¬ (c = 0x16B ∨ c = 0x16D)) : s.stopAt c a = s.precise c a := if_neg hc

theorem exec_syscall_diverged {d a : Opd} {n : BitVec 16} (hc : clears (.syscall h d a n) h s)
    (hconv : s.converged (lanesOn (.syscall h d a n) h s) = false) :
    exec (.syscall h d a n) s = .next ((s.opened (.syscall h d a n) h).precise 0x066 0) := by
  rw [exec_syscall, run_trap _ _ _ _ 0x066 0 hc.2 (by rw [opened_converged, hconv]; rfl), State.stopAt_of_ne _ (by omega)]

theorem exec_syscall_converged {r : Nat} {a : Opd} {n : BitVec 16} (hc : clears (.syscall h (.s r) a n) h s)
    (hconv : s.converged (lanesOn (.syscall h (.s r) a n) h s) = true) :
    let i : Instr := .syscall h (.s r) a n
    ∃ t, exec i s = .next t ∧ t.pc = s.pc ∧ t.cur.hold = .syscall r h.sb ∧
      t.wg.sys = s.wg.sys ++ [SysArrival.mk n.toNat ((s.opened i h).readUni a 2) s.cur.index r] ∧ t.mem = s.mem ∧ t.cur.s = s.cur.s := by
  intro i
  refine ⟨_, (exec_syscall ..).trans (run_moved _ _ _ _ _ hc.2 (if_pos ((opened_converged ..).trans hconv))), ?_⟩
  rw [issued_pc]
  refine ⟨opened_pc s i h, ?_⟩
  simp [i]

/-! ## TRAP (R162) -/

/-- The path entry on which a trap handler starts, with the issuing path's mask. -/
def State.handlerEntry (s : State) : Path :=
  { isRec := false, pc := s.wg.kern.handler, rpc := trapMark, mask := s.cur.em, creation := s.cur.em, line := none, arr := some 0,
    refilled := false, storedRec := false, pid := s.cur.nextPid }

theorem Warp.issuingOnTop_of_issuing_zero {w : Warp} (hi : w.issuing = 0) : w.issuingOnTop = w := by
  unfold Warp.issuingOnTop
  rw [hi]
  show { w with issuing := 0 } = w
  rw [← hi]

/-- A trap outside trap mode, on the topmost path and with room on chip, pushes the handler's entry and sets the trap registers. -/
theorem State.enter_handler (cause : Nat) (epc addr : DWord) (hhandler : s.wg.kern.handler ≠ 0)
    (hmode : s.cur.trapMode = false) (hissuing : s.cur.issuing = 0) (hdepth : s.cur.stack.length < 32) (hroom : s.roomFor 1 = true) :
    s.enter cause epc addr = .ok (s.modCur (fun w => { w.settle with
      stack := s.handlerEntry :: w.stack, cause := BitVec.ofNat 9 cause, epc := epc, fault := addr, trapMode := true,
      nextPid := w.nextPid + 1 })) := by
  have htop : s.cur.settle.issuingOnTop = s.cur.settle := Warp.issuingOnTop_of_issuing_zero hissuing
  have hroom' : (s.modCur Warp.settle).roomFor 1 = true := hroom
  have hfocus : (s.modCur Warp.settle).modCur Warp.issuingOnTop = s.modCur Warp.settle := by
    simp only [State.modCur, htop]
  unfold State.enter
  simp only [State.modCur_wg, if_neg hhandler, State.modCur_cur, Warp.settle_trapMode, hmode, Bool.false_eq_true, if_false, hfocus, hroom',
    Bool.not_true, State.push, hdepth, if_true, Warp.settle_stack]
  rfl

theorem exec_trap_handler {n : Nat} (hc : clears (.trap h n) h s) (hact : lanesOn (.trap h n) h s ≠ 0)
    (hhandler : s.wg.kern.handler ≠ 0) (hmode : s.cur.trapMode = false) (hissuing : s.cur.issuing = 0)
    (hdepth : s.cur.stack.length < 32) (hroom : s.roomFor 1 = true) :
    ∃ t hp, exec (.trap h n) s = .next t ∧ t.cur.stack = hp :: s.cur.stack ∧ hp.pc = s.wg.kern.handler ∧ hp.rpc = trapMark ∧
      hp.mask = s.cur.em ∧ t.cur.cause = BitVec.ofNat 9 (0x070 + n) ∧ t.cur.epc = s.pc + 1 ∧ t.cur.fault = 0 ∧ t.cur.trapMode = true ∧
      t.cur.v = s.cur.v ∧ t.cur.s = s.cur.s ∧ t.cur.p = s.cur.p ∧ t.cur.k = s.cur.k ∧ t.mem = s.mem := by
  have hroom' : (s.opened (.trap h n) h).roomFor 1 = true := by simpa [State.roomFor] using hroom
  have henter := (s.opened (.trap h n) h).enter_handler (0x070 + n) ((s.opened (.trap h n) h).pc + 1) 0 hhandler
    ((opened_trapMode ..).trans hmode) ((opened_issuing ..).trans hissuing) ((opened_stack s _ h).symm ▸ hdepth) hroom'
  refine ⟨_, (s.opened (.trap h n) h).handlerEntry,
    (exec_trap s h n).trans (run_moved _ _ _ _ _ hc.2 ((if_neg hact).trans (by rw [henter]))), ?_⟩
  simp [State.handlerEntry, Warp.em]

/-! ## TIME (R161) -/

theorem timeOf_opened (s : State) (i : Instr) (h : Hdr) (src : TimeSrc) : (s.opened i h).timeOf src = s.timeOf src := by
  cases src <;> simp [State.timeOf, State.windowNo]

/-! ## SETSR of sr.epc (R47, R277) -/

theorem setSr_epc_of_lt {x : DWord} (hx : x.toNat / 5 * 64 < 2 ^ 56) : setSr s 13 x = .ok (s.modCur (fun w => { w with epc := x })) :=
  if_neg (Nat.not_le.mpr hx)

theorem setSr_epc_of_le {x : DWord} (hx : 2 ^ 56 ≤ x.toNat / 5 * 64) : setSr s 13 x = .trap 0x06F 0 := if_pos hx

/-! ## sr.qstat (R46) -/

/-- The number whose lowest `m` bits are given, with nothing above them. -/
def bitsBelow (b : Nat → Bool) : Nat → Nat
  | 0 => 0
  | m + 1 => 2 ^ m * (b m).toNat + bitsBelow b m

theorem bitsBelow_lt (b : Nat → Bool) (m : Nat) : bitsBelow b m < 2 ^ m := by
  induction m with
  | zero => exact Nat.one_pos
  | succ m ih =>
    have hbit : 2 ^ m * (b m).toNat ≤ 2 ^ m * 1 := Nat.mul_le_mul_left _ (Bool.toNat_le _)
    rw [bitsBelow, Nat.pow_succ]
    omega

theorem testBit_bitsBelow (b : Nat → Bool) {m k : Nat} (hk : k < m) : (bitsBelow b m).testBit k = b k := by
  induction m with
  | zero => exact absurd hk (Nat.not_lt_zero k)
  | succ m ih =>
    rw [bitsBelow, Nat.testBit_two_pow_mul_add _ (bitsBelow_lt b m)]
    obtain hlt | rfl := Nat.lt_succ_iff_lt_or_eq.mp hk
    · rw [if_pos hlt, ih hlt]
    · rw [if_neg (Nat.lt_irrefl k), Nat.sub_self]
      cases b k <;> rfl

/-- The end of a port's stream has been seen. -/
def Warp.portEnd (w : Warp) (k : Nat) : Bool := (w.ports.getD k none).elim false (fun p => p.endSeen)

/-- A port is bound. -/
def Warp.portBound (w : Warp) (k : Nat) : Bool := (w.ports.getD k none).isSome

/-- A deferred fault of a port is pending. -/
def Warp.portDeferred (w : Warp) (k : Nat) : Bool :=
  (w.ports.getD k none).elim false (fun p => p.deferred.isSome || p.pre.any (fun e => e.fault.isSome))

/-- What a port adds to sr.qstat. -/
def Warp.portBits (w : Warp) (k : Nat) : Nat :=
  2 ^ (16 + k) * (w.portDeferred k).toNat + (2 ^ (8 + k) * (w.portBound k).toNat + 2 ^ k * (w.portEnd k).toNat)

theorem Warp.qstat_eq_foldl_portBits (w : Warp) : w.qstat = (List.range 8).foldl (fun n k => n + w.portBits k) 0 := by
  unfold Warp.qstat
  congr 1
  funext n k
  unfold Warp.portBits Warp.portDeferred Warp.portBound Warp.portEnd
  cases w.ports.getD k none with
  | none => simp
  | some p =>
    simp only [Option.elim_some, Option.isSome_some, Bool.toNat_true]
    cases p.endSeen <;> cases p.deferred.isSome || p.pre.any (fun e => e.fault.isSome) <;> simp <;> omega

theorem Warp.foldl_portBits (w : Warp) (m : Nat) : (List.range m).foldl (fun n k => n + w.portBits k) 0 =
    2 ^ 16 * bitsBelow w.portDeferred m +
      (2 ^ 8 * bitsBelow w.portBound m + bitsBelow w.portEnd m) := by
  induction m with
  | zero => rfl
  | succ m ih =>
    rw [List.range_succ, List.foldl_append, ih, List.foldl_cons, List.foldl_nil, Warp.portBits]
    simp only [bitsBelow, Nat.pow_add, Nat.mul_add, Nat.mul_assoc]
    omega

/-- sr.qstat is three groups of eight bits. -/
theorem Warp.qstat_eq_bitsBelow (w : Warp) : w.qstat =
    2 ^ 16 * bitsBelow w.portDeferred 8 +
      (2 ^ 8 * bitsBelow w.portBound 8 + bitsBelow w.portEnd 8) :=
  w.qstat_eq_foldl_portBits.trans (w.foldl_portBits 8)

theorem Warp.qstat_lt (w : Warp) : w.qstat < 2 ^ 24 := by
  have hdeferred := bitsBelow_lt w.portDeferred 8
  have hbound := bitsBelow_lt w.portBound 8
  have hend := bitsBelow_lt w.portEnd 8
  rw [w.qstat_eq_bitsBelow]
  omega

theorem Warp.testBit_qstat (w : Warp) {k : Nat} (hk : k < 8) :
    w.qstat.testBit k = w.portEnd k ∧ w.qstat.testBit (8 + k) = w.portBound k ∧ w.qstat.testBit (16 + k) = w.portDeferred k := by
  have hbound := bitsBelow_lt w.portBound 8
  have hend := bitsBelow_lt w.portEnd 8
  have hbits : ∀ j, w.qstat.testBit j = if j < 16
      then (if j < 8 then (bitsBelow w.portEnd 8).testBit j
        else (bitsBelow w.portBound 8).testBit (j - 8))
      else (bitsBelow w.portDeferred 8).testBit (j - 16) := by
    intro j
    rw [w.qstat_eq_bitsBelow, Nat.testBit_two_pow_mul_add _ (by omega), Nat.testBit_two_pow_mul_add _ hend]
  refine ⟨?_, ?_, ?_⟩
  · rw [hbits, if_pos (by omega), if_pos hk, testBit_bitsBelow _ hk]
  · rw [hbits, if_pos (by omega), if_neg (by omega), Nat.add_sub_cancel_left, testBit_bitsBelow _ hk]
  · rw [hbits, if_neg (by omega), Nat.add_sub_cancel_left, testBit_bitsBelow _ hk]

theorem Warp.portBits_of_none {w : Warp} {k : Nat} (hp : w.ports.getD k none = none) :
    w.portEnd k = false ∧ w.portBound k = false ∧ w.portDeferred k = false := by
  simp [Warp.portEnd, Warp.portBound, Warp.portDeferred, hp]

theorem Warp.portBits_of_some {w : Warp} {k : Nat} {q : Port} (hp : w.ports.getD k none = some q) :
    w.portEnd k = q.endSeen ∧ w.portBound k = true ∧ (w.portDeferred k = true ↔ q.deferred ≠ none ∨ ∃ e ∈ q.pre, e.fault ≠ none) := by
  simp [Warp.portEnd, Warp.portBound, Warp.portDeferred, hp, Option.isSome_iff_ne_none]

theorem Warp.getLsbD_qstat (w : Warp) {k : Nat} (hk : k < 8) :
    let x := BitVec.ofNat 64 w.qstat
    x.getLsbD k = w.portEnd k ∧ x.getLsbD (8 + k) = w.portBound k ∧ x.getLsbD (16 + k) = w.portDeferred k := by
  obtain ⟨hend, hbound, hdeferred⟩ := w.testBit_qstat hk
  simp only [BitVec.getLsbD_ofNat, hend, hbound, hdeferred]
  simp [show k < 64 by omega, show 8 + k < 64 by omega, show 16 + k < 64 by omega]

/-! ## MOVSR (R46, R166) -/

/-- Opening an instruction changes no special register. -/
theorem readSr_opened (s : State) (i : Instr) (h : Hdr) (x : Nat) : (s.opened i h).readSr x = s.readSr x := by
  unfold State.readSr
  split <;> simp [State.gangpos, Warp.qstat]

theorem State.toNat_readSr_rank (s : State) : (s.readSr 9).toNat = s.mgmt.selfRank % 2 ^ 17 := by
  have hval : (s.readSr 9).toNat = s.mgmt.selfRank % 2 ^ 17 % 2 ^ 64 := BitVec.toNat_ofNat ..
  omega

end Sys2Proof.Machine
end

section
open Sys2Proof Sys2Proof.Machine

/-- Settles O33: NOP and the instructions that set the warp's wait, a trap register or the workgroup's mark leave that alone beside the issue's
own marks; TIME and MOVSR write one uniform value; SLEEP.watch, SYSCALL and TRAP by the lemmas about their own operations. -/
theorem waitsTimeAndSpecialRegisters : Obligations.WaitsTimeAndSpecialRegisters := by
  unfold Obligations.WaitsTimeAndSpecialRegisters
  intro s h
  refine ⟨fun hc => ?nop, fun hc hact => ?yield, fun n hc hact => ?sleep, fun a n hc hact => ?watch, fun r a n hc => ?syscall,
    fun n hc hact hhandler hmode hissuing hdepth hroom => ?trap, fun hc hact => ?idend, fun src r hready hact => ?time,
    fun x r hready hact => ?movsr, fun x a hc hact => ?setsr⟩
  case nop => exact exec_marks (exec_nop s h) hc rfl rfl rfl (by simp)
  case yield => exact exec_hold (exec_yieldw s h) hc ((if_neg hact).trans (congrArg Eff.ok (yieldNow_opened s h _)))
  case sleep => exact exec_hold (exec_sleep s h n) hc ((if_neg hact).trans (congrArg Eff.ok (sleepFor_opened s h _ _ _)))
  case watch => exact exec_sleepWatch_next hc hact
  case syscall => exact ⟨exec_syscall_diverged hc, exec_syscall_converged hc⟩
  case trap => exact exec_trap_handler hc hact hhandler hmode hissuing hdepth hroom
  case idend => exact exec_wg (exec_idend s h) hc ((if_neg hact).trans (by rw [opened_wg]))
  case time =>
    have hyields := (yields_of_putUni (exec_time s h src (.s r)) hready rfl).2 hact
    rw [timeOf_opened] at hyields
    cases src <;> exact hyields
  case movsr =>
    have hyields := (yields_of_putUni (exec_movsr s h x (.s r)) hready rfl).2 hact
    rw [readSr_opened] at hyields
    clear hready hact
    refine ⟨_, hyields, ?_, ?_, ?_, ?_, ?_, ?_, ?_, ?_, ?_, ?rank, ?_, ?_, ?_, ?_, ?qstat⟩
    case rank => rintro rfl; exact s.toNat_readSr_rank
    case qstat =>
      rintro rfl
      refine ⟨Nat.lt_of_le_of_lt (Nat.mod_le _ _) s.cur.qstat_lt, fun k hk => ?_⟩
      obtain ⟨hend, hbound, hdeferred⟩ := s.cur.getLsbD_qstat hk
      rw [State.readSr, hend, hbound, hdeferred]
      cases hport : s.cur.ports.getD k none with
      | none => exact Warp.portBits_of_none hport
      | some q => exact Warp.portBits_of_some hport
    all_goals rintro rfl; simp [State.readSr, Wgroup.gang, State.gangpos, hearthOf]
  case setsr =>
    refine ⟨?_, ?_, ?_, ?_⟩
    · rintro rfl
      exact exec_cause (exec_setsr s h 12 a) hc (if_neg hact)
    · rintro rfl hlow
      exact exec_epc (exec_setsr s h 13 a) hc ((if_neg hact).trans (setSr_epc_of_lt hlow))
    · rintro rfl hhigh
      rw [exec_setsr, run_trap _ _ _ _ 0x06F 0 hc.2 ((if_neg hact).trans (setSr_epc_of_le hhigh)), State.stopAt_of_ne _ (by omega)]
    · rintro rfl
      exact exec_fault (exec_setsr s h 14 a) hc (if_neg hact)

end

section
/-! SPACE and CVTA (R182, R183): what the window bits of an address say, and where the two instructions put the values they compute. -/
namespace Sys2Proof.Machine

variable {s : State} {i : Instr} {h : Hdr}

/-! ## Windows (R251, R252) -/

theorem getLsbD_top (x : DWord) : x.getLsbD 63 = true ↔ x.toNat / 2 ^ 63 = 1 := by
  have hlt := x.isLt
  rw [← BitVec.testBit_toNat, Nat.testBit_eq_decide_div_mod_eq, decide_eq_true_eq]
  omega

/-- The windows by the highest eight bits of an address: bit 63 is the rank form, and without it they are the window bits. -/
inductive WindowOf (x : DWord) : Win → Prop
  | rank {r region off : Nat} (hw : 2 ^ 7 ≤ x.toNat / 2 ^ 56) : WindowOf x (.rank r region off)
  | glob {va : Nat} (hw : x.toNat / 2 ^ 56 = 0) : WindowOf x (.glob va)
  | priv {off : Nat} (hw : x.toNat / 2 ^ 56 = 0x7C) : WindowOf x (.priv off)
  | spad {off : Nat} (hw : x.toNat / 2 ^ 56 = 0x7D) : WindowOf x (.spad (x.toNat / 2 ^ 48 % 256) off)
  | gang {member off : Nat} (hw : x.toNat / 2 ^ 56 = 0x7E) : WindowOf x (.gang member off)
  | cwin {off : Nat} (hw : x.toNat / 2 ^ 56 = 0x7F) : WindowOf x (.cwin off)
  | bad (hlow : x.toNat / 2 ^ 56 ≠ 0) (hhigh : x.toNat / 2 ^ 56 < 0x7C) : WindowOf x .bad

theorem windowOf_window (x : DWord) : WindowOf x (window x) := by
  have hlt := x.isLt
  by_cases htop : x.toNat / 2 ^ 63 = 1
  · rw [window, if_pos htop]
    exact .rank (by omega)
  have hbits : bits x.toNat 62 56 = x.toNat / 2 ^ 56 := Nat.mod_eq_of_lt (by omega)
  simp only [window, if_neg htop, hbits]
  split
  next hw => exact .glob hw
  next hw => exact .priv hw
  next hw => exact .spad hw
  next hw => exact .gang hw
  next hw => exact .cwin hw
  next hglob hpriv hspad hgang hcwin =>
    have hpriv := Ne.intro hpriv
    have hspad := Ne.intro hspad
    have hgang := Ne.intro hgang
    have hcwin := Ne.intro hcwin
    exact .bad hglob (by omega)

/-- The number that SPACE writes for an address, by the bits of the address (R182). -/
def spaceNum (core : Nat) (x : DWord) : Nat :=
  let w := x.toNat / 2 ^ 56 % 128
  if x.getLsbD 63 then 12
  else if w = 0 then 4
  else if w = 0x7C then 1
  else if w = 0x7D then (if x.toNat / 2 ^ 48 % 256 = core then 2 else 18)
  else if w = 0x7E then 3
  else if w = 0x7F then 5
  else 0

theorem spaceBits_eq_spaceNum (core : Nat) (x : DWord) : spaceBits core x = BitVec.ofNat 64 (spaceNum core x) := by
  have hlt := x.isLt
  have htop : x.getLsbD 63 = true ↔ 2 ^ 7 ≤ x.toNat / 2 ^ 56 := (getLsbD_top x).trans (by omega)
  have hmod : x.toNat / 2 ^ 56 < 2 ^ 7 → x.toNat / 2 ^ 56 % 128 = x.toNat / 2 ^ 56 := Nat.mod_eq_of_lt
  have hwindow := windowOf_window x
  unfold spaceBits spaceNum
  simp only [htop]
  generalize window x = w at hwindow
  cases hwindow with
  | rank hw => rw [if_pos hw]; rfl
  | spad hw =>
    rw [hw]
    by_cases hcore : x.toNat / 2 ^ 48 % 256 = core
    · simp only [if_pos hcore]; rfl
    · simp only [if_neg hcore]; rfl
  | glob hw | priv hw | gang hw | cwin hw => rw [hw]; rfl
  | bad hlow hhigh =>
    rw [hmod (by omega), if_neg (by omega), if_neg hlow, if_neg (by omega), if_neg (by omega), if_neg (by omega), if_neg (by omega)]
    rfl

theorem spaceNum_lt (core : Nat) (x : DWord) : spaceNum core x < 2 ^ 32 := by
  unfold spaceNum
  dsimp only
  repeat' split
  all_goals decide

theorem toNat_spaceBits (core : Nat) (x : DWord) : (spaceBits core x).toNat = spaceNum core x := by
  have hlt := spaceNum_lt core x
  rw [spaceBits_eq_spaceNum, BitVec.toNat_ofNat, Nat.mod_eq_of_lt (by omega)]

/-! ## The conversions (R183) -/

/-- The window bits of a space's addresses, where its space is one window. -/
def windowCode : Space → Nat
  | .priv => 0x7C
  | .spad => 0x7D
  | .gsh => 0x7E
  | _ => 0x7F

/-- An address lies in the space that is named: for the global space in window 0x00 or in rank form. -/
def insideSpace (sp : Space) (x : DWord) : Prop :=
  match sp with
  | .glob => x.getLsbD 63 = true ∨ x.toNat / 2 ^ 56 = 0
  | q => x.toNat / 2 ^ 56 = windowCode q

theorem inSpace_window {sp : Space} (hsp : sp ≠ .gen) (x : DWord) : (window x).inSpace sp = true ↔ insideSpace sp x := by
  have hlt := x.isLt
  have htop : x.getLsbD 63 = true ↔ 2 ^ 7 ≤ x.toNat / 2 ^ 56 := (getLsbD_top x).trans (by omega)
  have hwindow := windowOf_window x
  generalize window x = w at hwindow
  cases sp with
  | gen => exact absurd rfl hsp
  | glob =>
    simp only [insideSpace, htop]
    cases hwindow <;> simp only [Win.inSpace, Bool.false_eq_true, true_iff, false_iff] <;> omega
  | priv | spad | gsh | cwin =>
    simp only [insideSpace, windowCode]
    cases hwindow <;> simp only [Win.inSpace, Bool.false_eq_true, true_iff, false_iff] <;> omega

/-- The bits of an offset in a space. -/
def offsetBits (sp : Space) : Nat := if sp = .spad then 48 else 56

/-- A value that CVTA does not convert, and the cause it gives. -/
def convFails (core : Nat) (from_ : Bool) (sp : Space) (x : DWord) (c : Nat) : Prop :=
  (from_ = false ∨ sp = .glob) ∧ ¬ insideSpace sp x ∧ c = 0x0BB ∨
  from_ = false ∧ sp = .spad ∧ insideSpace sp x ∧ x.toNat / 2 ^ 48 % 256 ≠ core ∧ c = 0x0B9 ∨
  from_ = true ∧ sp ≠ .glob ∧ 2 ^ offsetBits sp ≤ x.toNat ∧ c = 0x0BA

/-- What CVTA makes of a value that it converts, before it is cut to 64 bits. -/
def convValue (core : Nat) (from_ : Bool) (sp : Space) (x : DWord) : Nat :=
  if sp = .glob then x.toNat
  else if from_ then windowCode sp * 2 ^ 56 + (if sp = .spad then core * 2 ^ 48 else 0) + x.toNat
  else x.toNat % 2 ^ offsetBits sp

theorem cvtaValue_eq_convValue (core : Nat) (from_ : Bool) (sp : Space) (x : DWord) :
    cvtaValue core from_ sp x = BitVec.ofNat 64 (convValue core from_ sp x) := by
  unfold cvtaValue
  cases from_ with
  | true => cases sp <;> simp [convValue, windowCode]
  | false => cases sp <;> simp [convValue, offsetBits]

/-- .from to the global space makes the check of .to. -/
theorem cvtaFault_from_glob (core : Nat) (x : DWord) :
    cvtaFault core true .glob x = if (window x).inSpace .glob then none else some 0x0BB := rfl

/-- .from of an offset fails where bits are set above the space's field. -/
theorem cvtaFault_from (core : Nat) {sp : Space} (hglob : sp ≠ .glob) (x : DWord) :
    cvtaFault core true sp x = if 2 ^ offsetBits sp ≤ x.toNat then some 0x0BA else none := by
  cases sp with
  | glob => exact absurd rfl hglob
  | gen | priv | spad | gsh | cwin => rfl

/-- .to fails for an address outside the space, and for another core's scratchpad address. -/
theorem cvtaFault_to (core : Nat) (sp : Space) (x : DWord) (hsp : sp ≠ .gen) :
    cvtaFault core false sp x = if (window x).inSpace sp then
      (if sp = .spad ∧ x.toNat / 2 ^ 48 % 256 ≠ core then some 0x0B9 else none) else some 0x0BB := by
  have hwindow := windowOf_window x
  unfold cvtaFault
  generalize window x = w at hwindow
  cases hin : w.inSpace sp with
  | false => simp [hin]
  | true =>
    cases hwindow with
    | spad hw =>
      obtain rfl : sp = .spad := by cases sp <;> trivial
      simp [Win.inSpace]
    | rank | glob | priv | gang | cwin | bad =>
      have hspad : sp ≠ .spad := by rintro rfl; exact Bool.noConfusion hin
      simp [hin, hspad]

theorem cvtaFault_eq_some {core : Nat} {from_ : Bool} {sp : Space} (hsp : sp ≠ .gen) {x : DWord} {c : Nat} :
    cvtaFault core from_ sp x = some c ↔ convFails core from_ sp x c := by
  have hin := inSpace_window hsp x
  unfold convFails
  cases from_ with
  | false =>
    rw [cvtaFault_to core sp x hsp]
    simp only [← hin]
    split
    next h =>
      split
      next hforeign =>
        obtain ⟨rfl, hcore⟩ := hforeign
        simp [h, hcore, @eq_comm _ 0x0B9 c, -Nat.reducePow]
      next hforeign => simpa [h] using fun hspad hcore => absurd ⟨hspad, hcore⟩ hforeign
    next h => simp [h, @eq_comm _ 0x0BB c]
  | true =>
    by_cases hglob : sp = .glob
    · subst hglob
      rw [cvtaFault_from_glob, ← hin]
      split
      next h => simp [h]
      next h => simp [h, @eq_comm _ 0x0BB c]
    · rw [cvtaFault_from core hglob]
      split
      next h => simp [h, hglob, @eq_comm _ 0x0BA c]
      next h => simp [h, hglob]

theorem cvtaFault_eq_none {core : Nat} {from_ : Bool} {sp : Space} (hsp : sp ≠ .gen) {x : DWord}
    (hx : ∀ c, ¬ convFails core from_ sp x c) : cvtaFault core from_ sp x = none :=
  Option.eq_none_iff_forall_ne_some.mpr fun c hc => hx c ((cvtaFault_eq_some hsp).mp hc)

/-- None of CVTA's causes is one of the two that `State.stopAt` takes imprecisely. -/
theorem convFails_cause {core : Nat} {from_ : Bool} {sp : Space} {x : DWord} {c : Nat} (hx : convFails core from_ sp x c) :
    ¬ (c = 0x16B ∨ c = 0x16D) := by
  obtain ⟨_, _, rfl⟩ | ⟨_, _, _, _, rfl⟩ | ⟨_, _, _, rfl⟩ := hx <;> decide

/-! ## One result written to vector registers -/

theorem computes_of_no_lane {eff : State → Mask → Eff} {r n : Nat} {P : Nat → DWord → Prop} (hexec : exec i s = run i h eff s)
    (hready : vecReady s i h r n) (hact : lanesOn i h s = 0) (heff : eff (s.opened i h) (lanesOn i h s) = .ok (s.opened i h)) :
    computes s i h r n P := by
  obtain ⟨⟨_, hclear⟩, _⟩ := hready
  refine ⟨_, hexec.trans (run_ok i h eff s _ hclear heff), (onlyRegs_closed (onlyRegs.refl _)).onlyV (by simp) (by simp),
    fun l hl => ?_, fun k l _ => by simp⟩
  rw [hact, BitVec.ofNat_eq_ofNat, BitVec.getLsbD_zero] at hl
  exact absurd hl Bool.false_ne_true

/-- An instruction that writes one value in every active lane, where the value fits its destination and meets `P`. -/
theorem computes_of_writeVec {eff : State → Mask → Eff} {r n : Nat} {x : Lanes} {lat : Lat} {P : Nat → DWord → Prop}
    (hexec : exec i s = run i h eff s) (hn : n = 1 ∨ n = 2) (hready : vecReady s i h r n)
    (heff : eff (s.opened i h) (lanesOn i h s) = .ok ((s.opened i h).writeVec r n (lanesOn i h s) x lat))
    (hfit : ∀ l < 128, (x.getD l 0).toNat < 2 ^ (32 * n)) (hP : ∀ l < 128, P l (x.getD l 0)) : computes s i h r n P := by
  obtain ⟨t, hrun, hframe, hw⟩ := run_writeVec hready heff
  obtain ⟨_, _, _, hfile⟩ := hready
  refine ⟨t, hexec.trans hrun, hframe, fun l hl => ?_, wroteV_frame hw hn⟩
  rw [laneVal_of_wroteV hw hfile hn l hl (hfit l l.isLt)]
  exact hP l l.isLt

theorem lane_lt {m : Mask} {l : Nat} (hl : l ∈ Mask.lanes m) : l < 128 := List.mem_range.mp (List.mem_filter.mp hl).1

/-- The lowest active lane, or lane 0 where there is none. -/
theorem headD_lanes_lt (m : Mask) : (Mask.lanes m).headD 0 < 128 := by
  cases hlanes : Mask.lanes m with
  | nil => exact Nat.zero_lt_succ _
  | cons l ls => exact lane_lt (hlanes ▸ List.mem_cons_self)

theorem getD_map {α β : Type} (f : α → β) (x : Vector α 128) (d : α) (e : β) {l : Nat} (hl : l < 128) : (x.map f).getD l e = f (x.getD l d) := by
  simp [Vector.getD, hl]

/-- A uniform source reads the same in every lane (R40). -/
theorem laneSrc_s (k n : Nat) {l j : Nat} (hl : l < 128) (hj : j < 128) : laneSrc s i h (.s k) n l = laneSrc s i h (.s k) n j := by
  simp [laneSrc, State.readVec, Vector.getD, hl, hj]

/-! ## SPACE -/

theorem exec_space (s : State) (h : Hdr) (d a : Opd) : exec (.space h d a) s = run (.space h d a) h (fun t act =>
    if act = 0 then .ok t else
      t.putAny d 1 act (Vector.ofFn (fun l : Fin 128 => spaceBits t.cur.id.core (t.readVec a 2)[l])) (varLat h)) s := rfl

/-- The lane values of SPACE. -/
theorem getD_spaceBits (s : State) (i : Instr) (h : Hdr) (a : Opd) {l : Nat} (hl : l < 128) :
    (Vector.ofFn (fun l : Fin 128 => spaceBits (s.opened i h).cur.id.core ((s.opened i h).readVec a 2)[l])).getD l 0 =
      spaceBits s.cur.id.core (laneSrc s i h a 2 l) := by
  rw [getD_ofFn _ _ hl, opened_id, laneSrc, getD_lane _ _ hl]

theorem computes_space {r : Nat} {a : Opd} (hready : vecReady s (.space h (.v r) a) h r 1) :
    computes s (.space h (.v r) a) h r 1 (fun l y => y.toNat = spaceNum s.cur.id.core (laneSrc s (.space h (.v r) a) h a 2 l)) := by
  by_cases hact : lanesOn (.space h (.v r) a) h s = 0
  · exact computes_of_no_lane (exec_space ..) hready hact (if_pos hact)
  · refine computes_of_writeVec (exec_space ..) (.inl rfl) hready (if_neg hact) (fun l hl => ?_) (fun l hl => ?_)
    · rw [getD_spaceBits s _ h a hl, toNat_spaceBits]
      exact spaceNum_lt _ _
    · rw [getD_spaceBits s _ h a hl, toNat_spaceBits]

theorem yields_space {r : Nat} {a : Opd} (hready : uniReady s (.space h (.s r) a) h r 1) (hact : lanesOn (.space h (.s r) a) h s ≠ 0) :
    yields s (.space h (.s r) a) h r 1 (BitVec.ofNat 64 (spaceNum s.cur.id.core
      (laneSrc s (.space h (.s r) a) h a 2 ((Mask.lanes (lanesOn (.space h (.s r) a) h s)).headD 0)))) := by
  rw [← spaceBits_eq_spaceNum, ← getD_spaceBits s _ h a (headD_lanes_lt _)]
  exact (yields_of_putUni (exec_space ..) hready rfl).2 hact

/-! ## CVTA -/

/-- The first fault among lanes in order, with the lane's value. -/
def firstFault (core : Nat) (from_ : Bool) (sp : Space) (x : Nat → DWord) (ls : List Nat) : Option (Nat × DWord) :=
  ls.findSome? (fun l => (cvtaFault core from_ sp (x l)).map (fun c => (c, x l)))

theorem firstFault_eq_none {core : Nat} {from_ : Bool} {sp : Space} {x : Nat → DWord} {ls : List Nat}
    (hls : ∀ l ∈ ls, cvtaFault core from_ sp (x l) = none) : firstFault core from_ sp x ls = none :=
  List.findSome?_eq_none_iff.mpr fun l hl => by rw [hls l hl, Option.map_none]

theorem firstFault_lanes {core : Nat} {from_ : Bool} {sp : Space} {x : Nat → DWord} {m : Mask} {l c : Nat} (hl : l ∈ Mask.lanes m)
    (hc : cvtaFault core from_ sp (x l) = some c) (hlow : ∀ k ∈ Mask.lanes m, k < l → cvtaFault core from_ sp (x k) = none) :
    firstFault core from_ sp x (Mask.lanes m) = some (c, x l) := by
  have hsorted : (Mask.lanes m).Pairwise (· < ·) := List.pairwise_lt_range.filter _
  obtain ⟨below, above, hsplit⟩ := List.append_of_mem hl
  rw [hsplit, List.pairwise_append] at hsorted
  obtain ⟨_, _, hbelow⟩ := hsorted
  refine List.findSome?_eq_some_iff.mpr ⟨below, l, above, hsplit, by rw [hc, Option.map_some], fun k hk => ?_⟩
  have hmem : k ∈ Mask.lanes m := hsplit ▸ List.mem_append_left _ hk
  rw [hlow k hmem (hbelow k hk l List.mem_cons_self), Option.map_none]

/-- The effect of CVTA: the first fault, or one value for each active lane. -/
def cvtaEff (h : Hdr) (from_ : Bool) (sp : Space) (d a : Opd) (t : State) (act : Mask) : Eff :=
  if act = 0 then .ok t else
    match firstFault t.cur.id.core from_ sp (fun l => (t.readVec a 2).getD l 0) (Mask.lanes act) with
    | some (c, y) => .trap c y
    | none => t.putAny d 2 act ((t.readVec a 2).map (fun (y : DWord) => cvtaValue t.cur.id.core from_ sp y)) (varLat h)

theorem exec_cvta (s : State) (h : Hdr) (from_ : Bool) (sp : Space) (d a : Opd) :
    exec (.cvta h from_ sp d a) s = run (.cvta h from_ sp d a) h (cvtaEff h from_ sp d a) s := rfl

/-- The lane values of CVTA. -/
theorem getD_cvtaValue (s : State) (i : Instr) (h : Hdr) (from_ : Bool) (sp : Space) (a : Opd) {l : Nat} (hl : l < 128) :
    (((s.opened i h).readVec a 2).map (fun (y : DWord) => cvtaValue (s.opened i h).cur.id.core from_ sp y)).getD l 0 =
      BitVec.ofNat 64 (convValue s.cur.id.core from_ sp (laneSrc s i h a 2 l)) := by
  rw [getD_map _ _ 0 _ hl, opened_id, cvtaValue_eq_convValue, laneSrc]

section
variable {from_ : Bool} {sp : Space} {d a : Opd}

theorem cvtaEff_of_fault {c : Nat} {y : DWord} (hact : lanesOn i h s ≠ 0)
    (hfault : firstFault s.cur.id.core from_ sp (laneSrc s i h a 2) (Mask.lanes (lanesOn i h s)) = some (c, y)) :
    cvtaEff h from_ sp d a (s.opened i h) (lanesOn i h s) = .trap c y := by
  rw [← opened_id s i h] at hfault
  exact (if_neg hact).trans (by rw [show firstFault _ _ _ (fun l => ((s.opened i h).readVec a 2).getD l 0) _ = _ from hfault])

theorem cvtaEff_of_no_fault (hact : lanesOn i h s ≠ 0)
    (hnone : firstFault s.cur.id.core from_ sp (laneSrc s i h a 2) (Mask.lanes (lanesOn i h s)) = none) :
    cvtaEff h from_ sp d a (s.opened i h) (lanesOn i h s) = (s.opened i h).putAny d 2 (lanesOn i h s)
      (((s.opened i h).readVec a 2).map (fun (y : DWord) => cvtaValue (s.opened i h).cur.id.core from_ sp y)) (varLat h) := by
  rw [← opened_id s i h] at hnone
  exact (if_neg hact).trans (by rw [show firstFault _ _ _ (fun l => ((s.opened i h).readVec a 2).getD l 0) _ = _ from hnone])

/-- The lowest active lane whose value is not converted traps with that value (R183). -/
theorem exec_cvta_trap {l c : Nat} (hc : clears (.cvta h from_ sp d a) h s) (hact : lanesOn (.cvta h from_ sp d a) h s ≠ 0)
    (hsp : sp ≠ .gen) (hl : l ∈ Mask.lanes (lanesOn (.cvta h from_ sp d a) h s))
    (hfails : convFails s.cur.id.core from_ sp (laneSrc s (.cvta h from_ sp d a) h a 2 l) c)
    (hlow : ∀ k ∈ Mask.lanes (lanesOn (.cvta h from_ sp d a) h s), k < l →
      ∀ c', ¬ convFails s.cur.id.core from_ sp (laneSrc s (.cvta h from_ sp d a) h a 2 k) c') :
    exec (.cvta h from_ sp d a) s =
      .next ((s.opened (.cvta h from_ sp d a) h).precise c (laneSrc s (.cvta h from_ sp d a) h a 2 l)) := by
  have hfirst := firstFault_lanes hl ((cvtaFault_eq_some hsp).mpr hfails) (fun k hk hkl => cvtaFault_eq_none hsp (hlow k hk hkl))
  rw [exec_cvta, run_trap _ _ _ _ _ _ hc.2 (cvtaEff_of_fault hact hfirst), State.stopAt_of_ne _ (convFails_cause hfails)]

theorem computes_cvta {r : Nat} (hready : vecReady s (.cvta h from_ sp (.v r) a) h r 2)
    (hact : lanesOn (.cvta h from_ sp (.v r) a) h s ≠ 0) (hnone : firstFault s.cur.id.core from_ sp
      (laneSrc s (.cvta h from_ sp (.v r) a) h a 2) (Mask.lanes (lanesOn (.cvta h from_ sp (.v r) a) h s)) = none) :
    computes s (.cvta h from_ sp (.v r) a) h r 2 (fun l y =>
      y.toNat = convValue s.cur.id.core from_ sp (laneSrc s (.cvta h from_ sp (.v r) a) h a 2 l) % 2 ^ 64) := by
  refine computes_of_writeVec (exec_cvta ..) (.inr rfl) hready (cvtaEff_of_no_fault hact hnone) (fun l _ => BitVec.isLt _) (fun l hl => ?_)
  rw [getD_cvtaValue s _ h from_ sp a hl, BitVec.toNat_ofNat]

theorem yields_cvta {r k : Nat} (hready : uniReady s (.cvta h from_ sp (.s r) (.s k)) h r 2)
    (hact : lanesOn (.cvta h from_ sp (.s r) (.s k)) h s ≠ 0) (hnone : firstFault s.cur.id.core from_ sp
      (laneSrc s (.cvta h from_ sp (.s r) (.s k)) h (.s k) 2) (Mask.lanes (lanesOn (.cvta h from_ sp (.s r) (.s k)) h s)) = none) :
    yields s (.cvta h from_ sp (.s r) (.s k)) h r 2 (BitVec.ofNat 64
      (convValue s.cur.id.core from_ sp (laneSrc s (.cvta h from_ sp (.s r) (.s k)) h (.s k) 2 0))) := by
  have hhead := headD_lanes_lt (lanesOn (.cvta h from_ sp (.s r) (.s k)) h s)
  rw [laneSrc_s k 2 (Nat.zero_lt_succ _) hhead, ← getD_cvtaValue s _ h from_ sp (.s k) hhead]
  exact (yields_of_putUni (exec_cvta ..) hready ((cvtaEff_of_no_fault hact hnone).trans (if_neg hact).symm)).2 hact

end

end Sys2Proof.Machine
end

section
open Sys2Proof Sys2Proof.Machine

/-- Settles O40: the number written is a function of the address bits and the core's id, the same for a vector and a uniform destination. -/
theorem spaceOfAnAddress : Obligations.SpaceOfAnAddress := by
  unfold Obligations.SpaceOfAnAddress
  intro space s h r a _
  exact ⟨fun hready => computes_space hready, fun hready hact => yields_space hready hact⟩

/-- Settles O41: the model's fault and value are those of R183, and the lowest active lane that faults decides. -/
theorem addressConversions : Obligations.AddressConversions := by
  unfold Obligations.AddressConversions
  intro code inside field s h from_ sp r a d i hsp _ hi hdest hact core fault value
  subst hi
  have hfault : ∀ x c, convFails core from_ sp x c ↔ fault x c := fun x c => by cases sp <;> rfl
  have hvalue : ∀ x, convValue core from_ sp x = value x := fun x => by cases sp <;> rfl
  have hclears : clears (.cvta h from_ sp d a) h s := by
    obtain ⟨_, hready⟩ | ⟨_, hready, _⟩ := hdest <;> exact hready.1
  simp only [← hfault, ← hvalue]
  refine ⟨fun hnone => ?_, fun l c hl hc hlow => exec_cvta_trap hclears hact hsp hl hc hlow⟩
  have hfirst := firstFault_eq_none (fun l hl => cvtaFault_eq_none hsp (hnone l hl))
  refine ⟨?_, ?_⟩
  · rintro rfl
    obtain ⟨_, hready⟩ | ⟨hd, _⟩ := hdest
    · exact computes_cvta hready hact hfirst
    · cases hd
  · rintro rfl
    obtain ⟨hd, _⟩ | ⟨_, hready, k, rfl⟩ := hdest
    · cases hd
    · exact yields_cvta hready hact hfirst

end

section
/-! What one instruction or event leaves of a state written out: the states with which statements are refuted. -/
namespace Sys2Proof.Machine

/-- The next state, where there is one. -/
def State.next? (i : Instr) (s : State) : Option State := match exec i s with
  | .next t => some t
  | _ => none

theorem State.next?_eq {i : Instr} {s t : State} (hexec : exec i s = .next t) : s.next? i = some t := by
  simp only [State.next?, hexec]

/-! ## SLOTWR over an uncorrectable error (R223, R278) -/

/-- A header without a guard, with a stall of 1. -/
def Hdr.unguarded : Hdr := ⟨31, false, 1, 0, 0, false⟩

/-- A running warp with every lane active, whose workgroup's slot 0 holds an uncorrectable error in its first 64 bytes. -/
def slotErrorState : State :=
  { State.reset with
    cur := { Warp.blank with status := .running, base := { Path.blank with mask := Mask.full, creation := Mask.full } }
    wg := { Wgroup.blank with status := .resident, kern := placeKernel, bad := [2 ^ 40] } }

theorem slotErrorState_canonical : slotErrorState.Canonical := by
  refine ⟨rfl, fun g hg => ?_, fun p hp => absurd hp List.not_mem_nil⟩
  rw [List.mem_singleton.mp hg]
  exact ⟨rfl, rfl, rfl⟩

/-- SLOTWR of v0 at offset 0 of the data area of slot 0: 512 bytes. -/
def coveringSlotwr : Instr := .slotwr Hdr.unguarded false 0 (.v 0) (.s 0)

theorem clears_coveringSlotwr : clears coveringSlotwr Hdr.unguarded slotErrorState := by
  unfold clears; decide +kernel

/-- The write covers the line with the error, so that the line holds none any more. -/
theorem bad_of_exec_coveringSlotwr {t : State} (hexec : exec coveringSlotwr slotErrorState = .next t) : t.wg.bad = [] := by
  have hrun : (slotErrorState.next? coveringSlotwr).map (fun u => u.wg.bad) = some [] := by decide +kernel
  rw [State.next?_eq hexec] at hrun
  exact Option.some.inj hrun

/-! ## A landing for a slot that holds no warp (R42, R201) -/

/-- What a message of more than 1,024 bytes leaves to take off a count register: a piece with no byte of its own (R296). -/
def countPiece : Piece := { idx := 0, bytes := [], mem := 0, drop := 64 }

/-- A tile store with only that piece to land, of the warp in slot 0 of core 0. -/
def countCmd : Cmd :=
  { id := 0, kind := .tile, warp := Warp.blank.id, wg := 0, core := 0, k := 0, epc := 0, pid := 0, hint := 0, part := 0, todo := [],
    pieces := [countPiece], wroteBack := false, refused := none, failed := none, slotSeq := 0, follow := none, dup := false, lines := [],
    copyg := none, remote := false, inRegion := false, pins := ⟨[], []⟩ }

/-- A slot that holds no warp, where 64 stands in every count register. -/
def freeSlot : Warp := { Warp.blank with k := Vector.replicate 16 64 }

/-- The machine after reset, but for that slot and that command. -/
def freeSlotState : State := { State.reset with cur := freeSlot, eng := { Engines.reset with cmds := [countCmd] } }

theorem freeSlotState_canonical : freeSlotState.Canonical := by
  refine ⟨rfl, fun g hg => ?_, fun p hp => absurd hp List.not_mem_nil⟩
  rw [List.mem_singleton.mp hg]
  exact ⟨rfl, rfl, rfl⟩

/-- A slot that holds no warp has no count register that could fall. -/
theorem count_of_exec_landing {t : State} (hexec : exec (.engineWriteLands 0 0) freeSlotState = .next t) :
    (t.warpAt Warp.blank.id).map (fun w => w.k.getD 0 0) = some 64 := by
  have hrun : (freeSlotState.next? (.engineWriteLands 0 0)).map (fun u => (u.warpAt Warp.blank.id).map (fun w => w.k.getD 0 0)) =
      some (some 64) := by decide +kernel
  rw [State.next?_eq hexec] at hrun
  exact Option.some.inj hrun

end Sys2Proof.Machine
end

section
open Sys2Proof Sys2Proof.Machine

/-- Refutes O48: a SLOTWR that covers a line with an uncorrectable error clears the error (R278), while the statement has the workgroup keep
everything but its slots and the order of their accesses. -/
theorem not_anvilInstructionsQueueTheirWork : ¬ Obligations.AnvilInstructionsQueueTheirWork := by
  unfold Obligations.AnvilInstructionsQueueTheirWork
  intro hall
  obtain ⟨_, _, _, _, _, _, _, _, hslotwr⟩ := hall slotErrorState Hdr.unguarded rfl
  obtain ⟨_, _, hdone⟩ := hslotwr false 0 (.v 0) (.s 0) rfl clears_coveringSlotwr
  obtain ⟨t, hexec, hframe, _⟩ := hdone (by decide +kernel) nofun slotErrorState_canonical
  have hkept : t.wg.bad = [2 ^ 40] := congrArg (fun u => u.wg.bad) hframe
  rw [bad_of_exec_coveringSlotwr hexec] at hkept
  exact List.cons_ne_nil _ _ hkept.symm

/-- Refutes O54: the count register that a landing lowers may be one of a slot that holds no warp, where nothing falls. -/
theorem not_engineEvents : ¬ Obligations.EngineEvents := by
  unfold Obligations.EngineEvents
  intro hall
  obtain ⟨hland, _⟩ := hall freeSlotState 0 countCmd rfl rfl freeSlotState_canonical
  obtain ⟨t, w, hexec, _, hwarp, hcount, _⟩ := hland countPiece [] Warp.blank.id 0 freeSlot rfl trivial rfl rfl rfl rfl
    (by simp [freeSlotState, countCmd]) rfl nofun rfl (by decide) (by decide)
  have hkept := count_of_exec_landing hexec
  rw [hwarp, Option.map_some] at hkept
  rw [Option.some.inj hkept] at hcount
  exact absurd hcount (by decide)

end

section
/-! Reads at the home: which part of the state they change (R259, R260, R263). -/
namespace Sys2Proof.Machine

variable {s t u : State}

/-- The two states differ only in the memory system, the scheduler, whose parked records a write may wake, and the logs. -/
def onlyHome (s t : State) : Prop := t = { s with mem := t.mem, sched := t.sched, logs := t.logs }

theorem onlyHome.refl (s : State) : onlyHome s s := rfl

theorem onlyHome.trans (hst : onlyHome s t) (htu : onlyHome t u) : onlyHome s u := by
  unfold onlyHome at hst htu
  rw [hst] at htu
  exact htu

theorem onlyHome.of_mem {m : MemSys} (ht : onlyHome { s with mem := m } t) : onlyHome s t := ht

theorem onlyHome.cur (ht : onlyHome s t) : t.cur = s.cur := by rw [ht]
theorem onlyHome.wg (ht : onlyHome s t) : t.wg = s.wg := by rw [ht]
theorem onlyHome.warps (ht : onlyHome s t) : t.warps = s.warps := by rw [ht]
theorem onlyHome.eng (ht : onlyHome s t) : t.eng = s.eng := by rw [ht]
theorem onlyHome.pc (ht : onlyHome s t) : t.pc = s.pc := by rw [State.pc, ht.cur, State.pc]

theorem onlyHome_countWritten (s : State) (line : Nat) : onlyHome s (s.countWritten line) := by
  unfold State.countWritten; split <;> rfl

theorem onlyHome_dropLine (s : State) (line : Nat) : onlyHome s (s.dropLine line) := by
  simp only [State.dropLine]; split <;> rfl

theorem onlyHome_writeBack (s : State) (line : Nat) : onlyHome s (s.writeBack line) := by
  simp only [State.writeBack]
  split
  · rfl
  · exact (onlyHome_countWritten _ line).of_mem

theorem onlyHome_evictNow (s : State) (line : Nat) : onlyHome s (s.evictNow line) := by
  simp only [State.evictNow]
  split
  · exact onlyHome_dropLine s line
  · exact (onlyHome_writeBack s line).trans rfl

theorem onlyHome_evictLine (s : State) (line salt : Nat) : onlyHome s (s.evictLine line salt) := by
  unfold State.evictLine
  split
  · exact onlyHome_evictNow s line
  · rfl

theorem onlyHome_evictRdc (s : State) (hearth line : Nat) : onlyHome s (s.evictRdc hearth line) := by
  unfold State.evictRdc; split <;> rfl

theorem onlyHome_roomHome (s : State) (line : Nat) : onlyHome s (s.roomHome line) := by
  simp only [State.roomHome]
  split
  · rfl
  · split
    · exact (onlyHome_evictNow _ _).of_mem
    · rfl

theorem onlyHome_fillRdc (s : State) (hearth line rmode hint : Nat) (bs : List Byte) : onlyHome s (s.fillRdc hearth line rmode hint bs) := by
  simp only [State.fillRdc]
  split
  · rfl
  · split <;> rfl

theorem onlyHome_spendLast (s : State) (line : Nat) : onlyHome s (s.spendLast line) := by
  unfold State.spendLast
  split
  · rfl
  · exact onlyHome_dropLine s line

theorem onlyHome_homeRead (s : State) (line rmode hint hearth : Nat) : onlyHome s (s.homeRead line rmode hint hearth).2 := by
  have hevict : onlyHome s ((s.evictLine line (2 * line)).evictRdc hearth line) :=
    (onlyHome_evictLine s line _).trans (onlyHome_evictRdc _ hearth line)
  have hroom : onlyHome s (if hint = 7 then (s.evictLine line (2 * line)).evictRdc hearth line
      else ((s.evictLine line (2 * line)).evictRdc hearth line).roomHome line) := by
    split
    · exact hevict
    · exact hevict.trans (onlyHome_roomHome _ line)
  simp only [State.homeRead]
  split
  · rfl
  split
  · split
    · exact hevict
    · exact hevict.trans rfl
  split
  · exact hroom.trans (onlyHome_fillRdc _ _ _ _ _ _).of_mem
  · exact hroom.trans (onlyHome_spendLast _ line)
  · exact hroom.trans (onlyHome_spendLast _ line)
  · exact hroom.trans (onlyHome_fillRdc _ _ _ _ _ _).of_mem

theorem onlyHome_engByte (s : State) (hint core : Nat) (seen : List Nat) (t : Target) : onlyHome s (s.engByte hint core seen t).2 := by
  cases t with
  | loc l m =>
    simp only [State.engByte]
    split
    · rfl
    · exact onlyHome_homeRead s _ _ _ _
  | split l l2 m => rfl
  | spad wg off => rfl
  | remote rank region off job => rfl

theorem onlyHome_engBytes (hint core : Nat) (ts : List Target) :
    ∀ (s : State) (seen : List Nat), onlyHome s (s.engBytes hint core seen ts).2 := by
  induction ts with
  | nil => exact fun s _ => onlyHome.refl s
  | cons t ts ih => exact fun s seen => (onlyHome_engByte s hint core seen t).trans (ih _ _)

/-- Reading a layout record changes nothing but what a read at the home changes (R66). -/
theorem onlyHome_readRecord {a : DWord} {r : List Byte} (hread : readRecord s a = .ok (r, u)) : onlyHome s u := by
  unfold readRecord at hread
  split at hread
  · cases hread
  · cases hread
  · split at hread
    · split at hread
      · cases hread
      · obtain rfl := congrArg Prod.snd (EngRes.ok.inj hread)
        exact onlyHome_engBytes _ _ _ _ _
    · cases hread
    · cases hread
  · cases hread

/-! ## The checks of a copy (R203, R206) -/

/-- A copy whose checks pass has read its record, and moves at least one byte, in whole bytes. -/
theorem copyCheck_ok {scatter copyg : Bool} {dst a b : DWord} {area : Option (Nat × Nat)} {r : List Byte} {remote : Nat}
    (hcheck : copyCheck s scatter copyg dst area a b = .ok (r, remote, u)) :
    readRecord s b = .ok (r, u) ∧ (layOf r).count * (layOf r).width / 8 ≠ 0 := by
  simp only [copyCheck] at hcheck
  -- every branch but one answers a fault or a wait
  repeat' split at hcheck
  all_goals cases hcheck
  all_goals exact ⟨by assumption, by omega⟩

end Sys2Proof.Machine
end

section
/-! Issuing engine work: the count register rises, the warp's registers stay, and one command goes last among the engines' work (R42, R200,
R201). -/
namespace Sys2Proof.Machine

variable {s t u v : State} {i : Instr} {h : Hdr} {eff : State → Mask → Eff} {k n : Nat}

/-! ## Fields across an issue -/

@[simp] theorem opened_eng (s : State) (i : Instr) (h : Hdr) : (s.opened i h).eng = s.eng := by rw [opened_onlyPend s i h]
@[simp] theorem opened_sched (s : State) (i : Instr) (h : Hdr) : (s.opened i h).sched = s.sched := by rw [opened_onlyPend s i h]
@[simp] theorem opened_warps (s : State) (i : Instr) (h : Hdr) : (s.opened i h).warps = s.warps := by rw [opened_onlyPend s i h]

@[simp] theorem closed_eng (s t : State) (h : Hdr) : (s.closed h t).eng = t.eng := rfl
@[simp] theorem closed_warps (s t : State) (h : Hdr) : (s.closed h t).warps = t.warps := rfl
@[simp] theorem closed_k (s t : State) (h : Hdr) : (s.closed h t).cur.k = t.cur.k := by simp [closed_cur]
@[simp] theorem closed_ports (s t : State) (h : Hdr) : (s.closed h t).cur.ports = t.cur.ports := by simp [closed_cur]
@[simp] theorem closed_exited (s t : State) (h : Hdr) : (s.closed h t).cur.exited = t.cur.exited := by simp [closed_cur]

@[simp] theorem Warp.countSb_path (w : Warp) (e : Nat) : (w.countSb e).path = w.path := by unfold Warp.countSb; split <;> rfl
@[simp] theorem Warp.countUp_path (w : Warp) (pid c : Nat) : (w.countUp pid c).path = w.path := rfl

/-- A path that moves to another slot keeps its mask. -/
theorem Warp.em_modPath_pc (w : Warp) (f : DWord → DWord) : (w.modPath (fun p => { p with pc := f p.pc })).em = w.em := by
  rw [Warp.em, Warp.modPath_path, Warp.em]

@[simp] theorem closed_em (s t : State) (h : Hdr) : (s.closed h t).cur.em = t.cur.em := by
  rw [closed_cur, Warp.em_modPath_pc _ (fun x => x + 1), Warp.em, Warp.countUp_path, Warp.countSb_path, Warp.em]

/-- A precise trap of an instruction that passes its checks. -/
theorem exec_precise {c : Nat} {a : DWord} (hexec : exec i s = run i h eff s) (hclears : clears i h s)
    (heff : eff (s.opened i h) (lanesOn i h s) = .trap c a) (hc : ¬ (c = 0x16B ∨ c = 0x16D)) :
    exec i s = .next ((s.opened i h).precise c a) := by
  rw [hexec, run_trap i h eff s c a hclears.2 heff, State.stopAt_of_ne a hc]

/-! ## Count registers (R42) -/

/-- The state in which a count register has risen. -/
def State.raise (s : State) (k n : Nat) : State :=
  s.modCur (fun w => { w with k := w.k.setIfInBounds k (w.k.getD k 0 + BitVec.ofNat 32 n) })

@[simp] theorem raise_pc (s : State) (k n : Nat) : (s.raise k n).pc = s.pc := rfl
@[simp] theorem raise_eng (s : State) (k n : Nat) : (s.raise k n).eng = s.eng := rfl
@[simp] theorem raise_wg (s : State) (k n : Nat) : (s.raise k n).wg = s.wg := rfl
@[simp] theorem raise_id (s : State) (k n : Nat) : (s.raise k n).cur.id = s.cur.id := rfl

theorem countUp_of_roomK (hroom : roomK s k n) : s.countUp k n = some (s.raise k n) := by
  obtain ⟨_, hsum⟩ := hroom
  have hnew : BitVec.ofInt 32 (((s.cur.k.getD k 0).toNat : Int) + n) = s.cur.k.getD k 0 + BitVec.ofNat 32 n := by
    rw [← Int.natCast_add, BitVec.ofInt_natCast, BitVec.ofNat_add, BitVec.ofNat_toNat, BitVec.setWidth_eq]
  rw [State.countUp, countAdd, if_pos (by omega), hnew]
  rfl

theorem getD_raise (hk : k < 16) (j : Nat) :
    (s.raise k n).cur.k.getD j 0 = if j = k then s.cur.k.getD j 0 + BitVec.ofNat 32 n else s.cur.k.getD j 0 := by
  by_cases hj : j < 16
  · by_cases hjk : j = k
    · subst hjk
      simp [State.raise, Vector.getD, hj]
    · simp [State.raise, Vector.getD, hj, hjk, Ne.symm hjk]
  · rw [if_neg (by omega)]
    simp [Vector.getD, hj]

/-! ## The fence of R202 -/

/-- The release that engine work makes writes the warp's fence, and nothing else. -/
theorem implicitFence_eq (s : State) (sc cmd : Nat) : ∃ f, s.implicitFence sc cmd = s.modCur (fun w => { w with fence := f }) := by
  unfold State.implicitFence
  split
  · exact ⟨s.cur.fence, rfl⟩
  · simp only [State.pollFence, State.modCur_cur]
    split
    · exact ⟨none, rfl⟩
    · exact ⟨_, rfl⟩

/-! ## One command, or one operation -/

/-- What an effect has made of the warp: one count register has risen, and a fence may stand. -/
def countsOn (o t : State) (k n : Nat) : Prop := (∃ f, t.cur = { (o.raise k n).cur with fence := f }) ∧ t.warps = o.warps

theorem countsOn.congr (ht : countsOn s t k n) (hcur : u.cur = t.cur) (hwarps : u.warps = t.warps) : countsOn s u k n := by
  rwa [countsOn, hcur, hwarps]

theorem countsOn.implicitFence (ht : countsOn s t k n) (sc cmd : Nat) : countsOn s (t.implicitFence sc cmd) k n := by
  obtain ⟨⟨_, hcur⟩, hwarps⟩ := ht
  obtain ⟨f, hf⟩ := implicitFence_eq t sc cmd
  rw [hf]
  exact ⟨⟨f, by rw [State.modCur_cur, hcur]⟩, hwarps⟩

/-- An instruction whose effect counts goes on at the next slot, with its registers as they were. -/
theorem countsOn.closed (ht : countsOn (s.opened i h) t k n) (hk : k < 16) :
    (s.closed h t).pc = s.pc + 1 ∧ counted s (s.closed h t) k n ∧ sameRegs s (s.closed h t) := by
  obtain ⟨⟨f, hcur⟩, hwarps⟩ := ht
  have hpath : t.pc = s.pc := by
    rw [State.pc, hcur, ← opened_pc s i h]
    rfl
  have hem : t.cur.em = s.cur.em := by
    rw [hcur, Warp.em, Warp.em, ← opened_path s i h]
    rfl
  refine ⟨by rw [closed_pc, hpath], fun j => ?_, by simp [hcur, State.raise], by simp [hcur, State.raise], by simp [hcur, State.raise],
    by simp [hcur, State.raise], by rw [closed_em, hem], by simp [hcur, State.raise], by rw [closed_warps, hwarps, opened_warps]⟩
  rw [closed_k, hcur]
  exact (getD_raise hk j).trans (by rw [opened_k])

/-- A command that an instruction of the focused warp has made, with nothing fetched yet. -/
def Cmd.madeBy (c : Cmd) (s : State) (k : Nat) : Prop :=
  c.warp = s.cur.id ∧ c.wg = s.wg.key ∧ c.epc = s.pc ∧ c.k = k ∧ c.pieces = []

theorem newCmd_madeBy (s : State) (kind : CmdKind) (k hint : Nat) (todo : List Nat) (remote : Bool) :
    (newCmd s kind k hint todo remote).madeBy s k := ⟨rfl, rfl, rfl, rfl, rfl⟩

theorem Cmd.madeBy.congr {c : Cmd} (hc : c.madeBy s k) (hid : s.cur.id = t.cur.id) (hwg : s.wg.key = t.wg.key) (hpc : s.pc = t.pc) :
    c.madeBy t k := by
  rwa [Cmd.madeBy, ← hid, ← hwg, ← hpc]

theorem Cmd.madeBy.opened {c : Cmd} (hc : c.madeBy (s.opened i h) k) : c.madeBy s k :=
  hc.congr (opened_id s i h) (by rw [opened_wg]) (opened_pc s i h)

/-- An instruction whose effect counts and adds one command. -/
theorem exec_queues {c : Cmd} {P : Cmd → Prop} (hexec : exec i s = run i h eff s) (hclears : clears i h s) (hk : k < 16)
    (heff : eff (s.opened i h) (lanesOn i h s) = .ok t) (ht : countsOn (s.opened i h) t k n)
    (hcmds : t.eng.cmds = (s.opened i h).eng.cmds ++ [c]) (hc : c.madeBy (s.opened i h) k) (hP : P c) :
    ∃ t', exec i s = .next t' ∧ t'.pc = s.pc + 1 ∧ counted s t' k n ∧ sameRegs s t' ∧ t'.mem = t.mem ∧ queued s t' k P := by
  obtain ⟨hpc, hcount, hregs⟩ := ht.closed hk
  obtain ⟨hwarp, hwg, hepc, hreg, hpieces⟩ := hc.opened
  exact ⟨_, hexec.trans (run_ok i h eff s t hclears.2 heff), hpc, hcount, hregs, rfl,
    c, by rw [closed_eng, hcmds, opened_eng], hwarp, hwg, hepc, hreg, hpieces, hP⟩

end Sys2Proof.Machine
end

section
/-! Row operations, RANK and TGEN at issue (R211, R213, R215): which commands they leave with the bellows. -/
namespace Sys2Proof.Machine

variable {s t u : State} {i : Instr} {h : Hdr} {k n : Nat}

theorem countsOn_raise_of_onlyHome (hu : onlyHome s u) (k n : Nat) : countsOn s (u.raise k n) k n :=
  ⟨⟨s.cur.fence, by rw [State.raise, State.modCur_cur, hu.cur]; rfl⟩, hu.warps⟩

theorem roomK.onlyHome (hroom : roomK s k n) (hu : onlyHome s u) : roomK u k n := by
  rwa [roomK, hu.cur]

theorem roomK.opened (hroom : roomK s k n) : roomK (s.opened i h) k n := by
  rwa [roomK, opened_k]

/-- A command made after reads at the home and after the count has risen. -/
theorem newCmd_madeBy_raise (hu : onlyHome s u) (kind : CmdKind) (hint : Nat) (todo : List Nat) (remote : Bool) :
    (newCmd (u.raise k n) kind k hint todo remote).madeBy s k :=
  (newCmd_madeBy _ kind k hint todo remote).congr (by rw [raise_id, hu.cur]) (by rw [raise_wg, hu.wg]) (by rw [raise_pc, hu.pc])

/-- An instruction that, after reads at the home, counts and adds one new command. -/
theorem exec_newCmd {eff : State → Mask → Eff} {kind : CmdKind} {todo : List Nat} {remote : Bool} {sc id : Nat} {P : Cmd → Prop}
    (hexec : exec i s = run i h eff s) (hclears : clears i h s) (hu : onlyHome (s.opened i h) u) (hroom : roomK s k n)
    (heff : eff (s.opened i h) (lanesOn i h s) =
      .ok (((u.raise k n).addCmd (newCmd (u.raise k n) kind k 0 todo remote)).implicitFence sc id))
    (hP : P (newCmd (u.raise k n) kind k 0 todo remote)) :
    ∃ t, exec i s = .next t ∧ t.pc = s.pc + 1 ∧ counted s t k n ∧ sameRegs s t ∧ t.mem = u.mem ∧ queued s t k P := by
  obtain ⟨f, hf⟩ := implicitFence_eq ((u.raise k n).addCmd (newCmd (u.raise k n) kind k 0 todo remote)) sc id
  have hcounts : countsOn (s.opened i h) ((u.raise k n).addCmd (newCmd (u.raise k n) kind k 0 todo remote)) k n :=
    (countsOn_raise_of_onlyHome hu k n).congr rfl rfl
  have hcounts' := hcounts.implicitFence sc id
  rw [hf] at heff hcounts'
  obtain ⟨t, hrun, hpc, hcount, hregs, hmem, hqueued⟩ := exec_queues hexec hclears hroom.1 heff hcounts'
    (congrArg (· ++ [newCmd (u.raise k n) kind k 0 todo remote]) (congrArg Engines.cmds hu.eng))
    (newCmd_madeBy_raise hu kind 0 todo remote) hP
  exact ⟨t, hrun, hpc, hcount, hregs, hmem, hqueued⟩

theorem implicitFence_local (s : State) (cmd : Nat) : s.implicitFence 0 cmd = s := if_pos (by decide)

/-! ## Row operations (R211) -/

/-- A base that a row operation does not take. -/
def rowBad (x : DWord) : Prop := x.toNat % 1024 ≠ 0 ∨ rowWindow x = false

/-- The work of a row operation: ROWCPY where there is a source, else ROWZERO. -/
def rowKind (src : Option DWord) (ls ld : List Nat) (dst : DWord) : CmdKind :=
  match src with
  | some a => .rowcpy ls ld a dst
  | none => .rowzero ld dst

section
variable {dst : DWord} {src : Option DWord} {len : Nat} {ls ld : List Nat}

theorem exec_rowcpy (s : State) (h : Hdr) (k : Nat) (d a c : Opd) : exec (.rowcpy h k d a c) s =
    run (.rowcpy h k d a c) h
      (fun t act => if act = 0 then .ok t else rowIssue t k (t.readUni d 2) (some (t.readUni a 2)) (t.readUni c 1).toNat) s := rfl

theorem exec_rowzero (s : State) (h : Hdr) (k : Nat) (d c : Opd) : exec (.rowzero h k d c) s =
    run (.rowzero h k d c) h
      (fun t act => if act = 0 then .ok t else rowIssue t k (t.readUni d 2) none (t.readUni c 1).toNat) s := rfl

theorem exec_rowIssue {d a c : Opd}
    (hi : i = .rowcpy h k d a c ∧ src = some ((s.opened i h).readUni a 2) ∨ i = .rowzero h k d c ∧ src = none) (hact : lanesOn i h s ≠ 0) :
    ∃ eff, exec i s = run i h eff s ∧ eff (s.opened i h) (lanesOn i h s) =
      rowIssue (s.opened i h) k ((s.opened i h).readUni d 2) src ((s.opened i h).readUni c 1).toNat := by
  obtain ⟨rfl, rfl⟩ | ⟨rfl, rfl⟩ := hi
  · exact ⟨_, exec_rowcpy .., if_neg hact⟩
  · exact ⟨_, exec_rowzero .., if_neg hact⟩

theorem rowBad_iff (x : DWord) : (decide (x.toNat % 1024 ≠ 0) || !rowWindow x) = true ↔ rowBad x := by
  simp [rowBad]

theorem rowIssue_bad (hbad : len % 1024 ≠ 0 ∨ len = 0 ∨ 2 ^ 31 < len ∨ rowBad dst ∨ ∃ x, src = some x ∧ rowBad x) :
    rowIssue s k dst src len = .trap 0x0EC 0 := by
  refine if_pos ?_
  rw [rowBad_iff]
  obtain hlen | hzero | hlong | hdst | ⟨x, rfl, hx⟩ := hbad
  · exact .inl hlen
  · exact .inr (.inl hzero)
  · exact .inr (.inr (.inl hlong))
  · exact .inr (.inr (.inr (.inl hdst)))
  · exact .inr (.inr (.inr (.inr ((rowBad_iff x).mpr hx))))

/-- What the checks on the bases and the length let through (R211). -/
def rowFits (s : State) (dst : DWord) (src : Option DWord) (len : Nat) (ls ld : List Nat) : Prop :=
  len % 1024 = 0 ∧ len ≠ 0 ∧ len ≤ 2 ^ 31 ∧ ¬ rowBad dst ∧
    (∀ x, src = some x → ¬ rowBad x ∧ rowRange s 0 x (len / 256) = .ok ls) ∧ rowRange s 1 dst (len / 256) = .ok ld

theorem rowFits.pass (hfits : rowFits s dst src len ls ld) :
    ¬ (len % 1024 ≠ 0 ∨ len = 0 ∨ 2 ^ 31 < len ∨ (decide (dst.toNat % 1024 ≠ 0) || !rowWindow dst) = true ∨
      (src.map (fun x => decide (x.toNat % 1024 ≠ 0) || !rowWindow x)).getD false = true) := by
  obtain ⟨hmul, hpos, hmax, hdst, hsrc, _⟩ := hfits
  rw [rowBad_iff]
  rintro (hlen | hzero | hlong | hdst' | hsrc')
  · exact hlen hmul
  · exact hpos hzero
  · omega
  · exact hdst hdst'
  · cases src with
    | none => cases hsrc'
    | some x => exact (hsrc x rfl).1 ((rowBad_iff x).mp hsrc')

theorem rowIssue_overlap {a : DWord} (hfits : rowFits s dst (some a) len ls ld) (hoverlap : ls.any (fun l => ld.contains l) = true) :
    rowIssue s k dst (some a) len = .trap 0x0ED 0 := by
  obtain ⟨_, _, _, _, hsrc, hld⟩ := id hfits
  unfold rowIssue
  rw [if_neg hfits.pass, hld]
  extract_lets from_
  have hfrom : from_ = .ok ls := (hsrc a rfl).2
  clear_value from_
  subst hfrom
  exact if_pos hoverlap

/-- The lines that a row operation reads. -/
def rowReads (src : Option DWord) (ls : List Nat) : List Nat := if src.isSome then ls else []

theorem rowIssue_ok (hfits : rowFits s dst src len ls ld) (hroom : roomK s k len)
    (hapart : (rowReads src ls).any (fun l => ld.contains l) = false) :
    rowIssue s k dst src len =
      .ok ((s.raise k len).addCmd (newCmd (s.raise k len) (rowKind src ls ld dst) k 0 (List.range (len / 1024)) false)) := by
  obtain ⟨_, _, _, _, hsrc, hld⟩ := id hfits
  unfold rowIssue
  rw [if_neg hfits.pass, hld, countUp_of_roomK hroom]
  extract_lets from_
  have hfrom : from_ = .ok (rowReads src ls) := by
    cases src with
    | none => rfl
    | some x => exact (hsrc x rfl).2
  clear_value from_
  subst hfrom
  refine (if_neg (Bool.eq_false_iff.mp hapart)).trans ?_
  cases src <;> rfl

end

/-! ## RANK (R213) -/

theorem exec_rank (s : State) (h : Hdr) (kind : RankKind) (n k : Nat) (d a b : Opd) : exec (.rank h kind n k d a b) s =
    run (.rank h kind n k d a b) h
      (fun t act => if act = 0 then .ok t else rankIssue t kind.code n k (t.readUni d 2) (t.readUni a 2) (t.readUni b 2)) s := rfl

theorem rankIssue_ok {kind : Nat} {out base rec : DWord} {r : List Byte} {x y : Nat} (hread : readRecord s rec = .ok (r, u))
    (hrecord : rankRecordOk kind r = true) (hwindow : rowWindow base = true) (hpattern : patternCheck u 0 (layOf r) base = .ok x)
    (hhbm : ∀ j < (layOf r).e 1, ∀ m < (layOf r).e 0 * ((layOf r).width / 8),
      notHbm u (base + BitVec.ofInt 64 (j * (layOf r).st 1 + m)) = false)
    (hsize : 8 * n * (layOf r).e 1 ≤ 2 ^ 31) (hspan : spanCheck u 1 8 out (8 * n * (layOf r).e 1) = .ok y)
    (hroom : roomK u k (8 * n * (layOf r).e 1)) :
    rankIssue s kind n k out base rec = .ok (((u.raise k (8 * n * (layOf r).e 1)).addCmd
      (newCmd (u.raise k (8 * n * (layOf r).e 1)) (.rank kind n r base out) k 0 (List.range ((layOf r).e 1)) (decide (y ≠ 0)))).implicitFence y
        u.eng.nextId) := by
  have hany : (List.range ((layOf r).e 1)).any (fun (i : Nat) => (List.range ((layOf r).e 0 * ((layOf r).width / 8))).any (fun (j : Nat) =>
      notHbm u (base + BitVec.ofInt 64 (i * (layOf r).st 1 + j)))) = false := by
    simpa [List.any_eq_false] using hhbm
  have hup := countUp_of_roomK hroom
  rw [rankIssue, hread]
  change (if (!rankRecordOk kind r) = true then _ else _) = _
  rw [hrecord, if_neg (by decide), hwindow, if_neg (by decide), hpattern]
  change (if _ = true then _ else _) = _
  rw [hany, if_neg (by decide), if_neg (Nat.not_lt.mpr hsize), hspan, hup]
  rfl

/-! ## TGEN (R215) -/

theorem exec_tgen (s : State) (h : Hdr) (m k : Nat) (d a b c : Opd) : exec (.tgen h m k d a b c) s =
    run (.tgen h m k d a b c) h (fun u act => if act = 0 then .ok u
      else tgenIssue u m k (u.readUni d 2) (u.readUni a 2) (u.readUni b 2) ((u.readUni c 2).toNat % 2 ^ 32) ((u.readUni c 2).toNat / 2 ^ 32)) s := rfl

theorem tgenIssue_ok {m cap x y z : Nat} {tab counts list : DWord} (hpos : 0 < n) (hmax : n ≤ 4096)
    (hcounts : spanCheck s 0 4 counts (4 * n) = .ok x) (htab : spanCheck s 1 4 tab (16 + 16 * n) = .ok y)
    (hlist : spanCheck s 1 8 list (8 * cap) = .ok z) (hroom : roomK s k 64) :
    tgenIssue s m k tab counts list n cap = .ok (((s.raise k 64).addCmd
      (newCmd (s.raise k 64) (.tgen m n cap counts tab list) k 0 [0] (decide (max x (max y z) ≠ 0)))).implicitFence (max x (max y z))
        s.eng.nextId) := by
  have hup := countUp_of_roomK hroom
  rw [tgenIssue, if_neg (by omega), hcounts, htab, hlist, hup]
  rfl

end Sys2Proof.Machine
end

section
/-! The clauses of O47 about row operations, RANK and TGEN. -/
namespace Sys2Proof.Machine

variable {s u : State} {i : Instr} {h : Hdr} {k n : Nat}

section
variable {src : Option DWord} {ls ld : List Nat} {d a c : Opd}

/-- A row operation with a base or a length that R211 does not take. -/
theorem exec_rowIssue_bad (hi : i = .rowcpy h k d a c ∧ src = some ((s.opened i h).readUni a 2) ∨ i = .rowzero h k d c ∧ src = none)
    (hclears : clears i h s) (hact : lanesOn i h s ≠ 0)
    (hbad : ((s.opened i h).readUni c 1).toNat % 1024 ≠ 0 ∨ ((s.opened i h).readUni c 1).toNat = 0 ∨
      2 ^ 31 < ((s.opened i h).readUni c 1).toNat ∨ rowBad ((s.opened i h).readUni d 2) ∨ ∃ x, src = some x ∧ rowBad x) :
    exec i s = .next ((s.opened i h).precise 0x0EC 0) := by
  obtain ⟨eff, hexec, heff⟩ := exec_rowIssue hi hact
  exact exec_precise hexec hclears (heff.trans (rowIssue_bad hbad)) (by decide)

/-- ROWCPY whose ranges overlap. -/
theorem exec_rowIssue_overlap (hi : i = .rowcpy h k d a c ∧ src = some ((s.opened i h).readUni a 2) ∨ i = .rowzero h k d c ∧ src = none)
    (hclears : clears i h s) (hact : lanesOn i h s ≠ 0)
    (hfits : rowFits (s.opened i h) ((s.opened i h).readUni d 2) src ((s.opened i h).readUni c 1).toNat ls ld)
    (hsrc : src.isSome = true) (hoverlap : ∃ l ∈ ls, l ∈ ld) :
    exec i s = .next ((s.opened i h).precise 0x0ED 0) := by
  obtain ⟨eff, hexec, heff⟩ := exec_rowIssue hi hact
  obtain ⟨x, rfl⟩ := Option.isSome_iff_exists.mp hsrc
  have hany : ls.any (fun l => ld.contains l) = true := by simpa using hoverlap
  exact exec_precise hexec hclears (heff.trans (rowIssue_overlap hfits hany)) (by decide)

/-- A row operation whose ranges are apart. -/
theorem exec_rowIssue_ok (hi : i = .rowcpy h k d a c ∧ src = some ((s.opened i h).readUni a 2) ∨ i = .rowzero h k d c ∧ src = none)
    (hclears : clears i h s) (hact : lanesOn i h s ≠ 0)
    (hfits : rowFits (s.opened i h) ((s.opened i h).readUni d 2) src ((s.opened i h).readUni c 1).toNat ls ld)
    (hapart : src.isSome = true → ∀ l ∈ ls, l ∉ ld) (hroom : roomK s k ((s.opened i h).readUni c 1).toNat) :
    ∃ t, exec i s = .next t ∧ t.pc = s.pc + 1 ∧ counted s t k ((s.opened i h).readUni c 1).toNat ∧ sameRegs s t ∧ t.mem = s.mem ∧
      queued s t k (fun q => q.todo = List.range (((s.opened i h).readUni c 1).toNat / 1024) ∧
        (∀ x, src = some x → q.kind = .rowcpy ls ld x ((s.opened i h).readUni d 2)) ∧
        (src = none → q.kind = .rowzero ld ((s.opened i h).readUni d 2))) := by
  obtain ⟨eff, hexec, heff⟩ := exec_rowIssue hi hact
  have hany : (rowReads src ls).any (fun l => ld.contains l) = false := by
    cases src with
    | none => rfl
    | some x => simpa [rowReads] using hapart rfl
  have hok := heff.trans (rowIssue_ok hfits hroom.opened hany)
  rw [← implicitFence_local (State.addCmd _ _) 0] at hok
  obtain ⟨t, hrun, hpc, hcount, hregs, hmem, hqueued⟩ := exec_newCmd hexec hclears (onlyHome.refl _) hroom hok
    (P := fun q => q.todo = List.range (((s.opened i h).readUni c 1).toNat / 1024) ∧
      (∀ x, src = some x → q.kind = .rowcpy ls ld x ((s.opened i h).readUni d 2)) ∧
      (src = none → q.kind = .rowzero ld ((s.opened i h).readUni d 2)))
    ⟨rfl, by rintro x rfl; rfl, by rintro rfl; rfl⟩
  exact ⟨t, hrun, hpc, hcount, hregs, hmem.trans (opened_mem s i h), hqueued⟩

end

/-- RANK that passes its checks. -/
theorem exec_rank_ok {kind : RankKind} {d a b : Opd} {r : List Byte} {x y : Nat} (hclears : clears (.rank h kind n k d a b) h s)
    (hact : lanesOn (.rank h kind n k d a b) h s ≠ 0)
    (hread : readRecord (s.opened (.rank h kind n k d a b) h) ((s.opened (.rank h kind n k d a b) h).readUni b 2) = .ok (r, u))
    (hrecord : rankRecordOk kind.code r = true) (hwindow : rowWindow ((s.opened (.rank h kind n k d a b) h).readUni a 2) = true)
    (hpattern : patternCheck u 0 (layOf r) ((s.opened (.rank h kind n k d a b) h).readUni a 2) = .ok x)
    (hhbm : ∀ j < (layOf r).e 1, ∀ m < (layOf r).e 0 * ((layOf r).width / 8),
      notHbm u ((s.opened (.rank h kind n k d a b) h).readUni a 2 + BitVec.ofInt 64 (j * (layOf r).st 1 + m)) = false)
    (hsize : 8 * n * (layOf r).e 1 ≤ 2 ^ 31)
    (hspan : spanCheck u 1 8 ((s.opened (.rank h kind n k d a b) h).readUni d 2) (8 * n * (layOf r).e 1) = .ok y)
    (hroom : roomK s k (8 * n * (layOf r).e 1)) :
    ∃ t, exec (.rank h kind n k d a b) s = .next t ∧ t.pc = s.pc + 1 ∧ counted s t k (8 * n * (layOf r).e 1) ∧ sameRegs s t ∧
      t.mem = u.mem ∧ queued s t k (fun c => c.kind = .rank kind.code n r ((s.opened (.rank h kind n k d a b) h).readUni a 2)
        ((s.opened (.rank h kind n k d a b) h).readUni d 2) ∧ c.todo = List.range ((layOf r).e 1)) := by
  have hu := onlyHome_readRecord hread
  exact exec_newCmd (exec_rank ..) hclears hu hroom
    ((if_neg hact).trans (rankIssue_ok hread hrecord hwindow hpattern hhbm hsize hspan (hroom.opened.onlyHome hu))) ⟨rfl, rfl⟩

section
variable {m : Nat} {d a b c : Opd}

theorem tgenIssue_bad {tab counts list : DWord} {cap : Nat} (hn : n = 0 ∨ 4096 < n) : tgenIssue s m k tab counts list n cap = .trap 0x0EF 0 :=
  if_pos hn

/-- TGEN for no expert, or for more than 4,096. -/
theorem exec_tgen_bad (hclears : clears (.tgen h m k d a b c) h s) (hact : lanesOn (.tgen h m k d a b c) h s ≠ 0)
    (hn : ((s.opened (.tgen h m k d a b c) h).readUni c 2).toNat % 2 ^ 32 = 0 ∨
      4096 < ((s.opened (.tgen h m k d a b c) h).readUni c 2).toNat % 2 ^ 32) :
    exec (.tgen h m k d a b c) s = .next ((s.opened (.tgen h m k d a b c) h).precise 0x0EF 0) :=
  exec_precise (exec_tgen ..) hclears ((if_neg hact).trans (tgenIssue_bad hn)) (by decide)

/-- TGEN that passes its checks. -/
theorem exec_tgen_ok {x y z cap : Nat} (hclears : clears (.tgen h m k d a b c) h s) (hact : lanesOn (.tgen h m k d a b c) h s ≠ 0)
    (hn : ((s.opened (.tgen h m k d a b c) h).readUni c 2).toNat % 2 ^ 32 = n)
    (hcap : ((s.opened (.tgen h m k d a b c) h).readUni c 2).toNat / 2 ^ 32 = cap) (hpos : 0 < n) (hmax : n ≤ 4096)
    (hcounts : spanCheck (s.opened (.tgen h m k d a b c) h) 0 4 ((s.opened (.tgen h m k d a b c) h).readUni a 2) (4 * n) = .ok x)
    (htab : spanCheck (s.opened (.tgen h m k d a b c) h) 1 4 ((s.opened (.tgen h m k d a b c) h).readUni d 2) (16 + 16 * n) = .ok y)
    (hlist : spanCheck (s.opened (.tgen h m k d a b c) h) 1 8 ((s.opened (.tgen h m k d a b c) h).readUni b 2) (8 * cap) = .ok z)
    (hroom : roomK s k 64) :
    ∃ t, exec (.tgen h m k d a b c) s = .next t ∧ t.pc = s.pc + 1 ∧ counted s t k 64 ∧ sameRegs s t ∧ t.mem = s.mem ∧
      queued s t k (fun q => q.kind = .tgen m n cap ((s.opened (.tgen h m k d a b c) h).readUni a 2)
        ((s.opened (.tgen h m k d a b c) h).readUni d 2) ((s.opened (.tgen h m k d a b c) h).readUni b 2)) := by
  subst hn hcap
  obtain ⟨t, hrun, hpc, hcount, hregs, hmem, hqueued⟩ := exec_newCmd (exec_tgen ..) hclears (onlyHome.refl _) hroom
    ((if_neg hact).trans (tgenIssue_ok hpos hmax hcounts htab hlist hroom.opened)) 
    (P := fun q => q.kind = .tgen m _ _ ((s.opened (.tgen h m k d a b c) h).readUni a 2) ((s.opened (.tgen h m k d a b c) h).readUni d 2)
      ((s.opened (.tgen h m k d a b c) h).readUni b 2)) rfl
  exact ⟨t, hrun, hpc, hcount, hregs, hmem.trans (opened_mem ..), hqueued⟩

end

end Sys2Proof.Machine
end

section
/-! COPY, COPYG and COPYM at issue (R200 to R209). -/
namespace Sys2Proof.Machine

variable {s t u : State} {i : Instr} {h : Hdr} {k n : Nat}

/-! ## The command of a copy -/

section
variable (s : State) (scatter copyg : Bool) (slot : Option (Nat × Nat × Nat)) (remote : Bool) (r : List Byte) (base : DWord) (cont : ContSide)
  (granule hint k : Nat)

/-- The blocks of a copy that this workgroup moves: those of its place in the gang for a COPYG (R208). -/
def State.copyBlocks : List Nat :=
  if copyg then (List.range (layOf r).blocks).filter (fun j => j % s.wg.gangSize == s.gangpos) else List.range (layOf r).blocks

/-- The command that a received copy leaves with the bellows (R201, R208, R217). -/
def State.copyCmd : Cmd :=
  { newCmd s (.copy scatter r base cont granule) k hint (s.copyBlocks copyg r) remote with
    slotSeq := if slot.isSome then s.eng.nextSeq else 0, copyg := if copyg then some s.wg.copygs else none }

theorem copyCmd_madeBy : (s.copyCmd scatter copyg slot remote r base cont granule hint k).madeBy s k := ⟨rfl, rfl, rfl, rfl, rfl⟩

theorem receiveCopy_cmds : (s.receiveCopy scatter copyg slot remote r base cont granule hint k).eng.cmds =
    s.eng.cmds ++ [s.copyCmd scatter copyg slot remote r base cont granule hint k] := by
  cases slot <;> cases copyg <;> rfl

theorem receiveCopy_cur : (s.receiveCopy scatter copyg slot remote r base cont granule hint k).cur = s.cur := by
  cases slot <;> cases copyg <;> rfl

theorem receiveCopy_warps : (s.receiveCopy scatter copyg slot remote r base cont granule hint k).warps = s.warps := by
  cases slot <;> cases copyg <;> rfl

theorem receiveCopy_mem : (s.receiveCopy scatter copyg slot remote r base cont granule hint k).mem = s.mem := by
  cases slot <;> cases copyg <;> rfl

theorem receiveCopy_anvil : (s.receiveCopy scatter copyg slot remote r base cont granule hint k).eng.anvil = s.eng.anvil := by
  cases slot <;> cases copyg <;> rfl

theorem receiveCopy_key : (s.receiveCopy scatter copyg slot remote r base cont granule hint k).wg.key = s.wg.key := by
  cases slot <;> cases copyg <;> rfl

theorem receiveCopy_fs : (s.receiveCopy scatter copyg slot remote r base cont granule hint k).wg.fs = s.wg.fs := by
  cases slot <;> cases copyg <;> rfl

end

/-! ## The issue -/

section
variable {act : Mask} {scatter copyg fol : Bool} {sg : Sg} {hint : Nat} {dst a b : DWord} {slot : Option (Nat × Bool × Nat)} {r : List Byte}
  {remote : Nat}

/-- The slot of a copy, with its first byte and the byte after its last (R217). -/
def copyBytes (slot : Option (Nat × Bool × Nat)) (n : Nat) : Option (Nat × Nat × Nat) :=
  slot.map (fun x => (x.1, (if x.2.1 then 16384 else 0) + 128 * x.2.2, (if x.2.1 then 16384 else 0) + 128 * x.2.2 + n))

theorem copyIssue_apart (hconv : s.converged act = false) : copyIssue s act scatter copyg fol sg hint k dst slot a b = .trap 0x0E1 0 := by
  unfold copyIssue
  rw [hconv]
  rfl

/-- A copy whose checks pass, on a core with room (R201). -/
theorem copyIssue_ok (hconv : s.converged act = true) (hfence : s.mgmt.fencedBellows.getLsbD s.cur.id.core = false)
    (hcheck : copyCheck s scatter copyg dst (slot.map (fun x => (if x.2.1 then 4096 else 16384, 128 * x.2.2))) a b = .ok (r, remote, u))
    (hroom : roomK u k (layOf r).bytes) (hcount : s.copyCount s.cur.id.core < 64) :
    ∃ cont granule, copyIssue s act scatter copyg false sg hint k dst slot a b =
      .ok (((u.raise k (layOf r).bytes).receiveCopy scatter copyg (copyBytes slot (layOf r).bytes) (decide (remote ≠ 0)) r
        (if scatter then dst else a) cont granule hint k).implicitFence remote u.eng.nextId) := by
  unfold copyIssue
  extract_lets granule area cont
  rw [hconv, hfence, hcheck]
  refine ⟨cont, granule, (if_neg (by decide)).trans ((if_neg (by decide)).trans ?_)⟩
  refine (if_pos rfl).trans ((if_neg (Nat.not_le.mpr hcount)).trans ?_)
  rw [countUp_of_roomK hroom]
  rfl

end
end Sys2Proof.Machine
end

section
/-! The clauses of O47 about COPY, COPYG and COPYM (R200 to R209). -/
namespace Sys2Proof.Machine

variable {s t u : State} {i : Instr} {h : Hdr} {k n : Nat}

@[simp] theorem opened_copyCount (s : State) (i : Instr) (h : Hdr) (c : Nat) : (s.opened i h).copyCount c = s.copyCount c := by
  simp [State.copyCount, State.isSaved]

/-! ## A copy alone -/

section
variable {scatter copyg : Bool} {sg : Sg} {hint : Nat} {d a b : Opd} {slot : Option (Nat × Bool × Nat)}

/-- The four forms of a copy without a follow-on issue alike. -/
theorem exec_copy
    (hi : i = .copy h scatter sg hint k d a b ∧ copyg = false ∧ slot = none ∨
      i = .copyg h sg hint k d a b ∧ scatter = false ∧ copyg = true ∧ slot = none ∨
      (∃ o side off, i = .copygSlot h o side sg hint k off a b ∧ scatter = false ∧ copyg = true ∧ slot = some (o, side, off)) ∨
      (∃ o side off, i = .copym h o side false sg hint k off a b ∧ scatter = false ∧ copyg = false ∧ slot = some (o, side, off))) :
    ∃ eff, exec i s = run i h eff s ∧ eff (s.opened i h) (lanesOn i h s) =
      copyIssue (s.opened i h) (lanesOn i h s) scatter copyg false sg hint k (if slot.isSome then 0 else (s.opened i h).readUni d 2) slot
        ((s.opened i h).readUni a 2) ((s.opened i h).readUni b 2) := by
  obtain ⟨rfl, rfl, rfl⟩ | ⟨rfl, rfl, rfl, rfl⟩ | ⟨o, side, off, rfl, rfl, rfl, rfl⟩ | ⟨o, side, off, rfl, rfl, rfl, rfl⟩ := hi
  · exact ⟨fun t act => copyIssue t act scatter false false sg hint k (t.readUni d 2) none (t.readUni a 2) (t.readUni b 2), rfl, rfl⟩
  · exact ⟨fun t act => copyIssue t act false true false sg hint k (t.readUni d 2) none (t.readUni a 2) (t.readUni b 2), rfl, rfl⟩
  · exact ⟨fun t act => copyIssue t act false true false sg hint k 0 (some (o, side, off)) (t.readUni a 2) (t.readUni b 2), rfl, rfl⟩
  · exact ⟨fun t act => copyIssue t act false false false sg hint k 0 (some (o, side, off)) (t.readUni a 2) (t.readUni b 2), rfl, rfl⟩

/-- What is known of the command that a copy queues (R201, R208). -/
def Cmd.copies (c : Cmd) (scatter copyg : Bool) (r : List Byte) (base : DWord) (hint remote : Nat) : Prop :=
  ∃ base' cont g, c.kind = .copy scatter r base' cont g ∧ base' = base ∧ c.hint = hint ∧ c.remote = decide (remote ≠ 0) ∧ c.follow = none ∧
    c.copyg.isSome = copyg ∧ (copyg = false → c.todo = List.range (layOf r).blocks)

theorem copyCmd_copies (s : State) (scatter copyg : Bool) (slot : Option (Nat × Nat × Nat)) (remote : Nat) (r : List Byte) (base : DWord)
    (cont : ContSide) (granule hint k : Nat) :
    (s.copyCmd scatter copyg slot (decide (remote ≠ 0)) r base cont granule hint k).copies scatter copyg r base hint remote := by
  refine ⟨base, cont, granule, rfl, rfl, rfl, rfl, rfl, ?_, ?_⟩
  · cases copyg <;> rfl
  · rintro rfl
    rfl

/-- An instruction whose effect is that of a copy with room (R200, R201). -/
theorem exec_copyIssue_ok {eff : State → Mask → Eff} {dst x y : DWord} {r : List Byte} {remote : Nat} (hexec : exec i s = run i h eff s)
    (heff : eff (s.opened i h) (lanesOn i h s) = copyIssue (s.opened i h) (lanesOn i h s) scatter copyg false sg hint k dst slot x y)
    (hclears : clears i h s) (hconv : s.converged (lanesOn i h s) = true) (hfence : s.mgmt.fencedBellows.getLsbD s.cur.id.core = false)
    (hcheck : copyCheck (s.opened i h) scatter copyg dst (slot.map (fun x => (if x.2.1 then 4096 else 16384, 128 * x.2.2))) x y =
      .ok (r, remote, u))
    (hroom : roomK s k (layOf r).bytes) (hcount : s.copyCount s.cur.id.core < 64) :
    ∃ t, exec i s = .next t ∧ t.pc = s.pc + 1 ∧ counted s t k (layOf r).bytes ∧ sameRegs s t ∧ t.mem = u.mem ∧
      queued s t k (fun c => c.copies scatter copyg r (if scatter then dst else x) hint remote) := by
  have hu := onlyHome_readRecord (copyCheck_ok hcheck).1
  obtain ⟨cont, granule, hissue⟩ := copyIssue_ok (sg := sg) (hint := hint) ((opened_converged ..).trans hconv) (by simpa using hfence) hcheck
    (hroom.opened.onlyHome hu) (by simpa using hcount)
  have hcounts : countsOn (s.opened i h) ((u.raise k (layOf r).bytes).receiveCopy scatter copyg (copyBytes slot (layOf r).bytes)
      (decide (remote ≠ 0)) r (if scatter then dst else x) cont granule hint k) k (layOf r).bytes :=
    (countsOn_raise_of_onlyHome hu k _).congr (receiveCopy_cur ..) (receiveCopy_warps ..)
  have hcmds := receiveCopy_cmds (u.raise k (layOf r).bytes) scatter copyg (copyBytes slot (layOf r).bytes) (decide (remote ≠ 0)) r
    (if scatter then dst else x) cont granule hint k
  have hmem := receiveCopy_mem (u.raise k (layOf r).bytes) scatter copyg (copyBytes slot (layOf r).bytes) (decide (remote ≠ 0)) r
    (if scatter then dst else x) cont granule hint k
  generalize State.receiveCopy _ _ _ _ _ _ _ _ _ _ _ = v at hissue hcounts hcmds hmem
  have hcounts' := hcounts.implicitFence remote u.eng.nextId
  obtain ⟨f, hf⟩ := implicitFence_eq v remote u.eng.nextId
  rw [hf] at hissue hcounts'
  obtain ⟨t, hrun, hpc, hcount', hregs, hmem', hqueued⟩ := exec_queues
    (P := fun c => c.copies scatter copyg r (if scatter then dst else x) hint remote) hexec hclears hroom.1 (heff.trans hissue) hcounts'
    (hcmds.trans (by rw [raise_eng, hu.eng]))
    ((copyCmd_madeBy ..).congr (by rw [raise_id, hu.cur]) (by rw [raise_wg, hu.wg]) (by rw [raise_pc, hu.pc]))
    (copyCmd_copies ..)
  exact ⟨t, hrun, hpc, hcount', hregs, hmem'.trans hmem, hqueued⟩

end

/-! ## COPYM with a follow-on (R209) -/

/-- The state in which the count register that a follow-on names, if any, has risen by its 64. -/
def State.raiseFollow (s : State) (k2 : Option Nat) : State :=
  match k2 with
  | some k2 => s.raise k2 64
  | none => s

/-- What a COPYM and its follow-on add to a count register. -/
def followBytes (k n : Nat) (k2 : Option Nat) (j : Nat) : Nat := (if j = k then n else 0) + (if k2 = some j then 64 else 0)

theorem raiseFollow_eng (s : State) (k2 : Option Nat) : (s.raiseFollow k2).eng = s.eng := by cases k2 <;> rfl
theorem raiseFollow_wg (s : State) (k2 : Option Nat) : (s.raiseFollow k2).wg = s.wg := by cases k2 <;> rfl
theorem raiseFollow_warps (s : State) (k2 : Option Nat) : (s.raiseFollow k2).warps = s.warps := by cases k2 <;> rfl

/-- Only the count registers rise. -/
theorem raiseFollow_cur (s : State) (k2 : Option Nat) : (s.raiseFollow k2).cur = { s.cur with k := (s.raiseFollow k2).cur.k } := by
  cases k2 <;> rfl

theorem getD_raiseFollow (hk : k < 16) {k2 : Option Nat} (hk2 : ∀ j, k2 = some j → j < 16) (j : Nat) :
    ((s.raise k n).raiseFollow k2).cur.k.getD j 0 = s.cur.k.getD j 0 + BitVec.ofNat 32 (followBytes k n k2 j) := by
  have hfirst : (s.raise k n).cur.k.getD j 0 = s.cur.k.getD j 0 + BitVec.ofNat 32 (if j = k then n else 0) := by
    rw [getD_raise hk j]
    split
    · rfl
    · exact (BitVec.add_zero _).symm
  rw [followBytes, BitVec.ofNat_add, ← BitVec.add_assoc, ← hfirst]
  cases k2 with
  | none => exact (BitVec.add_zero _).symm
  | some m =>
    rw [State.raiseFollow, getD_raise (hk2 m rfl) j]
    by_cases hjm : j = m
    · simp [hjm]
    · simp [hjm, Ne.symm hjm]

/-- Both counts fit when each register has room for what it is to hold (R42). -/
theorem roomK_follow {k2 : Option Nat} (hk : k < 16) (hn : n ≠ 0)
    (hroom : ∀ j, followBytes k n k2 j ≠ 0 → roomK s j (followBytes k n k2 j)) :
    roomK s k n ∧ ∀ j, k2 = some j → roomK (s.raise k n) j 64 := by
  have hself : followBytes k n k2 k = n + if k2 = some k then 64 else 0 := by simp [followBytes]
  have hroomk := (hroom k (by omega)).2
  refine ⟨⟨hk, by omega⟩, fun j hj => ?_⟩
  have hmore : followBytes k n k2 j = (if j = k then n else 0) + 64 := by simp [followBytes, hj]
  obtain ⟨hj16, hsum⟩ := hroom j (by omega)
  refine ⟨hj16, ?_⟩
  rw [getD_raise hk j]
  rw [hmore] at hsum
  split
  · next hjk =>
    rw [if_pos hjk] at hsum
    rw [BitVec.toNat_add, BitVec.toNat_ofNat]
    omega
  · next hjk =>
    rw [if_neg hjk] at hsum
    omega

end Sys2Proof.Machine
end

section
/-! COPYM with a follow-on: the copy and its MMA are received together, and the path goes on two slots further (R209). -/
namespace Sys2Proof.Machine

variable {s t u : State} {i : Instr} {h : Hdr} {k n : Nat}

/-! ## The follow-on received -/

theorem receiveFollow_cmds (s : State) (id : Nat) (f : Follow) : (s.receiveFollow id f).eng.cmds =
    s.eng.cmds.map (fun c => if c.id = id then { c with follow := some s.eng.nextId } else c) := rfl

theorem receiveFollow_cur (s : State) (id : Nat) (f : Follow) : (s.receiveFollow id f).cur = s.cur := rfl

theorem receiveFollow_warps (s : State) (id : Nat) (f : Follow) : (s.receiveFollow id f).warps = s.warps := rfl

theorem receiveFollow_enqueued (s : State) (id : Nat) (f : Follow) :
    enqueued s (s.receiveFollow id f) f.t (.mma (s.wg.fs.getD f.fs 0) f.z f.sparse f.sg f.oa f.ob f.om f.k) true :=
  ⟨_, rfl, rfl, rfl, rfl, rfl, rfl, rfl, rfl⟩

theorem enqueued.congr {tile : Nat} {op : AOp} {waits : Bool} {v : State} (hq : enqueued t u tile op waits) (hanvil : t.eng.anvil = s.eng.anvil)
    (hid : t.cur.id = s.cur.id) (hkey : t.wg.key = s.wg.key) (hv : v.eng = u.eng) : enqueued s v tile op waits := by
  rwa [enqueued, hv, ← hanvil, ← hid, ← hkey]

/-! ## The issue -/

/-- The state after a COPYM and its follow-on have been received (R209). -/
def State.receiveBoth (s : State) (slot : Option (Nat × Nat × Nat)) (remote : Bool) (r : List Byte) (base : DWord) (cont : ContSide)
    (granule hint k : Nat) (f : Follow) : State :=
  (s.receiveCopy false false slot remote r base cont granule hint k).receiveFollow s.eng.nextId f

/-- The count register of a follow-on rises, where it names one. -/
theorem countUp_raiseFollow {k2 : Option Nat} (e : Eff) (g : State → Eff) (hroom : ∀ j, k2 = some j → roomK s j 64) :
    (match (match k2 with
      | some j => s.countUp j 64
      | none => some s) with
    | none => e
    | some t => g t) = g (s.raiseFollow k2) := by
  have hinner : (match (generalizing := false) k2 with
      | some j => s.countUp j 64
      | none => some s) = some (s.raiseFollow k2) := by
    cases k2 with
    | none => rfl
    | some j => exact countUp_of_roomK (hroom j rfl)
  rw [hinner]

section
variable {act : Mask} {sg : Sg} {hint : Nat} {a b : DWord} {slot : Option (Nat × Bool × Nat)} {r : List Byte} {remote : Nat} {f : Follow}

/-- A COPYM whose checks and whose follow-on's pass, on a core with room. -/
theorem copyIssue_follow (hconv : s.converged act = true) (hfence : s.mgmt.fencedBellows.getLsbD s.cur.id.core = false)
    (hcheck : copyCheck s false false 0 (slot.map (fun x => (if x.2.1 then 4096 else 16384, 128 * x.2.2))) a b = .ok (r, remote, u))
    (hfollow : followCheck s = .ok f) (hroom : roomK u k (layOf r).bytes)
    (hroom2 : ∀ j, f.k = some j → roomK (u.raise k (layOf r).bytes) j 64) (hcount : s.copyCount s.cur.id.core < 64) :
    ∃ cont granule, copyIssue s act false false true sg hint k 0 slot a b =
      .moved (((((u.raise k (layOf r).bytes).raiseFollow f.k).receiveBoth (copyBytes slot (layOf r).bytes) (decide (remote ≠ 0)) r a cont
        granule hint k f).implicitFence remote ((u.raise k (layOf r).bytes).raiseFollow f.k).eng.nextId).advance.advance) := by
  unfold copyIssue
  extract_lets granule area cont
  rw [hconv, hfence, hcheck, hfollow]
  refine ⟨cont, granule, (if_neg (by decide)).trans ((if_neg (by decide)).trans ?_)⟩
  refine (if_neg (by decide)).trans ((if_neg (Nat.not_le.mpr hcount)).trans ?_)
  rw [countUp_of_roomK hroom]
  exact countUp_raiseFollow _ _ hroom2

end

/-! ## What the issue leaves -/

/-- Going on two slots further keeps the registers. -/
theorem sameRegs_skipped {pt : Bool} {pid : Nat} (hcur : ∃ ks f, t.cur = { u.cur with k := ks, fence := f }) (hu : sameRegs s u)
    (hwarps : t.warps = u.warps) : sameRegs s (t.advance.advance.issued h pt pid) := by
  obtain ⟨ks, f, hcur⟩ := hcur
  obtain ⟨hv, hs, hp, hports, hem, hexited, hwarps'⟩ := hu
  have hem' : t.cur.em = u.cur.em := by rw [hcur]; rfl
  exact ⟨by simpa [State.issued, hcur] using hv, by simpa [State.issued, hcur] using hs, by simpa [State.issued, hcur] using hp,
    by simpa [State.issued, hcur] using hports, by simpa [State.issued, Warp.em] using hem'.trans hem,
    by simpa [State.issued, hcur] using hexited, hwarps.trans hwarps'⟩

theorem skipped_pc (t : State) (h : Hdr) (pt : Bool) (pid : Nat) : (t.advance.advance.issued h pt pid).pc = t.pc + 2 := by
  rw [issued_pc, State.pc, State.advance_cur, State.advance_cur, Warp.modPath_path, Warp.modPath_path, State.pc]
  exact BitVec.add_assoc _ 1 1

theorem skipped_k (t : State) (h : Hdr) (pt : Bool) (pid : Nat) : (t.advance.advance.issued h pt pid).cur.k = t.cur.k := by
  simp [State.issued]

end Sys2Proof.Machine
end

section
/-! The clause of O47 about a COPYM with a follow-on (R209). -/
namespace Sys2Proof.Machine

variable {s t u : State} {h : Hdr} {k n : Nat}

/-! ## Both received -/

section
variable (s : State) (slot : Option (Nat × Nat × Nat)) (remote : Bool) (r : List Byte) (base : DWord) (cont : ContSide)
  (granule hint k : Nat) (f : Follow)

theorem receiveBoth_cur : (s.receiveBoth slot remote r base cont granule hint k f).cur = s.cur :=
  (receiveFollow_cur _ _ f).trans (receiveCopy_cur ..)

theorem receiveBoth_warps : (s.receiveBoth slot remote r base cont granule hint k f).warps = s.warps :=
  (receiveFollow_warps _ _ f).trans (receiveCopy_warps ..)

theorem receiveBoth_enqueued :
    enqueued s (s.receiveBoth slot remote r base cont granule hint k f) f.t
      (.mma (s.wg.fs.getD f.fs 0) f.z f.sparse f.sg f.oa f.ob f.om f.k) true := by
  have hq := receiveFollow_enqueued (s.receiveCopy false false slot remote r base cont granule hint k) s.eng.nextId f
  rw [receiveCopy_fs] at hq
  exact hq.congr (receiveCopy_anvil ..) (congrArg Warp.id (receiveCopy_cur ..)) (receiveCopy_key ..) rfl

/-- The copy goes last among the commands, and names its follow-on. -/
theorem receiveBoth_cmds (hids : ∀ c ∈ s.eng.cmds, c.id ≠ s.eng.nextId) :
    ∃ c, (s.receiveBoth slot remote r base cont granule hint k f).eng.cmds = s.eng.cmds ++ [c] ∧ c.madeBy s k ∧ c.follow.isSome = true := by
  refine ⟨{ s.copyCmd false false slot remote r base cont granule hint k with
    follow := some (s.receiveCopy false false slot remote r base cont granule hint k).eng.nextId }, ?_, ⟨rfl, rfl, rfl, rfl, rfl⟩, rfl⟩
  rw [State.receiveBoth, receiveFollow_cmds, receiveCopy_cmds, List.map_append]
  have hold : s.eng.cmds.map (fun c => if c.id = s.eng.nextId then
      { c with follow := some (s.receiveCopy false false slot remote r base cont granule hint k).eng.nextId } else c) = s.eng.cmds :=
    (List.map_congr_left (fun c hc => if_neg (hids c hc))).trans (List.map_id' _)
  rw [hold]
  exact congrArg (fun c => s.eng.cmds ++ [c]) (if_pos rfl)

end

/-! ## The clause -/

theorem sameRegs_opened (s : State) (i : Instr) (h : Hdr) : sameRegs s (s.opened i h) := by
  simp [sameRegs, Warp.em]

/-- A state whose warp is another's but for its count registers and its fence. -/
def countsOnly (s t : State) : Prop := (∃ ks f, t.cur = { s.cur with k := ks, fence := f }) ∧ t.warps = s.warps

theorem countsOnly_raiseFollow (hu : onlyHome s u) (k n : Nat) (k2 : Option Nat) : countsOnly s ((u.raise k n).raiseFollow k2) :=
  ⟨⟨((u.raise k n).raiseFollow k2).cur.k, s.cur.fence, by rw [raiseFollow_cur, State.raise, State.modCur_cur, hu.cur]⟩,
    (raiseFollow_warps ..).trans hu.warps⟩

theorem countsOnly.congr (ht : countsOnly s t) (hcur : u.cur = t.cur) (hwarps : u.warps = t.warps) : countsOnly s u := by
  rwa [countsOnly, hcur, hwarps]

theorem countsOnly.id (ht : countsOnly s t) : t.cur.id = s.cur.id := by
  obtain ⟨⟨_, _, hcur⟩, _⟩ := ht
  rw [hcur]

theorem countsOnly.pc (ht : countsOnly s t) : t.pc = s.pc := by
  obtain ⟨⟨_, _, hcur⟩, _⟩ := ht
  rw [State.pc, hcur]
  rfl

/-- An instruction whose effect goes on two slots further. -/
theorem exec_skips {i : Instr} {eff : State → Mask → Eff} {sc cmd : Nat} (hexec : exec i s = run i h eff s) (hclears : clears i h s)
    (heff : eff (s.opened i h) (lanesOn i h s) = .moved ((t.implicitFence sc cmd).advance.advance)) (ht : countsOnly (s.opened i h) t) :
    ∃ t', exec i s = .next t' ∧ t'.pc = s.pc + 2 ∧ t'.cur.k = t.cur.k ∧ sameRegs s t' ∧ t'.eng = t.eng := by
  obtain ⟨f, hf⟩ := implicitFence_eq t sc cmd
  rw [hf] at heff
  obtain ⟨⟨ks, f', hcur⟩, hwarps⟩ := id ht
  refine ⟨_, hexec.trans (run_moved i h eff s _ hclears.2 heff), ?_, skipped_k .., ?_, rfl⟩
  · rw [skipped_pc]
    exact congrArg (· + 2) (ht.pc.trans (opened_pc s i h))
  · exact sameRegs_skipped ⟨ks, f, by rw [State.modCur_cur, hcur]⟩ (sameRegs_opened s i h) hwarps

/-- What the path leaves behind when a COPYM and its follow-on are received. -/
theorem exec_copym_follow {o off hint : Nat} {side : Bool} {sg : Sg} {a b : Opd} {r : List Byte} {remote : Nat} {f : Follow}
    (hclears : clears (.copym h o side true sg hint k off a b) h s)
    (hconv : s.converged (lanesOn (.copym h o side true sg hint k off a b) h s) = true)
    (hfence : s.mgmt.fencedBellows.getLsbD s.cur.id.core = false)
    (hcheck : copyCheck (s.opened (.copym h o side true sg hint k off a b) h) false false 0
      (some (if side then 4096 else 16384, 128 * off)) ((s.opened (.copym h o side true sg hint k off a b) h).readUni a 2)
      ((s.opened (.copym h o side true sg hint k off a b) h).readUni b 2) = .ok (r, remote, u))
    (hfollow : followCheck (s.opened (.copym h o side true sg hint k off a b) h) = .ok f)
    (hids : ∀ c ∈ s.eng.cmds, c.id ≠ s.eng.nextId)
    (hroom : ∀ j, followBytes k (layOf r).bytes f.k j ≠ 0 → roomK s j (followBytes k (layOf r).bytes f.k j)) (hk : k < 16)
    (hcount : s.copyCount s.cur.id.core < 64) :
    ∃ t, exec (.copym h o side true sg hint k off a b) s = .next t ∧ t.pc = s.pc + 2 ∧
      (∀ j, t.cur.k.getD j 0 = s.cur.k.getD j 0 + BitVec.ofNat 32 (followBytes k (layOf r).bytes f.k j)) ∧ sameRegs s t ∧
      queued s t k (fun c => c.follow.isSome = true) ∧
      enqueued s t f.t (.mma (s.wg.fs.getD f.fs 0) f.z f.sparse f.sg f.oa f.ob f.om f.k) true := by
  have hexec : exec (.copym h o side true sg hint k off a b) s = run (.copym h o side true sg hint k off a b) h
    (fun t act => copyIssue t act false false true sg hint k 0 (some (o, side, off)) (t.readUni a 2) (t.readUni b 2)) s := rfl
  generalize Instr.copym h o side true sg hint k off a b = i at *
  obtain ⟨hread, hmoves⟩ := copyCheck_ok hcheck
  have hu := onlyHome_readRecord hread
  have hbytes : (layOf r).bytes ≠ 0 := by rw [Lay.bytes]; omega
  obtain ⟨hroom1, hroom2⟩ := roomK_follow hk hbytes hroom
  have hroom2' : ∀ j, f.k = some j → roomK (u.raise k (layOf r).bytes) j 64 := fun j hj => by
    have hj' := hroom2 j hj
    rwa [roomK, State.raise, State.modCur_cur, hu.cur, opened_k]
  obtain ⟨cont, granule, hissue⟩ := copyIssue_follow (act := lanesOn i h s) (sg := sg) (hint := hint) (slot := some (o, side, off))
    ((opened_converged ..).trans hconv) (by simpa using hfence) hcheck hfollow (hroom1.opened.onlyHome hu) hroom2' (by simpa using hcount)
  have hvk := fun j => getD_raiseFollow (s := u) (n := (layOf r).bytes) hk (fun j hj => (hroom2 j hj).1) (k2 := f.k) j
  have hv := countsOnly_raiseFollow hu k (layOf r).bytes f.k
  have hveng : ((u.raise k (layOf r).bytes).raiseFollow f.k).eng = s.eng := by
    rw [raiseFollow_eng, raise_eng, hu.eng, opened_eng]
  have hvwg : ((u.raise k (layOf r).bytes).raiseFollow f.k).wg = s.wg := by
    rw [raiseFollow_wg, raise_wg, hu.wg, opened_wg]
  rw [hu.cur, opened_k] at hvk
  generalize (u.raise k (layOf r).bytes).raiseFollow f.k = v at hissue hv hveng hvwg hvk
  obtain ⟨t, hrun, hpc, htk, hregs, hteng⟩ := exec_skips hexec hclears hissue (hv.congr (receiveBoth_cur ..) (receiveBoth_warps ..))
  obtain ⟨c, hcmds, hmade, hfol⟩ := receiveBoth_cmds v (copyBytes (some (o, side, off)) (layOf r).bytes) (decide (remote ≠ 0)) r
    ((s.opened i h).readUni a 2) cont granule hint k f (by rwa [hveng])
  have hmade' : c.madeBy s k := hmade.congr (hv.id.trans (opened_id s i h)) (congrArg Wgroup.key hvwg) (hv.pc.trans (opened_pc s i h))
  obtain ⟨hwarp, hwg, hepc, hreg, hpieces⟩ := hmade'
  have hq := receiveBoth_enqueued v (copyBytes (some (o, side, off)) (layOf r).bytes) (decide (remote ≠ 0)) r
    ((s.opened i h).readUni a 2) cont granule hint k f
  rw [hvwg] at hq
  refine ⟨t, hrun, hpc, fun j => ?_, hregs, ⟨c, by rw [hteng, hcmds, hveng], hwarp, hwg, hepc, hreg, hpieces, hfol⟩,
    hq.congr (congrArg Engines.anvil hveng) (hv.id.trans (opened_id s i h)) (congrArg Wgroup.key hvwg) hteng⟩
  rw [htk, receiveBoth_cur, hvk j]

end Sys2Proof.Machine
end

section
/-! The clauses of O47 about WAITK and KADD (R42, R204). -/
namespace Sys2Proof.Machine

variable {s t : State} {i : Instr} {h : Hdr} {k : Nat}

/-! ## WAITK -/

theorem exec_waitk (s : State) (h : Hdr) (mask : BitVec 16) : exec (.waitk h mask) s =
    run (.waitk h mask) h (fun t act =>
      if act = 0 then .ok t
      else if (List.range 16).all (fun j => !(mask.getLsbD j) || t.cur.k.getD j 0 == 0) then .ok (t.modCur (fun w => { w with hold := .none }))
      else .hold (t.modCur (fun w => { w with hold := .waitk mask }))) s := rfl

/-- Every count register that the mask names is 0. -/
theorem all_zero_iff (ks : Vector Word 16) (mask : BitVec 16) :
    (List.range 16).all (fun j => !(mask.getLsbD j) || ks.getD j 0 == 0) = true ↔ ∀ j : Fin 16, mask.getLsbD j = true → ks[j] = 0 := by
  simp only [List.all_eq_true, List.mem_range, Bool.or_eq_true, Bool.not_eq_true', beq_iff_eq]
  refine ⟨fun hall j hj => ?_, fun hall j hj => ?_⟩
  · have hzero := (hall j j.isLt).resolve_left (by rw [hj]; exact Bool.noConfusion)
    simpa [Vector.getD] using hzero
  · cases hbit : mask.getLsbD j with
    | false => exact .inl rfl
    | true => exact .inr (by simpa [Vector.getD, hj] using hall ⟨j, hj⟩ hbit)

theorem exec_waitk_zero {mask : BitVec 16} (hclears : clears (.waitk h mask) h s) (hact : lanesOn (.waitk h mask) h s ≠ 0)
    (hzero : ∀ j : Fin 16, mask.getLsbD j = true → s.cur.k[j] = 0) :
    ∃ t, exec (.waitk h mask) s = .next t ∧ onlyPend { s.stepped h with cur := { (s.stepped h).cur with hold := .none } } t := by
  refine exec_hold (exec_waitk s h mask) hclears ((if_neg hact).trans (if_pos ?_))
  rw [opened_k]
  exact (all_zero_iff _ _).mpr hzero

theorem exec_waitk_waits {mask : BitVec 16} (hclears : clears (.waitk h mask) h s) (hact : lanesOn (.waitk h mask) h s ≠ 0)
    (hcount : ∃ j : Fin 16, mask.getLsbD j = true ∧ s.cur.k[j] ≠ 0) :
    exec (.waitk h mask) s = .next { s.opened (.waitk h mask) h with cur := { (s.opened (.waitk h mask) h).cur with hold := .waitk mask } } := by
  rw [exec_waitk]
  refine run_hold _ _ _ _ _ hclears.2 ((if_neg hact).trans (if_neg ?_))
  rw [opened_k, all_zero_iff]
  obtain ⟨j, hbit, hne⟩ := hcount
  exact fun hall => hne (hall j hbit)

/-! ## KADD -/

/-- Issuing an instruction that writes the count registers. -/
theorem issue_counts (w : Warp) (ks : Vector Word 16) (q : List Pend) (sb pid n : Nat) (g : Path → Path) :
    ((({ w with k := ks, pend := q } : Warp).countSb sb).countUp pid n).modPath g =
      { (w.countSb sb).modPath g with
        k := ks, pend := (((({ w with k := ks, pend := q } : Warp).countSb sb).countUp pid n).modPath g).pend } := by
  apply Warp.ext <;> simp [Warp.modPath_base, Warp.modPath_stack, Warp.countSb_sb]

/-- Writing the count registers leaves nothing else beside the issue's own marks. -/
theorem exec_counts {eff : State → Mask → Eff} {ks : Vector Word 16} (hexec : exec i s = run i h eff s) (hclears : clears i h s)
    (heff : eff (s.opened i h) (lanesOn i h s) = .ok ((s.opened i h).modCur (fun w => { w with k := ks }))) :
    ∃ t, exec i s = .next t ∧ onlyPend { s.stepped h with cur := { (s.stepped h).cur with k := ks } } t := by
  refine ⟨_, hexec.trans (run_ok i h eff s _ hclears.2 heff), ?_⟩
  rw [opened_onlyPend s i h, onlyPend]
  generalize (s.opened i h).cur.pend = q
  apply State.ext
  case cur => exact issue_counts s.cur ks q h.sb s.cur.path.pid (countOf s.ptBit h) (fun p => { p with pc := p.pc + 1 })
  all_goals rfl

/-- A one-register operand is below 2 ^ 32. -/
theorem readUni_one_lt (s : State) (a : Opd) : (s.readUni a 1).toNat < 2 ^ 32 := by
  cases a with
  | s r => exact toNat_setWidth_word_lt (s.readS r)
  | _ => exact Nat.two_pow_pos 32

/-- A word read as unsigned and then as signed. -/
theorem toInt_setWidth_word {x : DWord} (hx : x.toNat < 2 ^ 32) :
    (x.setWidth 32).toInt = if 2 ^ 31 ≤ x.toInt then x.toInt - 2 ^ 32 else x.toInt := by
  have hlow : (x.setWidth 32).toNat = x.toNat := by rw [BitVec.toNat_setWidth, Nat.mod_eq_of_lt hx]
  have hint : x.toInt = x.toNat := BitVec.toInt_eq_toNat_of_lt (by omega)
  rw [BitVec.toInt_eq_toNat_cond, hlow, hint]
  split <;> split <;> omega

/-- The signed value that KADD adds, as the low 32 bits say it. -/
theorem exec_kadd {a : Opd} {imm : BitVec 20} {x : Int}
    (hi : i = .kadd h k a ∧ x = ((s.opened i h).readUni a 1).toInt ∨ i = .kaddImm h k imm ∧ x = imm.toInt) (hact : lanesOn i h s ≠ 0) :
    ∃ eff, exec i s = run i h eff s ∧
      eff (s.opened i h) (lanesOn i h s) = addCount (s.opened i h) k (if 2 ^ 31 ≤ x then x - 2 ^ 32 else x) := by
  obtain ⟨rfl, rfl⟩ | ⟨rfl, rfl⟩ := hi
  · refine ⟨fun t act => if act = 0 then .ok t else addCount t k ((t.readUni a 1).setWidth 32).toInt, rfl, ?_⟩
    rw [← toInt_setWidth_word (readUni_one_lt ..)]
    exact if_neg hact
  · refine ⟨fun t act => if act = 0 then .ok t else addCount t k imm.toInt, rfl, ?_⟩
    have hlt : imm.toInt < 2 ^ 19 := BitVec.toInt_lt
    rw [if_neg (show ¬ (2 : Int) ^ 31 ≤ imm.toInt by omega)]
    exact if_neg hact

theorem countAdd_fits {c : Word} {d : Int} (hfits : 0 ≤ c.toNat + d ∧ c.toNat + d ≤ 2 ^ 31 ∨ c.toNat + d = -2 ^ 31) :
    countAdd c d = some (BitVec.ofInt 32 (c.toNat + d)) :=
  if_pos (by omega)

theorem countAdd_past {c : Word} {d : Int} (hpast : c.toNat + d < 0 ∧ c.toNat + d ≠ -2 ^ 31 ∨ 2 ^ 31 < c.toNat + d) :
    countAdd c d = none :=
  if_neg (by omega)

theorem addCount_fits {d : Int} (hfits : 0 ≤ (s.cur.k.getD k 0).toNat + d ∧ (s.cur.k.getD k 0).toNat + d ≤ 2 ^ 31 ∨
      (s.cur.k.getD k 0).toNat + d = -2 ^ 31) :
    addCount s k d =
      .ok (s.modCur (fun w => { w with k := s.cur.k.setIfInBounds k (BitVec.ofInt 32 ((s.cur.k.getD k 0).toNat + d)) })) := by
  rw [addCount, countAdd_fits hfits]
  rfl

theorem addCount_past {d : Int} (hpast : (s.cur.k.getD k 0).toNat + d < 0 ∧ (s.cur.k.getD k 0).toNat + d ≠ -2 ^ 31 ∨
      2 ^ 31 < (s.cur.k.getD k 0).toNat + d) : addCount s k d = .trap 0x028 0 := by
  rw [addCount, countAdd_past hpast]

section
variable {a : Opd} {imm : BitVec 20} {x : Int}

theorem exec_kadd_fits (hi : i = .kadd h k a ∧ x = ((s.opened i h).readUni a 1).toInt ∨ i = .kaddImm h k imm ∧ x = imm.toInt)
    (hclears : clears i h s) (hact : lanesOn i h s ≠ 0) {y : Int} (hy : (s.cur.k.getD k 0).toNat + (if 2 ^ 31 ≤ x then x - 2 ^ 32 else x) = y)
    (hfits : 0 ≤ y ∧ y ≤ 2 ^ 31 ∨ y = -2 ^ 31) :
    ∃ t, exec i s = .next t ∧
      onlyPend { s.stepped h with cur := { (s.stepped h).cur with k := s.cur.k.setIfInBounds k (BitVec.ofInt 32 y) } } t := by
  obtain ⟨eff, hexec, heff⟩ := exec_kadd hi hact
  subst hy
  rw [← opened_k s i h] at hfits ⊢
  exact exec_counts hexec hclears (heff.trans (addCount_fits hfits))

theorem exec_kadd_past (hi : i = .kadd h k a ∧ x = ((s.opened i h).readUni a 1).toInt ∨ i = .kaddImm h k imm ∧ x = imm.toInt)
    (hclears : clears i h s) (hact : lanesOn i h s ≠ 0) {y : Int} (hy : (s.cur.k.getD k 0).toNat + (if 2 ^ 31 ≤ x then x - 2 ^ 32 else x) = y)
    (hpast : y < 0 ∧ y ≠ -2 ^ 31 ∨ 2 ^ 31 < y) : exec i s = .next ((s.opened i h).precise 0x028 0) := by
  obtain ⟨eff, hexec, heff⟩ := exec_kadd hi hact
  subst hy
  rw [← opened_k s i h] at hpast
  exact exec_precise hexec hclears (heff.trans (addCount_past hpast)) (by decide)

end

end Sys2Proof.Machine
end

section
/-! The clause of O47 about ROUTE (R214). -/
namespace Sys2Proof.Machine

variable {s : State} {h : Hdr} {pd r : Nat} {a b c : Opd}

/-- ROUTE keeps the candidate of a lane, from the sums and indices as they stood when it opened. -/
def routeKeep (s : State) (i : Instr) (h : Hdr) (a b c : Opd) (l : Nat) : Bool :=
  routeKeeps ((laneSrc s i h b 1 l).toNat % 2 ^ 32) ((laneSrc s i h c 1 l).toNat % 2 ^ 32) ((laneSrc s i h a 2 l).toNat % 2 ^ 32)
    ((laneSrc s i h a 2 l).toNat / 2 ^ 32)

/-- What ROUTE writes in a lane: the running sum and the index, or the sum as it was and no index. -/
def routeSum (s : State) (i : Instr) (h : Hdr) (a b c : Opd) (l : Nat) : DWord :=
  if routeKeep s i h a b c l then
    BitVec.ofNat 64 (fAdd .f32 .rn false ((laneSrc s i h b 1 l).toNat % 2 ^ 32) ((laneSrc s i h a 2 l).toNat % 2 ^ 32) +
      2 ^ 32 * ((laneSrc s i h a 2 l).toNat / 2 ^ 32))
  else BitVec.ofNat 64 ((laneSrc s i h b 1 l).toNat % 2 ^ 32 + 2 ^ 32 * 0xFFFFFFFF)

/-- ROUTE on registers writes its sums and then its outcomes. -/
theorem routeLanes_regs (s : State) (i : Instr) (act : Mask) (ha : isReg a = true) (hb : isReg b = true) (hc : isReg c = true) :
    routeLanes h pd (.v r) a b c (s.opened i h) act =
      .ok (((s.opened i h).writeVec r 2 act (Vector.ofFn (fun l : Fin 128 => routeSum s i h a b c l)) (varLat h)).writeP pd act
        (maskOf (routeKeep s i h a b c)) (varLat h)) := by
  have hsrcs : ∀ x ∈ [(a, 2), (b, 1), (c, 1)], isReg x.1 = true := by simp [ha, hb, hc]
  have hlive : act &&& ~~~(0 : Mask) = act := by
    rw [show ~~~(0 : Mask) = BitVec.allOnes 128 from rfl, BitVec.and_allOnes]
  rw [routeLanes, withSrcs, pull_regs _ _ _ hsrcs]
  dsimp only
  rw [hlive]
  rfl

theorem exec_route_eq (s : State) : exec (.route h pd (.v r) a b c) s =
    run (.route h pd (.v r) a b c) h (routeLanes h pd (.v r) a b c) s := rfl

/-- ROUTE on registers. -/
theorem exec_route {i : Instr} (hi : i = .route h pd (.v r) a b c) (ha : isReg a = true) (hb : isReg b = true) (hc : isReg c = true)
    (hready : vecReady s i h r 2) (hpd : certain (s.opened i h) (.p pd)) :
    ∃ t, exec i s = .next t ∧ onlyVP (s.stepped h) t ∧ wroteP s t pd (lanesOn i h s) (routeKeep s i h a b c) ∧
      wroteV s t r 2 (lanesOn i h s) (routeSum s i h a b c) := by
  have hexec : exec i s = run i h (routeLanes h pd (.v r) a b c) s := by rw [hi, exec_route_eq]
  obtain ⟨t, hrun, hframe, hv, hp⟩ := exec_writeVec_writeP hexec hready hpd (routeLanes_regs s i _ ha hb hc)
  exact ⟨t, hrun, hframe, hp, hv.congr fun l hl => getD_ofFn _ _ hl⟩

theorem beq_eq_decide_eq {α : Type} [BEq α] [LawfulBEq α] [DecidableEq α] (x y : α) : (x == y) = decide (x = y) := by
  rw [Bool.eq_iff_iff, beq_iff_eq, decide_eq_true_eq]

/-- The threshold rule of R214. -/
theorem routeKeep_eq (s : State) (i : Instr) (h : Hdr) (a b c : Opd) (l : Nat) : routeKeep s i h a b c l =
    (decide ((Fmt.f32.val ((laneSrc s i h b 1 l).toNat % 2 ^ 32)).cmp (Fmt.f32.val ((laneSrc s i h c 1 l).toNat % 2 ^ 32)) = some .lt) &&
      !(Fmt.f32.val ((laneSrc s i h a 2 l).toNat % 2 ^ 32)).isNan && decide ((laneSrc s i h a 2 l).toNat / 2 ^ 32 ≠ 0xFFFFFFFF)) := by
  rw [routeKeep, routeKeeps, beq_eq_decide_eq, bne, beq_eq_decide_eq, decide_not]

end Sys2Proof.Machine
end

section
open Sys2Proof Sys2Proof.Machine

/-- Settles O47, clause by clause: what each class 5 instruction counts, and the command it leaves with the bellows. -/
theorem engineInstructionsQueueTheirWork : Obligations.EngineInstructionsQueueTheirWork := by
  unfold Obligations.EngineInstructionsQueueTheirWork
  intro s h k d a b
  refine ⟨?copy, ?follow, ?row, ?rank, ?tgen, ?waitk, ?kadd, ?route⟩
  case copy =>
    intro i scatter copyg sg hint slot hi hclears
    obtain ⟨eff, hexec, heff⟩ := exec_copy hi
    refine ⟨fun hapart => ?_, fun r remote u hconv hfence hcheck hroom hcount => ?_⟩
    · exact exec_precise hexec hclears (heff.trans (copyIssue_apart ((opened_converged ..).trans hapart))) (by decide)
    · exact exec_copyIssue_ok hexec heff hclears hconv hfence hcheck hroom hcount
  case follow =>
    intro o side sg hint off r remote u f i hclears hconv hfence hcheck more hfollow hids hroom hk hcount
    exact exec_copym_follow hclears hconv hfence hcheck hfollow hids hroom hk hcount
  case row =>
    intro i src c ls ld o hi hclears hact dst len bad
    refine ⟨exec_rowIssue_bad hi hclears hact, fun hmul hpos hmax hdst hsrc hld => ?_⟩
    have hfits : rowFits (s.opened i h) dst src len ls ld := ⟨hmul, hpos, hmax, hdst, hsrc, hld⟩
    exact ⟨exec_rowIssue_overlap hi hclears hact hfits, exec_rowIssue_ok hi hclears hact hfits⟩
  case rank =>
    intro kind n r u x y i o base l hclears hact hread hrecord hwindow hpattern hhbm hsize hspan hroom
    exact exec_rank_ok hclears hact hread hrecord hwindow hpattern hhbm hsize hspan hroom
  case tgen =>
    intro m c x y z i o n cap hclears hact
    exact ⟨exec_tgen_bad hclears hact, fun hpos hmax hcounts htab hlist hroom =>
      exec_tgen_ok hclears hact rfl rfl hpos hmax hcounts htab hlist hroom⟩
  case waitk =>
    intro mask i hclears hact
    exact ⟨exec_waitk_zero hclears hact, exec_waitk_waits hclears hact⟩
  case kadd =>
    intro i x imm hi hclears hact hk y
    exact ⟨exec_kadd_fits hi hclears hact rfl, exec_kadd_past hi hclears hact rfl⟩
  case route =>
    intro pd r c i lo keep ha hb hc hready hpd
    have hkeep : routeKeep s i h a b c = keep := funext (routeKeep_eq s i h a b c)
    obtain ⟨t, hrun, hframe, hp, hv⟩ := exec_route rfl ha hb hc hready hpd
    rw [hkeep] at hp
    refine ⟨t, hrun, hframe, hp, hv.congr fun l _ => ?_⟩
    rw [routeSum, hkeep]

end
